-- ==== Sys2Proof/Word.lean ====
section
/-! DEFINITION. The word types of the AE7240: register pages move 32-bit words (R7), memory moves bytes
(R6), physical addresses have 40 bits (R42), accumulators 80 (R131). -/

namespace Sys2Proof

/-- A 32-bit word of a register page, a queue or a data register (R6, R7, R100). -/
abbrev Word := BitVec 32

/-- One byte of memory (R6). -/
abbrev Byte := BitVec 8

/-- A physical address (R42). -/
abbrev PAddr := BitVec 40

/-- An accumulator: 8 guard bits and 72 bits (R131). -/
abbrev Acc := BitVec 80

end Sys2Proof
end

