-- ==== Sys2Proof/Syntax.lean ====
section
/-! DEFINITION. The commands of the AE7240, one constructor for each row of spec/opcode_table.json. The block
takes commands from outside: writes and reads of its registers, operations on its buses and links, and the
events its own clocks and engines bring about, each whole and indivisible. An operand is what the event
carries in from outside: an instance number, a written value, a received frame, a measured quantity. -/

namespace Sys2Proof

/-- A processor core: a Mix Engine Core or a Steward (R129, R162). -/
inductive CoreId where
  | mec (n : Fin 32)
  | st (n : Fin 2)
deriving DecidableEq, Repr

/-- The four slots of a bundle (R129). -/
inductive Slot where
  | ma | mb | ls | ct
deriving DecidableEq, Repr

/-- A transaction as a master presents it (R312): one read or one write of 1 to 16 incrementing beats of
`2 ^ beatLog` bytes. `data` holds a write's bytes in address order, and `strobes` one Bool for each of them; `chan`
is the channel whose transaction it is on a Courier port, which gives its QoS (R315). -/
structure Txn where
  master  : Fin 15
  chan    : Fin 32
  write   : Bool
  addr    : PAddr
  beatLog : Fin 6
  beats   : Nat
  data    : List Byte
  strobes : List Bool
deriving DecidableEq, Repr

/-- A gain under zero-crossing stepping (R267): a Direct Mixer crosspoint, a SAP or AES3 trim, a volume. -/
inductive ZcGain where
  | dmix (i : Fin 64) (j : Fin 32)
  | sap (p : Fin 16) (slot : Fin 32)
  | aes (n : Fin 4) (ch : Fin 2)
  | spk (n : Fin 16)
deriving DecidableEq, Repr

/-- A muted pair of the non-audio detectors: a SAP slot pair (R342) or an AES3 receiver (R346). -/
inductive NaUnit where
  | sap (p : Fin 16) (pair : Fin 16)
  | aes (n : Fin 4)
deriving DecidableEq, Repr

/-- How a slave SAP frame meets its strobe (R333, R334): in step, a strobe left without a frame (the previous
words again), or an earlier frame dropped. -/
inductive Slip where
  | none | repeated | dropped
deriving DecidableEq, Repr

/-- A frame as a SAP port receives it: the slot words left-justified, the BCLK periods it held, its d_in in
APLL cycles, how it met its strobe and the short time of its frame start (R333 to R335, R341). -/
structure SapFrame where
  words  : List Word
  bclks  : Nat
  dIn    : BitVec 16
  slip   : Slip
  start  : Word
deriving DecidableEq, Repr

/-- One AES3 subframe as received (R343, R344): 24 audio bits, validity, channel status and user bit, parity. -/
structure Subframe where
  audio  : BitVec 24
  v      : Bool
  cs     : Bool
  user   : Bool
  parityErr : Bool
deriving DecidableEq, Repr

/-- A frame of an AES3 receiver: both subframes, whether a Z preamble opens it, whether its preambles are
valid, its biphase violations, its d_in, how it met its strobe and the short time of its start (R343, R344). -/
structure AesFrame where
  a        : Subframe
  b        : Subframe
  z        : Bool
  valid    : Bool
  biphase  : Nat
  dIn      : BitVec 16
  slip     : Slip
  start    : Word
deriving DecidableEq, Repr

/-- What one Aster measurement interval gives (R366): the reference whose interval it is, with every other one of that
length, or none for the intervals of 10 ms; the offsets, in 0.001 ppm, of the references that covered it in full; and
the phase error of the selected one in ns. -/
structure AsterMeas where
  ref     : Option (Fin 12)
  offsets : List (Fin 12 × BitVec 32)
  phErr   : BitVec 32
deriving DecidableEq, Repr

/-- A Stem frame as the receiver assembled it from its blocks (R480 to R484): the 56-bit header field, the
16 control bytes, the payload bytes, the CRC and block count that its CRC block carries, and whether an
assembly rule of R484 was broken. `start` is the short time at which its marker left the receive PCS. -/
structure StemFrame where
  header   : BitVec 56
  control  : List Byte
  payload  : List Byte
  crc      : Word
  blocks   : Nat
  broken   : Bool
  start    : Word
deriving DecidableEq, Repr

/-- A mirror record as received (R571): the TICK, EPOCH and FLAGS of its Marker, its parts, the block count and
CRC its Trailer carries. -/
structure MirrorRecord where
  tick    : Word
  epoch   : BitVec 16
  flags   : Byte
  data    : List Byte
  crc     : Word
  blocks  : Nat
deriving DecidableEq, Repr

/-- One pulse-end measurement set of a diagnostic phase (R517, R518): what the 64 probe pulses showed. -/
structure DiagFinding where
  stuckLow  : Bool   -- the driven node stayed below 10 % of VSUP at every pulse
  stuckHigh : Bool   -- the driven node stayed above 90 % of VSUP at every pulse
  compTrip  : Bool   -- the comparator of R520 tripped
  fltLow    : Bool   -- SPKn_FLT_N went low
  r10m      : Nat    -- the median resistance in units of 10 mΩ (phase D3)
deriving DecidableEq, Repr

/-- A boot chunk as it arrives (R632): its index and bytes, and whether the frame check of its source passed. -/
structure BootChunk where
  index : Word
  bytes : List Byte
  good  : Bool
deriving DecidableEq, Repr

/-- A word of an alias and the master that writes it (R85): the offset counts from the base of the alias. -/
structure AliasWord where
  master : Fin 15
  ofs    : BitVec 25
deriving DecidableEq, Repr

/-- The commands, in the order of spec/opcode_table.json. What three operands report of an event, `late` of the audio
boundary, `data` and `err` of a remote access's response, follows from the state, and no meaning reads them (log
entry 141). -/
inductive Instr where
  -- the Engine Tick
  | sampleStrobe
  | audioBoundary (late : Bool)
  | engineBoundary (ecyc : BitVec 20)
  | cwOpen
  | verdict
  | outputCommit
  | snapdragonFlip
  | glideStep
  | mirrorSnapshot
  | stagingExchange
  | tickWatchdogFeed (gapUs : Nat)
  | ofsEvent (n : Fin 2)
  | tickStart
  | tickStop
  | ecycClr (v : Word)
  | tickCountLoRead
  -- register pages
  | registerWrite (a : BitVec 20) (v : Word)
  | irqForce (page : Fin 256) (v : Word)
  | errCodeClear (page : Fin 256) (v : Word)
  | idleRequest (page : Fin 256)
  | idleAck (page : Fin 256)
  | blockResetRequest (page : Fin 256)
  | blockResetTimeout (page : Fin 256)
  | blockResetRelease (page : Fin 256)
  | remapWrite (v : Word)
  -- the Signal Hub
  | hubSourceAssert (src : Fin 256)
  | hubClaim (t : Fin 3)
  | hubDone (t : Fin 3) (v : Word)
  | hubSwset (v : Word)
  | hubEvmonRead
  | hubWclkDivWrite (v : Word)
  | hubSourceCfgWrite (src : Fin 256) (v : Word)
  | interruptTaken (st : Fin 2)
  -- the bus matrix
  | transactionIssue (t : Txn)
  | transactionGrant (target : Fin 13)
  | transactionResponse (target : Fin 13) (master : Fin 15)
  | aliasWrite (set : Bool) (ofs : AliasWord) (mask : Word)
  | localAccessServe (m : Fin 32)
  -- Bank Memory
  | bankStateRequest (k : Fin 4) (v : Word)
  | bankTransitionStart (b : Fin 64)
  | bankTransitionDone (b : Fin 64)
  | bistStart (v : Word)
  | bistAbort
  | bistBankDone (g : Fin 8) (failAt : Option (BitVec 19))
  | bistDone
  | conflictClr (v : Word)
  -- the Queue Fabric
  | endpointPush (q : Fin 1024) (kind : BitVec 4) (id : BitVec 8) (w : Word)
  | endpointPop (q : Fin 1024) (kind : BitVec 4) (id : BitVec 8)
  | creditWaitEnd (q : Fin 1024) (consumer : Bool)
  | bankMoverTransfer (q : Fin 1024)
  | queueEnable
  | queueDisable
  | queueFlush
  | queueClrstat
  -- the cores
  | resultDelivery (c : CoreId)
  | remoteAccessResponse (c : CoreId) (data : List Word) (err : Bool)
  | dot (c : CoreId) (sl : Slot)
  | dual (c : CoreId) (sl : Slot)
  | bcast (c : CoreId) (sl : Slot)
  | cross (c : CoreId) (sl : Slot)
  | mac1 (c : CoreId) (sl : Slot)
  | aadd (c : CoreId) (sl : Slot)
  | ada (c : CoreId) (sl : Slot)
  | lsPair (c : CoreId)
  | queuePop (c : CoreId)
  | queuePush (c : CoreId)
  | singleLoad (c : CoreId)
  | singleStore (c : CoreId)
  | modp (c : CoreId)
  | add (c : CoreId)
  | sub (c : CoreId)
  | neg (c : CoreId)
  | abs (c : CoreId)
  | shl (c : CoreId)
  | asr (c : CoreId)
  | lsr (c : CoreId)
  | and (c : CoreId)
  | or (c : CoreId)
  | xor (c : CoreId)
  | not (c : CoreId)
  | min (c : CoreId)
  | max (c : CoreId)
  | slt (c : CoreId)
  | seq (c : CoreId)
  | mov (c : CoreId)
  | ldi (c : CoreId)
  | ext (c : CoreId)
  | expd (c : CoreId)
  | expa (c : CoreId)
  | normd (c : CoreId)
  | norma (c : CoreId)
  | br (c : CoreId)
  | call (c : CoreId)
  | jr (c : CoreId)
  | ret (c : CoreId)
  | loop (c : CoreId)
  | loopr (c : CoreId)
  | loopEnd (c : CoreId)
  | endt (c : CoreId)
  | endtComplete (c : CoreId)
  | waitev (c : CoreId)
  | eventWaitEnd (c : CoreId)
  | mts (c : CoreId)
  | mfs (c : CoreId)
  | trap (c : CoreId)
  | rete (c : CoreId)
  | waiti (c : CoreId)
  | breakpoint (c : CoreId)
  | coreStart (c : CoreId)
  | coreHalt (c : CoreId)
  | haltDone (c : CoreId)
  | coreStep (c : CoreId)
  | coreResume (c : CoreId)
  | regdataStage (c : CoreId) (hi : Bool) (v : Word)
  | regdataCommit (c : CoreId) (v : Word)
  | mecStatsClr (m : Fin 32) (v : Word)
  | icacheInvalidate (st : Fin 2)
  | stewardWdogKick (st : Fin 2) (v : Word)
  | stewardWdogExpiry (st : Fin 2)
  -- Snapdragon and Glide
  | flipArm
  | flipArmNext
  | flipDisarm
  | flipNow
  | glideArm
  | glideArmNext
  | glideDisarm
  | glideStop
  | heldCoeffWrite (m : Fin 32)
  | flipLastRead
  -- the Patch Matrix and the Direct Mixer
  | selectTableWrite (ofs : BitVec 20) (v : Word)
  | genTypeWrite (g : Fin 8) (v : Word)
  | genSeedWrite (g : Fin 8) (v : Word)
  | dmixGainWrite (ofs : BitVec 20) (v : Word)
  | zcTimeout (g : ZcGain)
  -- Courier DMA
  | courierStop (c : Fin 32)
  | channelDone (c : Fin 32)
  | courierMove (c : Fin 32)
  | burstDecision (c : Fin 32)
  | courierGather (c : Fin 32)
  | courierScatter (c : Fin 32)
  | courierLoop (c : Fin 32)
  | courierWait (c : Fin 32)
  | courierWaitEnd (c : Fin 32)
  | courierSignal (c : Fin 32)
  | courierFence (c : Fin 32)
  | fenceDone (c : Fin 32)
  | courierLdptr (c : Fin 32)
  | courierAddptr (c : Fin 32)
  | channelStart (c : Fin 32)
  | channelAbort (c : Fin 32)
  | abortDone (c : Fin 32)
  | flagSet (n : Fin 4) (v : Word)
  | plainRelease (n : Fin 4) (v : Word)
  | mtxStatsClr (v : Word)
  | portDrain (m : Fin 15)
  | drainDone (m : Fin 15)
  -- audio ports
  | sapEnable (p : Fin 16)
  | sapFrameReceived (p : Fin 16) (f : SapFrame)
  | sapFrameSent (p : Fin 16) (dOut : BitVec 16)
  | sapClockLoss (p : Fin 16)
  | sapClockRecovery (p : Fin 16)
  | nonaudioTimeout (u : NaUnit)
  | aesFrameReceived (n : Fin 4) (f : AesFrame)
  | aesLock (n : Fin 4)
  | aesLockLoss (n : Fin 4)
  | aesStatusBlock (n : Fin 4) (rate : BitVec 18)
  | aesFrameSent (n : Fin 4)
  | txcsCommit (n : Fin 4) (v : Word)
  | txcsCopy (n : Fin 4)
  | asrcLock (g : Fin 8) (ratio : Word)
  | asrcLockLoss (g : Fin 8) (ratio : Word)
  | jackDebounce (j : Fin 2) (det : Bool)
  | jackClassRound (j : Fin 2) (tip ring2 sleeve : BitVec 10)
  | jackReclass (v : Word)
  | jackButtonSample (j : Fin 2) (code : BitVec 10)
  | jackButtonDebounce (j : Fin 2)
  | jackEventPop
  | jackRawSample (code : BitVec 10)
  | jackRawPop
  -- Aster
  | asterInterval (m : AsterMeas)
  | refInactive (r : Fin 12)
  | wtrExpiry (r : Fin 12)
  | restoreNow
  | buildoutDone
  | recal
  | recalDone
  | dcoRail (atRail : Bool)
  | apllUnlock (b : Bool)
  | frameSourcePulse (t : Word)
  | frameOutPulse
  | frameMiss
  -- the time base
  | incCommit (v : Word)
  | timeStep
  | timeCapture
  | tbNsRead
  | tbShortRead
  | shortWrap
  | secondRollover
  -- serial lanes and Iris
  | laneEnable (n : Fin 10)
  | losAssert (n : Fin 10)
  | losClear (n : Fin 10)
  | cdrLock (n : Fin 10) (freq : Word)
  | cdrLoss (n : Fin 10)
  | laneBlockReceived (n : Fin 10) (hdr : BitVec 2) (payload : BitVec 64)
  | relock (n : Fin 10)
  | idleEnter (n : Fin 10)
  | idleExit (n : Fin 10)
  | trainingBurstEnd (n : Fin 10)
  | rxIdleTimeout (n : Fin 10)
  | irisStart
  | irisAbort
  | irisPointDone (errs : Nat)
  | irisBufPop
  -- Larkspur Ethernet
  | ethLinkChange (p : Fin 4) (localFault remoteFault : Bool)
  | ringEnable (p : Fin 4) (tx : Bool) (k : Fin 16) (v : Word)
  | ringDisable (p : Fin 4) (tx : Bool) (k : Fin 16)
  | ringTailWrite (p : Fin 4) (tx : Bool) (k : Fin 16) (v : Word)
  | txFrameFetch (p : Fin 4) (k : Fin 16)
  | txFrameStart (p : Fin 4)
  | txFrameDone (p : Fin 4) (stamp : Word)
  | ethFrameReceived (p : Fin 4) (frame : List Byte) (fcsOk : Bool) (stamp : Word)
  | rxFramePlace (p : Fin 4)
  | pauseExpiry (p : Fin 4) (cls : Option (Fin 8))
  | gateEntryAdvance (p : Fin 4)
  | gclArm (p : Fin 4)
  | gclDisarm (p : Fin 4)
  | gclSwitch (p : Fin 4)
  | ethStatsClr (p : Fin 4) (v : Word)
  -- the CB0 control bus
  | cb0FrameReceived (frame : List Byte) (fcsOk rxer : Bool) (stamp : Word)
  | cb0RxPop
  | cb0TxPush (v : Word)
  | cb0TxDone (stamp : Word)
  | cb0Collision (afterBits : Nat) (r : Nat)
  | cb0BackoffExpiry
  | cb0Txflush (v : Word)
  | plcaStatusChange (up : Bool)
  | mdioAccess (v : Word)
  | mdioDone (data : BitVec 16)
  | cb0StatsClr (v : Word)
  -- media streams
  | streamEnable (tx : Bool) (v : Word)
  | streamPacketSend (i : Fin 256)
  | planeDown (i : Fin 256) (b : Bool)
  | strmStatsClr (v : Word)
  -- Stem links
  | stemEnable (n : Fin 4)
  | stemFrameSend (n : Fin 4)
  | stemIdleBurst (n : Fin 4)
  | stemFrameReceived (n : Fin 4) (f : StemFrame)
  | stemLinkWait (n : Fin 4)
  | ctxSend (n : Fin 4) (v : Word)
  | crxPop (n : Fin 4)
  | stmStatsClr (n : Fin 4) (v : Word)
  -- speaker drive
  | spkEnable (n : Fin 16) (on : Bool)
  | spkPlay (n : Fin 16) (fltLow : Bool)
  | spkMute (n : Fin 16)
  | spkDiag (n : Fin 16) (fltLow : Bool)
  | spkClear (n : Fin 16)
  | softStartSwitching (n : Fin 16)
  | softStartDone (n : Fin 16)
  | softStopDone (n : Fin 16)
  | loopPeriod (n : Fin 16) (vDiffMv iMa : BitVec 32)
  | comparatorTrip (n : Fin 16)
  | stageFault (n : Fin 16)
  | shortRetry (n : Fin 16) (fltLow : Bool)
  | retryReset (n : Fin 16)
  | diagPhase (n : Fin 16) (f : DiagFinding)
  | spkStatsClr (n : Fin 16) (v : Word)
  -- Foxglove
  | guardSeal (v : Word)
  | sealCopyDone
  | copyCompare
  | release (v : Word) (safeN : Bool)
  | resume (v : Word) (safeN : Bool)
  | swquiet (v : Word)
  | totestSet (v : Word)
  | totestClear (v : Word)
  | dcWindow (g : Fin 536)
  | dutyWindow (n : Fin 16) (mean : BitVec 32)
  | gateTrip (n : Fin 16)
  | overlapDetect (n : Fin 16) (b : Bool)
  | tripClear (w : Fin 17) (v : Word)
  | pinPathTimer (g : Option (Fin 536))
  | wdogExpiry
  | safeAssert
  | fqiAssert
  | fqiClear
  | standbyClear
  | xchkTimeout (g : BitVec 16)
  | keepaliveLoss
  | fgSupplyFault (osc : Bool)
  | fgStatsClr (v : Word)
  -- Marigold
  | mgldEnable (pairRole : Bool)
  | recordSend
  | mirrorInputForward (i : Fin 32)
  | recordReceived (r : MirrorRecord)
  | statusReceived (tick : Word) (epoch : BitVec 16) (flags : Byte)
  | heartbeatDeadline
  | takeover (v : Word)
  | handover (v : Word)
  | join (v : Word)
  | mgldStatsClr (v : Word)
  -- the DRAM controllers
  | dramInit (k : Fin 2)
  | dramResume (k : Fin 2)
  | dramInitDone (k : Fin 2) (ok : Bool)
  | retrain (k : Fin 2)
  | rtArm (k : Fin 2)
  | dramService (k : Fin 2)
  | refreshDue (k : Fin 2)
  | mr4Read (k : Fin 2) (op : BitVec 5) (band : Fin 4)
  | pauseDue (k : Fin 2)
  | pauseStart (k : Fin 2)
  | pauseGrace (k : Fin 2)
  | pauseEnd (k : Fin 2) (ok : Bool)
  | selfrefEntry (k : Fin 2)
  | selfrefExit (k : Fin 2)
  | dramStatsClr (k : Fin 2) (v : Word)
  -- reset, power and boot
  | por
  | resetPin (low : Bool)
  | peerResetIn
  | thermalTrip
  | enginePllLoss
  | jtagSysrst
  | softwareReset (v : Word)
  | resetSequenceStep (bootSel : BitVec 3)
  | resetRelease (src : Fin 13)
  | engineResetRelease
  | fuseProgram (v : Word)
  | fuseProgramDone (ok : Bool)
  | peerResetPulse (v : Word)
  | powerStateRequest (v : Word)
  | pstateDone
  | wakePin
  | pwrgoodRise
  | pwrgoodTimeout
  | tempReading (t : BitVec 16)
  | bootLoad (flash : List Byte)
  | bootChunk (c : BootChunk)
  | bootAck
  | bootSourceTimeout
  | hostWriteWords (a : Word) (ws : List Word)
  | hostReadWords (a : Word) (n : Nat)
  | hostReadStatus
  | hostMboxPush (ws : List Word)
  | hostMboxPop (n : Nat)
  | mboxInRead
  | mboxOutWrite (v : Word)
  | bootqXfer (v : Word)
  | bootqXferDone (data : List Word)
  | bootqDataRead
  | bootqDataWrite (v : Word)
  -- rows the table gives last
  | referenceActive (r : Fin 12)
  | launchTime (p : Fin 4) (k : Fin 16)
  | cb0TransmitStart
  | markerReceived (tick : Word) (epoch : BitVec 16) (flags : Byte)
  | reservedOpcode (c : CoreId) (sl : Slot)
  | courierReservedOpcode (c : Fin 32)
deriving DecidableEq, Repr

end Sys2Proof
end

