-- ==== Sys2Proof/Machine/Bits.lean ====
section
/-! DEFINITION. Fields of words, signed numbers, saturation and byte order (R6: bit 0 is the least significant
bit, memory is little-endian). -/

namespace Sys2Proof.Machine

/-- Bits [hi:lo] of a word, as a number. -/
def fld (w : Word) (hi lo : Nat) : Nat := w.toNat >>> lo % 2 ^ (hi + 1 - lo)

/-- Bit `i` of a word. -/
def bit (w : Word) (i : Nat) : Bool := w.getLsbD i

/-- A number as a word, modulo 2^32. -/
abbrev word (n : Nat) : Word := BitVec.ofNat 32 n

/-- A word with `v` in bits [hi:lo]. -/
def setFld (w : Word) (hi lo v : Nat) : Word :=
  let m := word ((2 ^ (hi + 1 - lo) - 1) <<< lo)
  (w &&& ~~~m) ||| (word (v <<< lo) &&& m)

/-- A word with bit `i` set to `b`. -/
def setBit (w : Word) (i : Nat) (b : Bool) : Word := setFld w i i b.toNat

/-- One bit, as a number. -/
def b2n (b : Bool) : Nat := b.toNat

/-- The word whose bit `i` is `p i`. -/
def bitsOf (p : Nat → Bool) : Word :=
  word ((List.range 32).foldl (fun a i => if p i then a + 2 ^ i else a) 0)

/-- An integer held between `lo` and `hi`. -/
def clampInt (lo hi x : Int) : Int := if x < lo then lo else if hi < x then hi else x

/-- An integer clamped to a signed number of `n` bits. -/
def satSigned (n : Nat) (x : Int) : Int := clampInt (-(2 ^ (n - 1))) (2 ^ (n - 1) - 1) x

/-- An integer clamped to 32 signed bits, as a word. -/
def satWord (x : Int) : Word := BitVec.ofInt 32 (satSigned 32 x)

/-- A word one higher, stopping at 0xFFFF_FFFF. -/
def satInc (w : Word) : Word := if w = 0xFFFF_FFFF then w else w + 1

/-- A word higher by `n`, stopping at 0xFFFF_FFFF. -/
def satAdd (w : Word) (n : Nat) : Word :=
  if w.toNat + n < 2 ^ 32 then word (w.toNat + n) else 0xFFFF_FFFF

/-- Bits [hi:lo] of a word as a signed number. -/
def fldS (w : Word) (hi lo : Nat) : Int := (BitVec.ofNat (hi + 1 - lo) (fld w hi lo)).toInt

/-- `a / b` truncated toward zero, 0 for b = 0. -/
def divTrunc (a b : Int) : Int := Int.tdiv a b

/-- `x / 2^n` rounded to the nearest integer, halves up. -/
def roundHalfUp (x : Int) (n : Nat) : Int := if n = 0 then x else (x + 2 ^ (n - 1)) / 2 ^ n

/-- The bytes of a word, lowest first. -/
def wordBytes (w : Word) : List Byte :=
  [w.extractLsb' 0 8, w.extractLsb' 8 8, w.extractLsb' 16 8, w.extractLsb' 24 8]

/-- The number that a list of bytes holds, lowest first. -/
def bytesNat : List Byte → Nat
  | [] => 0
  | b :: t => b.toNat + 256 * bytesNat t

/-- The lowest `n` bytes of a number, lowest first. -/
def natBytes : Nat → Nat → List Byte
  | 0, _ => []
  | n + 1, v => BitVec.ofNat 8 v :: natBytes n (v / 256)

/-- The number that a list of bytes holds, highest first (network order). -/
def bytesNatBE (l : List Byte) : Nat := bytesNat l.reverse

/-- The lowest `n` bytes of a number, highest first (network order). -/
def natBytesBE (n v : Nat) : List Byte := (natBytes n v).reverse

/-- Byte `i` of a list, 0 past its end. -/
def byteAt (l : List Byte) (i : Nat) : Byte := (l[i]?).getD 0

/-- `n` bytes of a list from index `i`, as a number, highest first. -/
def beAt (l : List Byte) (i n : Nat) : Nat := bytesNatBE ((l.drop i).take n)

/-- `n` bytes of a list from index `i`, as a number, lowest first. -/
def leAt (l : List Byte) (i n : Nat) : Nat := bytesNat ((l.drop i).take n)

/-- The words of a list of bytes, little-endian, the last one filled with zeros. -/
def bytesWords : Nat → List Byte → List Word
  | 0, _ => []
  | n + 1, l => word (bytesNat (l.take 4)) :: bytesWords n (l.drop 4)

/-- One bit into the reflected CRC-32 of IEEE 802.3 (polynomial 0xEDB8_8320). -/
def crcBit (c : Word) : Word := if c.getLsbD 0 then (c >>> 1) ^^^ 0xEDB8_8320 else c >>> 1

/-- One byte into the CRC. -/
def crcByte (c : Word) (b : Byte) : Word :=
  let x := c ^^^ b.setWidth 32
  crcBit (crcBit (crcBit (crcBit (crcBit (crcBit (crcBit (crcBit x)))))))

/-- CRC-32 as in Ethernet: initial value all ones, complemented at the end (R483, R550, R572). -/
def crc32 (l : List Byte) : Word := ~~~(l.foldl crcByte 0xFFFF_FFFF)

/-- Short time `a` lies before `b`: a - b read as a signed number is negative (R390). -/
def before (a b : Word) : Bool := decide ((a - b).toInt < 0)

/-- The nearest number to `n` in [lo, hi]. -/
def clampNat (lo hi n : Nat) : Nat := if n < lo then lo else if hi < n then hi else n

/-- `n / d` rounded up. -/
def ceilDiv (n d : Nat) : Nat := (n + d - 1) / d

end Sys2Proof.Machine
end

