-- ==== Sys2Proof/Machine/RegMap.lean ====
section
/-! DEFINITION. The register map: the pages of R52, the header facts the owning chapters state, and every row of
their register tables (offset, access code, writable bits, Reset value). A key names a register by its page
number times 0x1000 plus its offset (R52). -/

namespace Sys2Proof.Machine

/-- The blocks of R52. -/
inductive PageKind where
  | sysP | rstP | clkpwrP | fuseP | fgP | hubP | mtxP | bankP | qfP | tickP | snapP | patchP | dmixP | dramP | asterP | tbP | jackP | stP | hostP | bootqP | guardP | curP | sapP | aesP | asrcP | mecP | laneP | irisP | ethP | strmP | cb0P | stmP | mgldP | spkP | spkcP
deriving DecidableEq, Repr

/-- The block and the instance that a page number names (R52); none for an unassigned page (R53). -/
def pageKind (p : Nat) : Option (PageKind × Nat) :=
  if p = 0x00 then some (.sysP, 0)
  else if p = 0x01 then some (.rstP, 0)
  else if p = 0x02 then some (.clkpwrP, 0)
  else if p = 0x03 then some (.fuseP, 0)
  else if p = 0x04 then some (.fgP, 0)
  else if p = 0x05 then some (.hubP, 0)
  else if p = 0x06 then some (.mtxP, 0)
  else if p = 0x07 then some (.bankP, 0)
  else if p = 0x08 then some (.qfP, 0)
  else if p = 0x09 then some (.tickP, 0)
  else if p = 0x0A then some (.snapP, 0)
  else if p = 0x0B then some (.patchP, 0)
  else if p = 0x0C then some (.dmixP, 0)
  else if 0x0D ≤ p ∧ p < 0x0F then some (.dramP, p - 0x0D)
  else if p = 0x0F then some (.asterP, 0)
  else if p = 0x10 then some (.tbP, 0)
  else if p = 0x11 then some (.jackP, 0)
  else if 0x12 ≤ p ∧ p < 0x14 then some (.stP, p - 0x12)
  else if p = 0x14 then some (.hostP, 0)
  else if p = 0x15 then some (.bootqP, 0)
  else if p = 0x16 then some (.guardP, 0)
  else if 0x18 ≤ p ∧ p < 0x1C then some (.curP, p - 0x18)
  else if 0x20 ≤ p ∧ p < 0x30 then some (.sapP, p - 0x20)
  else if 0x30 ≤ p ∧ p < 0x34 then some (.aesP, p - 0x30)
  else if p = 0x34 then some (.asrcP, 0)
  else if 0x40 ≤ p ∧ p < 0x60 then some (.mecP, p - 0x40)
  else if 0x60 ≤ p ∧ p < 0x6A then some (.laneP, p - 0x60)
  else if p = 0x6A then some (.irisP, 0)
  else if 0x70 ≤ p ∧ p < 0x74 then some (.ethP, p - 0x70)
  else if p = 0x74 then some (.strmP, 0)
  else if p = 0x75 then some (.cb0P, 0)
  else if 0x78 ≤ p ∧ p < 0x7C then some (.stmP, p - 0x78)
  else if p = 0x7C then some (.mgldP, 0)
  else if 0x80 ≤ p ∧ p < 0x90 then some (.spkP, p - 0x80)
  else if p = 0x90 then some (.spkcP, 0)
  else none

/-- The page number of instance 0 of a block (R52), which is its block type. -/
def PageKind.base : PageKind → Nat
  | .sysP => 0x00
  | .rstP => 0x01
  | .clkpwrP => 0x02
  | .fuseP => 0x03
  | .fgP => 0x04
  | .hubP => 0x05
  | .mtxP => 0x06
  | .bankP => 0x07
  | .qfP => 0x08
  | .tickP => 0x09
  | .snapP => 0x0A
  | .patchP => 0x0B
  | .dmixP => 0x0C
  | .dramP => 0x0D
  | .asterP => 0x0F
  | .tbP => 0x10
  | .jackP => 0x11
  | .stP => 0x12
  | .hostP => 0x14
  | .bootqP => 0x15
  | .guardP => 0x16
  | .curP => 0x18
  | .sapP => 0x20
  | .aesP => 0x30
  | .asrcP => 0x34
  | .mecP => 0x40
  | .laneP => 0x60
  | .irisP => 0x6A
  | .ethP => 0x70
  | .strmP => 0x74
  | .cb0P => 0x75
  | .stmP => 0x78
  | .mgldP => 0x7C
  | .spkP => 0x80
  | .spkcP => 0x90

/-- CAPS of instance `i`, as each page's own rule states it (R38, R69, R98, R125, R170, R172, R244, R271, R273,
R306, R323, R355, R358, R360, R361, R385, R402, R428, R430, R457, R459, R476, R501, R528, R531, R558, R560,
R590, R609, R637). -/
def pageCaps : PageKind → Nat → Word
  | .sysP, _ => 0x0000_0001
  | .rstP, _ => 0x0000_0D0D
  | .clkpwrP, _ => 0x0000_0004
  | .fuseP, _ => 0x0000_000C
  | .fgP, _ => 0x0000_0102
  | .hubP, _ => 0x0010_0100
  | .mtxP, _ => 0x0200_0D0F
  | .bankP, _ => 0x0000_0840
  | .qfP, _ => 0x0000_C400
  | .tickP, _ => 0x0000_3F3F
  | .snapP, _ => 0xFFF4_0020
  | .patchP, _ => 0x0880_1000
  | .dmixP, _ => 0x0000_2040
  | .dramP, _ => 0x0003_4020
  | .asterP, _ => 0x0000_080C
  | .tbP, _ => 0x0000_0104
  | .jackP, _ => 0x0000_0A02
  | .stP, _ => 0x0000_0002
  | .hostP, _ => 0x0000_1010
  | .bootqP, _ => 0x0000_0040
  | .guardP, _ => 0x0000_0218
  | .curP, i => 0x0000_1008 ||| BitVec.ofNat 32 (8 * i * 0x1_0000)
  | .sapP, _ => 0x0000_0020
  | .aesP, _ => 0x0000_0101
  | .asrcP, _ => 0x0000_0840
  | .mecP, i => 0x0001_0004 ||| BitVec.ofNat 32 (i / 8 * 0x100)
  | .laneP, i => if 4 ≤ i ∧ i ≤ 7 then 0x0000_0003 else 0x0000_0001
  | .irisP, _ => 0x0040_FF0A
  | .ethP, i => if i = 0 then 0x8200_0810 else 0x0200_0810
  | .strmP, _ => 0x0080_0100
  | .cb0P, _ => 0x0000_0001
  | .stmP, _ => 0x0001_0200
  | .mgldP, _ => 0x0008_2020
  | .spkP, _ => 0x04B0_012C
  | .spkcP, _ => 0x0000_1010

/-- The bits of IRQ_RAW that exist on the page; the others are RSV (R57 and each page's own rule). -/
def pageIrqBits : PageKind → Nat → Word
  | .sysP, _ => 0x00000001
  | .rstP, _ => 0x00000003
  | .clkpwrP, _ => 0x00000003
  | .fuseP, _ => 0x00000001
  | .fgP, _ => 0x0000003F
  | .hubP, _ => 0x00000001
  | .mtxP, _ => 0x00000007
  | .bankP, _ => 0x0000000F
  | .qfP, _ => 0x0000003F
  | .tickP, _ => 0x0000001F
  | .snapP, _ => 0x0000001F
  | .patchP, _ => 0x00000003
  | .dmixP, _ => 0x00000003
  | .dramP, _ => 0x000000FF
  | .asterP, _ => 0x000007FF
  | .tbP, _ => 0x0000001F
  | .jackP, _ => 0x0000003F
  | .stP, _ => 0x00000062
  | .hostP, _ => 0x00000007
  | .bootqP, _ => 0x00000001
  | .guardP, _ => 0x00000007
  | .curP, _ => 0xFFFFFFFF
  | .sapP, _ => 0x0000007F
  | .aesP, _ => 0x000001FF
  | .asrcP, _ => 0x0000FFFF
  | .mecP, _ => 0x0000001F
  | .laneP, _ => 0x0000007F
  | .irisP, _ => 0x00000003
  | .ethP, i => if i = 0 then 0x0000_00FF else 0x0000_007F
  | .strmP, _ => 0x0000007F
  | .cb0P, _ => 0x0000007F
  | .stmP, _ => 0x00000FFF
  | .mgldP, _ => 0x000003FF
  | .spkP, _ => 0x0000007F
  | .spkcP, _ => 0x00000001

/-- The reset value of CTRL.EN on the page (each page's own rule; 0 where it states none, R55). -/
def pageEnReset : PageKind → Nat → Bool
  | .sysP, _ => true
  | .rstP, _ => true
  | .clkpwrP, _ => true
  | .fuseP, _ => true
  | .fgP, _ => true
  | .mtxP, _ => true
  | .bankP, _ => true
  | .snapP, _ => true
  | .dramP, _ => true
  | .asterP, _ => true
  | .tbP, _ => true
  | .hostP, _ => true
  | .guardP, _ => true
  | .curP, _ => true
  | .asrcP, _ => true
  | .irisP, _ => true
  | .spkcP, _ => true
  | .stP, i => i == 0
  | _, _ => false

/-- Pages whose CTRL.EN reads 1 and ignores writes. -/
def pageEnFixed : PageKind → Bool
  | .sysP => true
  | .rstP => true
  | .clkpwrP => true
  | .fuseP => true
  | .fgP => true
  | .mtxP => true
  | .bankP => true
  | .snapP => true
  | .dramP => true
  | .asterP => true
  | .tbP => true
  | .guardP => true
  | .irisP => true
  | .spkcP => true
  | _ => false

/-- Access codes of R8; ERR_CODE's WC stands in the header's own rule. -/
inductive Access where
  | rw | ro | wo | w1c | w1s
deriving DecidableEq, Repr

/-- One row of a register table: `n` registers at `off`, `off + stride`, …, their access code, the bits a write
reaches, and their Reset value (0 where the table says U or F: log entry 1). -/
structure RegRow where
  off    : Nat
  n      : Nat
  stride : Nat
  acc    : Access
  mask   : Word
  reset  : Word
deriving DecidableEq, Repr

/-- The register table of SYS. -/
def rowsSYS : List RegRow := [
  ⟨0x040, 1, 4, .rw, 0x00000001, 0x00000000⟩,
  ⟨0x044, 1, 4, .ro, 0x000001FF, 0x00000000⟩,
  ⟨0x048, 1, 4, .rw, 0x0000FF1F, 0x00000000⟩,
  ⟨0x04C, 1, 4, .ro, 0x0000FFFF, 0x00000000⟩,
  ⟨0x050, 1, 4, .rw, 0x0000FFFF, 0x00000550⟩,
  ⟨0x054, 1, 4, .ro, 0xFFFFFFFF, 0x00000000⟩,
  ⟨0x058, 1, 4, .ro, 0xFFFFFFFF, 0x00000000⟩]

/-- The register table of RST. -/
def rowsRST : List RegRow := [
  ⟨0x040, 1, 4, .ro, 0x0000013F, 0x00000000⟩,
  ⟨0x044, 1, 4, .wo, 0xFFFF0003, 0x00000000⟩,
  ⟨0x048, 1, 4, .w1c, 0x00001FFF, 0x00000000⟩,
  ⟨0x04C, 1, 4, .rw, 0x000000FF, 0x00000000⟩,
  ⟨0x050, 1, 4, .rw, 0x0000FFFF, 0x00001000⟩,
  ⟨0x054, 1, 4, .ro, 0x000003FF, 0x00000000⟩,
  ⟨0x058, 1, 4, .wo, 0xFFFF0001, 0x00000000⟩,
  ⟨0x05C, 1, 4, .ro, 0xFFFFFFFF, 0x00000000⟩]

/-- The register table of CLKPWR. -/
def rowsCLKPWR : List RegRow := [
  ⟨0x040, 1, 4, .rw, 0x00000003, 0x00000000⟩,
  ⟨0x044, 1, 4, .ro, 0x00000007, 0x00000000⟩,
  ⟨0x048, 1, 4, .ro, 0x0000FF07, 0x00000000⟩,
  ⟨0x04C, 1, 4, .rw, 0x00000001, 0x00000000⟩,
  ⟨0x050, 1, 4, .w1c, 0x00000007, 0x00000000⟩,
  ⟨0x060, 4, 4, .rw, 0xFFFFFFFF, 0x00000000⟩]

/-- The register table of FUSE. -/
def rowsFUSE : List RegRow := [
  ⟨0x040, 1, 4, .ro, 0xFFFF0F07, 0x00000000⟩,
  ⟨0x044, 1, 4, .ro, 0xFFFFFFFF, 0x00000000⟩,
  ⟨0x048, 1, 4, .ro, 0x0000FF03, 0x00000000⟩,
  ⟨0x04C, 1, 4, .ro, 0xFFFFFFFF, 0x00000000⟩,
  ⟨0x050, 1, 4, .ro, 0x0000FFFF, 0x00000000⟩,
  ⟨0x060, 8, 4, .ro, 0xFFFFFFFF, 0x00000000⟩,
  ⟨0x080, 1, 4, .rw, 0x0000000F, 0x00000000⟩,
  ⟨0x084, 1, 4, .rw, 0xFFFFFFFF, 0x00000000⟩,
  ⟨0x088, 1, 4, .wo, 0xFFFF0001, 0x00000000⟩,
  ⟨0x08C, 1, 4, .ro, 0x00000003, 0x00000000⟩]

/-- The register table of FG. -/
def rowsFG : List RegRow := [
  ⟨0x040, 1, 4, .ro, 0x000000FF, 0x00000038⟩,
  ⟨0x044, 1, 4, .ro, 0x0000001F, 0x00000001⟩,
  ⟨0x048, 1, 4, .ro, 0xFFFF000F, 0x00000000⟩,
  ⟨0x04C, 1, 4, .wo, 0xFFFF001F, 0x00000000⟩,
  ⟨0x050, 1, 4, .rw, 0x000101FF, 0x000000FF⟩,
  ⟨0x054, 1, 4, .rw, 0x000007FF, 0x00000068⟩,
  ⟨0x058, 1, 4, .w1c, 0x0000001F, 0x00000001⟩,
  ⟨0x05C, 1, 4, .ro, 0x00000003, 0x00000000⟩,
  ⟨0x060, 1, 4, .ro, 0xFFFFFFFF, 0x00000000⟩,
  ⟨0x064, 1, 4, .ro, 0xFFFFFFFF, 0x00000000⟩,
  ⟨0x068, 1, 4, .ro, 0x0000FFFF, 0x00000000⟩,
  ⟨0x06C, 1, 4, .wo, 0x00000001, 0x00000000⟩]

/-- The register table of HUB. -/
def rowsHUB : List RegRow := [
  ⟨0x040, 3, 16, .ro, 0x80FF00FF, 0x80000000⟩,
  ⟨0x044, 3, 16, .wo, 0x000000FF, 0x00000000⟩,
  ⟨0x048, 3, 16, .rw, 0x0000000F, 0x00000000⟩,
  ⟨0x04C, 3, 16, .ro, 0xFFFFFFFF, 0x00000000⟩,
  ⟨0x070, 1, 4, .wo, 0x000000FF, 0x00000000⟩,
  ⟨0x074, 1, 4, .rw, 0x0000FFFF, 0x00000000⟩,
  ⟨0x078, 1, 4, .ro, 0x0000FFFF, 0x00000000⟩,
  ⟨0x080, 8, 4, .ro, 0xFFFFFFFF, 0x00000000⟩,
  ⟨0x0A0, 8, 4, .ro, 0xFFFFFFFF, 0x00000000⟩,
  ⟨0x0C0, 8, 4, .ro, 0xFFFFFFFF, 0x00000000⟩,
  ⟨0x400, 256, 4, .rw, 0x0000F11F, 0x00000000⟩,
  ⟨0x800, 256, 8, .ro, 0xFFFFFFFF, 0x00000000⟩,
  ⟨0x804, 256, 8, .ro, 0xFFFFFFFF, 0x00000000⟩]

/-- The register table of MTX. -/
def rowsMTX : List RegRow := [
  ⟨0x040, 15, 4, .rw, 0x0000000F, 0x00000000⟩,
  ⟨0x080, 15, 4, .ro, 0x000101FF, 0x00000000⟩,
  ⟨0x0C0, 13, 4, .ro, 0xFFFFFFFF, 0x00000000⟩,
  ⟨0x100, 13, 4, .ro, 0x0000FFFF, 0x00000000⟩,
  ⟨0x140, 1, 4, .wo, 0x00000001, 0x00000000⟩,
  ⟨0x144, 1, 4, .ro, 0xFFFFFFFF, 0x00000000⟩,
  ⟨0x148, 1, 4, .ro, 0x000000FF, 0x00000000⟩,
  ⟨0x14C, 1, 4, .ro, 0xFFFFFFFF, 0x00000000⟩,
  ⟨0x150, 1, 4, .ro, 0xFFFFFFFF, 0x00000000⟩,
  ⟨0x154, 1, 4, .ro, 0x03FF03FF, 0x00000000⟩]

/-- The register table of BANK. -/
def rowsBANK : List RegRow := [
  ⟨0x040, 4, 4, .rw, 0xFFFFFFFF, 0x00000000⟩,
  ⟨0x050, 4, 4, .ro, 0xFFFFFFFF, 0x00000000⟩,
  ⟨0x060, 2, 4, .ro, 0xFFFFFFFF, 0x00000000⟩,
  ⟨0x068, 1, 4, .rw, 0x00000003, 0x00000000⟩,
  ⟨0x06C, 1, 4, .ro, 0x00003F07, 0x00000000⟩,
  ⟨0x070, 2, 4, .rw, 0xFFFFFFFF, 0x00000000⟩,
  ⟨0x078, 2, 4, .ro, 0xFFFFFFFF, 0x00000000⟩,
  ⟨0x080, 1, 4, .ro, 0x0007FFFF, 0x00000000⟩,
  ⟨0x0C0, 8, 4, .ro, 0xFFFFFFFF, 0x00000000⟩,
  ⟨0x0E0, 1, 4, .wo, 0x000000FF, 0x00000000⟩]

/-- The register table of QF. -/
def rowsQF : List RegRow := [
  ⟨0x040, 1, 4, .rw, 0x000003FF, 0x00000000⟩,
  ⟨0x044, 1, 4, .wo, 0x0000000F, 0x00000000⟩,
  ⟨0x048, 1, 4, .ro, 0x0000000F, 0x00000000⟩,
  ⟨0x060, 1, 4, .rw, 0x000F7FFF, 0x00000000⟩,
  ⟨0x064, 1, 4, .rw, 0xFF0FFF0F, 0x00000000⟩,
  ⟨0x068, 1, 4, .rw, 0x037FFFFF, 0x00000000⟩,
  ⟨0x06C, 1, 4, .rw, 0x3DFFFFE0, 0x00000000⟩,
  ⟨0x070, 1, 4, .ro, 0xFFFFFFFF, 0x00000000⟩,
  ⟨0x074, 1, 4, .ro, 0xFFFFFFFF, 0x00000000⟩,
  ⟨0x078, 1, 4, .ro, 0xFFFFFFFF, 0x00000000⟩,
  ⟨0x07C, 1, 4, .ro, 0xFFFFFFFF, 0x00000000⟩,
  ⟨0x080, 1, 4, .ro, 0x0001FFFF, 0x00000000⟩,
  ⟨0x084, 1, 4, .ro, 0xFFFFFFFF, 0x00000000⟩,
  ⟨0x088, 1, 4, .ro, 0xFFFFFFFF, 0x00000000⟩,
  ⟨0x08C, 1, 4, .ro, 0xFFFFFFFF, 0x00000000⟩,
  ⟨0x100, 32, 4, .w1c, 0xFFFFFFFF, 0x00000000⟩]

/-- The register table of TICK. -/
def rowsTICK : List RegRow := [
  ⟨0x040, 1, 4, .rw, 0x00000377, 0x00000023⟩,
  ⟨0x044, 1, 4, .rw, 0xFFFFFFFF, 0x00000000⟩,
  ⟨0x048, 1, 4, .ro, 0xFFFFFFFF, 0x00000000⟩,
  ⟨0x04C, 1, 4, .ro, 0x0000FFFF, 0x00000000⟩,
  ⟨0x050, 1, 4, .rw, 0xFFFFFFFF, 0x00000000⟩,
  ⟨0x054, 1, 4, .rw, 0x0000FFFF, 0x00000000⟩,
  ⟨0x058, 1, 4, .ro, 0x000FFFFF, 0x00000000⟩,
  ⟨0x05C, 1, 4, .ro, 0xFFFFFFFF, 0x00000000⟩,
  ⟨0x060, 1, 4, .ro, 0x000FFFFF, 0x000FFFFF⟩,
  ⟨0x064, 1, 4, .ro, 0x000FFFFF, 0x00000000⟩,
  ⟨0x068, 1, 4, .wo, 0x00000001, 0x00000000⟩,
  ⟨0x06C, 1, 4, .ro, 0x003FFFFF, 0x00000000⟩,
  ⟨0x070, 1, 4, .ro, 0xFFFFFFFF, 0x00000000⟩,
  ⟨0x074, 1, 4, .rw, 0x000FFFFF, 0x00000000⟩,
  ⟨0x078, 1, 4, .rw, 0x000FFFFF, 0x00000000⟩,
  ⟨0x07C, 1, 4, .rw, 0x00000003, 0x00000000⟩,
  ⟨0x080, 1, 4, .rw, 0xFFFFFFC0, 0x00000000⟩,
  ⟨0x084, 1, 4, .ro, 0x00000003, 0x00000000⟩,
  ⟨0x088, 1, 4, .ro, 0xFFFFFFFF, 0x00000000⟩,
  ⟨0x08C, 1, 4, .ro, 0xFFFFFFFF, 0x00000000⟩,
  ⟨0x090, 1, 4, .ro, 0xFFFFFFFF, 0x00000000⟩]

/-- The register table of SNAP. -/
def rowsSNAP : List RegRow := [
  ⟨0x040, 1, 4, .rw, 0x00000003, 0x00000000⟩,
  ⟨0x044, 1, 4, .rw, 0xFFFFFFFF, 0xFFFFFFFF⟩,
  ⟨0x048, 1, 4, .rw, 0xFFFFFFFF, 0x00000000⟩,
  ⟨0x04C, 1, 4, .rw, 0x0000FFFF, 0x00000000⟩,
  ⟨0x050, 1, 4, .wo, 0x00000F0F, 0x00000000⟩,
  ⟨0x054, 1, 4, .ro, 0x00000007, 0x00000000⟩,
  ⟨0x058, 1, 4, .ro, 0xFFFFFFFF, 0x00000000⟩,
  ⟨0x05C, 1, 4, .ro, 0xFFFFFFFF, 0x00000000⟩,
  ⟨0x060, 1, 4, .ro, 0x0000FFFF, 0x00000000⟩,
  ⟨0x064, 1, 4, .ro, 0xFFFFFFFF, 0x00000000⟩,
  ⟨0x068, 1, 4, .rw, 0xFFFFFFFF, 0x00000000⟩,
  ⟨0x06C, 1, 4, .rw, 0xFFFFFFFF, 0x00000000⟩,
  ⟨0x070, 1, 4, .rw, 0x0000FFFF, 0x00000000⟩,
  ⟨0x074, 1, 4, .rw, 0x00000FFF, 0x00000000⟩,
  ⟨0x078, 1, 4, .ro, 0xFFFFFFFF, 0x00000000⟩,
  ⟨0x100, 32, 8, .rw, 0x07FF1FFF, 0x00000000⟩,
  ⟨0x104, 32, 8, .ro, 0x00001FFF, 0x00000000⟩]

/-- The register table of PATCH. -/
def rowsPATCH : List RegRow := [
  ⟨0x040, 1, 4, .rw, 0x00000FFF, 0x00000000⟩,
  ⟨0x044, 1, 4, .ro, 0x3FFF0FFF, 0x00000000⟩,
  ⟨0x048, 1, 4, .ro, 0x000003FF, 0x00000000⟩,
  ⟨0x04C, 1, 4, .ro, 0xFFFFFFFF, 0x00000000⟩,
  ⟨0x100, 8, 16, .rw, 0x00000007, 0x00000000⟩,
  ⟨0x104, 8, 16, .rw, 0xFFFFFFFF, 0x00000000⟩,
  ⟨0x108, 8, 16, .rw, 0xFFFFFFFF, 0x00000000⟩,
  ⟨0x10C, 8, 16, .wo, 0xFFFFFFFF, 0x00000000⟩,
  ⟨0x200, 128, 8, .rw, 0x801F03FF, 0x00000000⟩,
  ⟨0x204, 128, 8, .rw, 0x000003FF, 0x00000000⟩,
  ⟨0x600, 128, 8, .rw, 0x801F03FF, 0x00000000⟩,
  ⟨0x604, 128, 8, .rw, 0x000003FF, 0x00000000⟩]

/-- The register table of DMIX. -/
def rowsDMIX : List RegRow := [
  ⟨0x040, 1, 4, .rw, 0x00003F01, 0x00000001⟩,
  ⟨0x044, 1, 4, .w1c, 0xFFFFFFFF, 0x00000000⟩,
  ⟨0x048, 1, 4, .ro, 0xFFFFFFFF, 0x00000000⟩,
  ⟨0x04C, 1, 4, .rw, 0x00001F3F, 0x00000000⟩,
  ⟨0x050, 1, 4, .ro, 0xFFFFFFFF, 0x00000000⟩,
  ⟨0x054, 1, 4, .ro, 0x00000001, 0x00000000⟩,
  ⟨0x100, 64, 4, .rw, 0x0000F1F1, 0x00000000⟩,
  ⟨0x200, 32, 4, .rw, 0x0000F1F1, 0x00000000⟩]

/-- The register table of DRAM. -/
def rowsDRAM : List RegRow := [
  ⟨0x040, 1, 4, .rw, 0x000F0133, 0x00080022⟩,
  ⟨0x044, 1, 4, .rw, 0x03FF03FF, 0x008C0118⟩,
  ⟨0x048, 1, 4, .rw, 0x00001FFF, 0x00000F42⟩,
  ⟨0x04C, 1, 4, .wo, 0x0000000F, 0x00000000⟩,
  ⟨0x050, 1, 4, .ro, 0x0000FF1F, 0x00000000⟩,
  ⟨0x054, 1, 4, .ro, 0x0001031F, 0x00000000⟩,
  ⟨0x058, 1, 4, .rw, 0x00FF00FF, 0x00040020⟩,
  ⟨0x05C, 1, 4, .ro, 0xFFFFFFFF, 0x00000000⟩,
  ⟨0x060, 1, 4, .ro, 0xFFFFFFFF, 0x00000000⟩,
  ⟨0x064, 1, 4, .ro, 0xFFFFFFFF, 0x00000000⟩,
  ⟨0x068, 1, 4, .ro, 0xFFFFFFFF, 0x00000000⟩,
  ⟨0x06C, 1, 4, .ro, 0xFFFFFFFF, 0x00000000⟩,
  ⟨0x070, 1, 4, .rw, 0x00000FFF, 0x000003E8⟩,
  ⟨0x074, 1, 4, .wo, 0x00000001, 0x00000000⟩]

/-- The register table of ASTER. -/
def rowsASTER : List RegRow := [
  ⟨0x040, 1, 4, .rw, 0x00003377, 0x00001142⟩,
  ⟨0x044, 1, 4, .rw, 0x00FF0FFF, 0x000A0064⟩,
  ⟨0x048, 1, 4, .rw, 0x00FFFFFF, 0x00080064⟩,
  ⟨0x04C, 1, 4, .rw, 0x000003FF, 0x0000000A⟩,
  ⟨0x050, 1, 4, .rw, 0x0000010F, 0x00000000⟩,
  ⟨0x054, 1, 4, .ro, 0x03FFFF1F, 0x0300FF00⟩,
  ⟨0x058, 1, 4, .w1c, 0x0000031F, 0x00000001⟩,
  ⟨0x05C, 1, 4, .ro, 0x0FFF0FFF, 0x00000000⟩,
  ⟨0x060, 1, 4, .ro, 0xFFFFFFFF, 0x00000000⟩,
  ⟨0x064, 1, 4, .ro, 0xFFFFFFFF, 0x00000000⟩,
  ⟨0x068, 1, 4, .ro, 0xFFFFFFFF, 0x00000000⟩,
  ⟨0x06C, 1, 4, .wo, 0x00000003, 0x00000000⟩,
  ⟨0x080, 12, 4, .rw, 0x000FFFF3, 0x00000000⟩,
  ⟨0x0C0, 12, 4, .rw, 0x0003FFFF, 0x00000000⟩,
  ⟨0x100, 12, 4, .ro, 0xFFFFFFFF, 0x00000000⟩,
  ⟨0x140, 2, 4, .rw, 0x0000001F, 0x00000000⟩,
  ⟨0x148, 2, 4, .rw, 0x0000000F, 0x00000000⟩,
  ⟨0x150, 1, 4, .rw, 0x0000FF01, 0x00006400⟩,
  ⟨0x154, 1, 4, .rw, 0x0000FF17, 0x00000100⟩,
  ⟨0x158, 1, 4, .rw, 0xFFFFFFFF, 0x00000000⟩,
  ⟨0x15C, 1, 4, .ro, 0x00000003, 0x00000000⟩,
  ⟨0x160, 1, 4, .rw, 0xFFFFFF03, 0x00000000⟩,
  ⟨0x164, 1, 4, .rw, 0x0000FFFF, 0x00000004⟩,
  ⟨0x168, 1, 4, .ro, 0xFFFFFFFF, 0x00000000⟩]

/-- The register table of TB. -/
def rowsTB : List RegRow := [
  ⟨0x040, 1, 4, .rw, 0xFFFFFFFF, 0x00000000⟩,
  ⟨0x044, 1, 4, .rw, 0x0000000F, 0x00000002⟩,
  ⟨0x048, 1, 4, .ro, 0xFFFFFFFF, 0x00000000⟩,
  ⟨0x04C, 1, 4, .ro, 0xFFFFFFFF, 0x00000000⟩,
  ⟨0x050, 1, 4, .ro, 0xFFFFFFFF, 0x00000000⟩,
  ⟨0x054, 1, 4, .ro, 0x0000FFFF, 0x00000000⟩,
  ⟨0x058, 1, 4, .ro, 0xFFFFFFFF, 0x00000000⟩,
  ⟨0x05C, 1, 4, .ro, 0xFFFFFFFF, 0x00000000⟩,
  ⟨0x060, 1, 4, .ro, 0xFFFFFFFF, 0x00000000⟩,
  ⟨0x064, 1, 4, .ro, 0xFFFFFFFF, 0x00000000⟩,
  ⟨0x068, 1, 4, .rw, 0xFFFFFFFF, 0x00000000⟩,
  ⟨0x06C, 1, 4, .rw, 0x0000FFFF, 0x00000000⟩,
  ⟨0x070, 1, 4, .rw, 0xFFFFFFFF, 0x00000000⟩,
  ⟨0x074, 1, 4, .wo, 0x00000003, 0x00000000⟩,
  ⟨0x078, 1, 4, .ro, 0x00000001, 0x00000000⟩,
  ⟨0x07C, 1, 4, .ro, 0xFFFFFFFF, 0x00000000⟩,
  ⟨0x080, 1, 4, .ro, 0xFFFFFFFF, 0x00000000⟩,
  ⟨0x084, 1, 4, .ro, 0xFFFFFFFF, 0x00000000⟩,
  ⟨0x088, 1, 4, .ro, 0xFFFFFFFF, 0x00000000⟩,
  ⟨0x08C, 1, 4, .ro, 0xFFFFFFFF, 0x00000000⟩,
  ⟨0x090, 1, 4, .ro, 0x0000FFFF, 0x00000000⟩,
  ⟨0x094, 1, 4, .ro, 0xFFFFFFFF, 0x00000000⟩]

/-- The register table of JACK. -/
def rowsJACK : List RegRow := [
  ⟨0x040, 1, 4, .rw, 0x001FFFFF, 0x0000140A⟩,
  ⟨0x044, 1, 4, .rw, 0x03FF03FF, 0x02C00030⟩,
  ⟨0x048, 1, 4, .rw, 0x03FF03FF, 0x02E00100⟩,
  ⟨0x04C, 1, 4, .rw, 0x03FF03FF, 0x00800040⟩,
  ⟨0x050, 1, 4, .rw, 0x03FF03FF, 0x00F800C0⟩,
  ⟨0x054, 2, 4, .ro, 0x03FF00FF, 0x00000000⟩,
  ⟨0x05C, 1, 4, .ro, 0xC000017F, 0x00000000⟩,
  ⟨0x060, 1, 4, .ro, 0xFFFFFFFF, 0x00000000⟩,
  ⟨0x064, 1, 4, .rw, 0x0000FF0F, 0x00000000⟩,
  ⟨0x068, 1, 4, .ro, 0x800003FF, 0x00000000⟩,
  ⟨0x06C, 1, 4, .wo, 0x00000003, 0x00000000⟩]

/-- The register table of ST. -/
def rowsST : List RegRow := [
  ⟨0x040, 1, 4, .rw, 0x00000000, 0x00000000⟩,
  ⟨0x044, 1, 4, .ro, 0x0000000F, 0x00000000⟩,
  ⟨0x048, 1, 4, .ro, 0xFFFFFFFF, 0x00000000⟩,
  ⟨0x04C, 1, 4, .rw, 0xFFFFFFF0, 0x00000000⟩,
  ⟨0x050, 1, 4, .rw, 0x00000003, 0x00000000⟩,
  ⟨0x054, 1, 4, .rw, 0x000FFFFF, 0x00001000⟩,
  ⟨0x058, 1, 4, .rw, 0x80FFFFFF, 0x00000000⟩,
  ⟨0x05C, 1, 4, .wo, 0xFFFFFFFF, 0x00000000⟩,
  ⟨0x060, 1, 4, .ro, 0xFFFFFFFF, 0x00000000⟩,
  ⟨0x064, 1, 4, .rw, 0x000000FF, 0x00000000⟩,
  ⟨0x068, 1, 4, .rw, 0xFFFFFFFF, 0x00000000⟩,
  ⟨0x06C, 1, 4, .rw, 0xFFFFFFFF, 0x00000000⟩,
  ⟨0x070, 1, 4, .rw, 0x0000FFFF, 0x00000000⟩,
  ⟨0x080, 1, 4, .rw, 0xFFFFFFF1, 0x00000000⟩]

/-- The register table of HOST. -/
def rowsHOST : List RegRow := [
  ⟨0x040, 1, 4, .rw, 0x000000FF, 0x00000000⟩,
  ⟨0x044, 1, 4, .ro, 0xFFFFFFFF, 0x00000000⟩,
  ⟨0x048, 1, 4, .wo, 0xFFFFFFFF, 0x00000000⟩,
  ⟨0x04C, 1, 4, .ro, 0x001F001F, 0x00000000⟩,
  ⟨0x050, 1, 4, .ro, 0xFFFFFFFF, 0x00000000⟩]

/-- The register table of BOOTQ. -/
def rowsBOOTQ : List RegRow := [
  ⟨0x040, 1, 4, .rw, 0x0000000F, 0x00000003⟩,
  ⟨0x044, 1, 4, .rw, 0x0000FFFF, 0x00000000⟩,
  ⟨0x048, 1, 4, .rw, 0xFFFFFFFF, 0x00000000⟩,
  ⟨0x04C, 1, 4, .rw, 0x00FFFFFF, 0x00000000⟩,
  ⟨0x050, 1, 4, .rw, 0xFFFFFFFF, 0x00000000⟩,
  ⟨0x054, 1, 4, .ro, 0x00007F01, 0x00000000⟩]

/-- The register table of GUARD. -/
def rowsGUARD : List RegRow := [
  ⟨0x040, 1, 4, .wo, 0xFFFF0001, 0x00000000⟩,
  ⟨0x044, 1, 4, .ro, 0x00000007, 0x00000000⟩,
  ⟨0x048, 1, 4, .ro, 0xFFFFFFFF, 0x00000000⟩,
  ⟨0x04C, 1, 4, .rw, 0x0000007F, 0x00000014⟩,
  ⟨0x050, 1, 4, .rw, 0x000003FF, 0x00000000⟩,
  ⟨0x054, 1, 4, .ro, 0x00000F77, 0x00000000⟩,
  ⟨0x058, 1, 4, .ro, 0x0000FFFF, 0x00000000⟩,
  ⟨0x100, 17, 4, .w1c, 0xFFFFFFFF, 0x00000000⟩,
  ⟨0x180, 17, 4, .ro, 0xFFFFFFFF, 0x00000000⟩,
  ⟨0x400, 536, 4, .rw, 0x1FFFFFFF, 0x1B280000⟩]

/-- The register table of CUR. -/
def rowsCUR : List RegRow := [
  ⟨0x040, 1, 4, .w1c, 0xFFFFFFFF, 0x00000000⟩,
  ⟨0x044, 1, 4, .w1s, 0xFFFFFFFF, 0x00000000⟩,
  ⟨0x048, 1, 4, .ro, 0xFFFFFFFF, 0x00000000⟩,
  ⟨0x04C, 1, 4, .wo, 0x00000001, 0x00000000⟩,
  ⟨0x050, 1, 4, .ro, 0x01FF00FF, 0x00000000⟩,
  ⟨0x100, 8, 128, .rw, 0x000000F1, 0x00000000⟩,
  ⟨0x104, 8, 128, .wo, 0x00000003, 0x00000000⟩,
  ⟨0x108, 8, 128, .ro, 0xFFFFFFFF, 0x00000018⟩,
  ⟨0x10C, 8, 128, .rw, 0x01FFFFF8, 0x00000000⟩,
  ⟨0x110, 8, 128, .ro, 0x01FFFFF8, 0x00000000⟩,
  ⟨0x114, 8, 128, .ro, 0xFFFFFFFF, 0x00000000⟩,
  ⟨0x118, 8, 128, .rw, 0xFFFFFF00, 0x00000000⟩,
  ⟨0x11C, 8, 128, .rw, 0x000000FF, 0x00000000⟩,
  ⟨0x120, 8, 128, .rw, 0x0000001F, 0x00000000⟩,
  ⟨0x124, 8, 128, .ro, 0x000000FF, 0x00000000⟩,
  ⟨0x128, 8, 128, .ro, 0xFFFFFFFF, 0x00000000⟩,
  ⟨0x12C, 8, 128, .ro, 0x000000FF, 0x00000000⟩,
  ⟨0x130, 8, 128, .ro, 0xFFFFFFFF, 0x00000000⟩,
  ⟨0x140, 8, 128, .rw, 0xFFFFFFFF, 0x00000000⟩,
  ⟨0x148, 8, 128, .rw, 0xFFFFFFFF, 0x00000000⟩,
  ⟨0x150, 8, 128, .rw, 0xFFFFFFFF, 0x00000000⟩,
  ⟨0x158, 8, 128, .rw, 0xFFFFFFFF, 0x00000000⟩,
  ⟨0x160, 8, 128, .rw, 0xFFFFFFFF, 0x00000000⟩,
  ⟨0x168, 8, 128, .rw, 0xFFFFFFFF, 0x00000000⟩,
  ⟨0x170, 8, 128, .rw, 0xFFFFFFFF, 0x00000000⟩,
  ⟨0x178, 8, 128, .rw, 0xFFFFFFFF, 0x00000000⟩,
  ⟨0x144, 8, 128, .rw, 0x000000FF, 0x00000000⟩,
  ⟨0x14C, 8, 128, .rw, 0x000000FF, 0x00000000⟩,
  ⟨0x154, 8, 128, .rw, 0x000000FF, 0x00000000⟩,
  ⟨0x15C, 8, 128, .rw, 0x000000FF, 0x00000000⟩,
  ⟨0x164, 8, 128, .rw, 0x000000FF, 0x00000000⟩,
  ⟨0x16C, 8, 128, .rw, 0x000000FF, 0x00000000⟩,
  ⟨0x174, 8, 128, .rw, 0x000000FF, 0x00000000⟩,
  ⟨0x17C, 8, 128, .rw, 0x000000FF, 0x00000000⟩]

/-- The register table of SAP. -/
def rowsSAP : List RegRow := [
  ⟨0x040, 1, 4, .rw, 0x000FFF7F, 0x00080000⟩,
  ⟨0x044, 1, 4, .rw, 0xFFFFFFFF, 0x00000000⟩,
  ⟨0x048, 1, 4, .rw, 0xFFFFFFFF, 0x00000000⟩,
  ⟨0x04C, 1, 4, .ro, 0xFFFFFFFF, 0x00000000⟩,
  ⟨0x050, 1, 4, .ro, 0xFFFFFFFF, 0x00000000⟩,
  ⟨0x054, 1, 4, .rw, 0x000303FF, 0x00000000⟩,
  ⟨0x058, 1, 4, .rw, 0xFFFFFFFF, 0x00000000⟩,
  ⟨0x05C, 1, 4, .rw, 0x000103FF, 0x00000000⟩,
  ⟨0x060, 1, 4, .rw, 0xFFFFFFFF, 0x00000000⟩,
  ⟨0x064, 1, 4, .rw, 0x00003F01, 0x00000001⟩,
  ⟨0x068, 1, 4, .ro, 0x0000000F, 0x00000000⟩,
  ⟨0x06C, 1, 4, .ro, 0xFFFFFFFF, 0x00000000⟩,
  ⟨0x070, 1, 4, .ro, 0xFFFFFFFF, 0x00000000⟩,
  ⟨0x074, 1, 4, .ro, 0x0000FFFF, 0x00000000⟩,
  ⟨0x078, 1, 4, .w1c, 0x0000FFFF, 0x00000000⟩,
  ⟨0x07C, 1, 4, .ro, 0xFFFFFFFF, 0x00000000⟩,
  ⟨0x080, 1, 4, .ro, 0xFFFFFFFF, 0x00000000⟩,
  ⟨0x084, 1, 4, .ro, 0xFFFFFFFF, 0x00000000⟩,
  ⟨0x088, 1, 4, .ro, 0xFFFFFFFF, 0x00000000⟩,
  ⟨0x08C, 1, 4, .ro, 0x0000FFFF, 0x00000000⟩,
  ⟨0x100, 32, 4, .rw, 0xFFFFFFFF, 0x10000000⟩]

/-- The register table of AES. -/
def rowsAES : List RegRow := [
  ⟨0x040, 1, 4, .rw, 0x0000003F, 0x00000028⟩,
  ⟨0x044, 1, 4, .ro, 0x03FFFF0F, 0x00000000⟩,
  ⟨0x048, 1, 4, .rw, 0x000303FF, 0x00000000⟩,
  ⟨0x04C, 1, 4, .rw, 0x000103FF, 0x00000000⟩,
  ⟨0x050, 1, 4, .rw, 0x00003F01, 0x00000001⟩,
  ⟨0x054, 1, 4, .rw, 0xFFFFFFFF, 0x10000000⟩,
  ⟨0x058, 1, 4, .rw, 0xFFFFFFFF, 0x10000000⟩,
  ⟨0x05C, 1, 4, .ro, 0x0000FFFF, 0x00000000⟩,
  ⟨0x060, 1, 4, .ro, 0xFFFFFFFF, 0x00000000⟩,
  ⟨0x064, 1, 4, .ro, 0xFFFFFFFF, 0x00000000⟩,
  ⟨0x068, 1, 4, .ro, 0xFFFFFFFF, 0x00000000⟩,
  ⟨0x06C, 1, 4, .ro, 0xFFFFFFFF, 0x00000000⟩,
  ⟨0x070, 1, 4, .ro, 0xFFFFFFFF, 0x00000000⟩,
  ⟨0x074, 1, 4, .wo, 0x00000001, 0x00000000⟩,
  ⟨0x078, 1, 4, .rw, 0x00000003, 0x00000000⟩,
  ⟨0x080, 6, 4, .ro, 0xFFFFFFFF, 0x00000000⟩,
  ⟨0x098, 6, 4, .ro, 0xFFFFFFFF, 0x00000000⟩,
  ⟨0x0B0, 6, 4, .ro, 0xFFFFFFFF, 0x00000000⟩,
  ⟨0x0C8, 6, 4, .ro, 0xFFFFFFFF, 0x00000000⟩,
  ⟨0x100, 6, 4, .rw, 0xFFFFFFFF, 0x00000000⟩,
  ⟨0x118, 6, 4, .rw, 0xFFFFFFFF, 0x00000000⟩,
  ⟨0x130, 6, 4, .rw, 0xFFFFFFFF, 0x00000000⟩,
  ⟨0x148, 6, 4, .rw, 0xFFFFFFFF, 0x00000000⟩]

/-- The register table of ASRC. -/
def rowsASRC : List RegRow := [
  ⟨0x040, 8, 16, .rw, 0x00031FF7, 0x00000000⟩,
  ⟨0x044, 8, 16, .rw, 0x000003FF, 0x00000000⟩,
  ⟨0x048, 8, 16, .ro, 0x00000007, 0x00000000⟩,
  ⟨0x04C, 8, 16, .ro, 0xFFFFFFFF, 0x00000000⟩]

/-- The register table of MEC. -/
def rowsMEC : List RegRow := [
  ⟨0x040, 1, 4, .rw, 0x00000001, 0x00000000⟩,
  ⟨0x044, 1, 4, .ro, 0x00FFF007, 0x00000000⟩,
  ⟨0x048, 1, 4, .rw, 0x00000FFF, 0x00000000⟩,
  ⟨0x04C, 1, 4, .rw, 0x000FFFFF, 0x00001000⟩,
  ⟨0x050, 1, 4, .w1c, 0x0000001F, 0x00000000⟩,
  ⟨0x054, 1, 4, .ro, 0x0000FFFF, 0x00000000⟩,
  ⟨0x060, 1, 4, .rw, 0x000000FF, 0x00000000⟩,
  ⟨0x064, 1, 4, .rw, 0xFFFFFFFF, 0x00000000⟩,
  ⟨0x068, 1, 4, .rw, 0xFFFFFFFF, 0x00000000⟩,
  ⟨0x06C, 1, 4, .rw, 0x0000FFFF, 0x00000000⟩,
  ⟨0x070, 1, 4, .ro, 0x000FFFFF, 0x00000000⟩,
  ⟨0x074, 1, 4, .ro, 0x000FFFFF, 0x00000000⟩,
  ⟨0x078, 1, 4, .ro, 0x000FFFFF, 0x00000000⟩,
  ⟨0x07C, 1, 4, .wo, 0x00000001, 0x00000000⟩,
  ⟨0x080, 1, 4, .rw, 0x80000FFF, 0x00000000⟩]

/-- The register table of LANE. -/
def rowsLANE : List RegRow := [
  ⟨0x040, 1, 4, .rw, 0x0000003F, 0x00000001⟩,
  ⟨0x044, 1, 4, .ro, 0x0000007F, 0x00000040⟩,
  ⟨0x048, 1, 4, .w1c, 0x0000000F, 0x00000000⟩,
  ⟨0x04C, 1, 4, .wo, 0x00000007, 0x00000000⟩,
  ⟨0x050, 1, 4, .rw, 0x001F0F0F, 0x00100300⟩,
  ⟨0x054, 1, 4, .ro, 0xFFFFFFFF, 0x00000000⟩,
  ⟨0x058, 1, 4, .ro, 0xFFFFFFFF, 0x00000000⟩,
  ⟨0x05C, 1, 4, .ro, 0x0000007F, 0x00000000⟩,
  ⟨0x060, 1, 4, .ro, 0xFFFFFFFF, 0x00000000⟩,
  ⟨0x064, 1, 4, .ro, 0x0000FFFF, 0x00000000⟩]

/-- The register table of IRIS. -/
def rowsIRIS : List RegRow := [
  ⟨0x040, 1, 4, .rw, 0x00003F0F, 0x00001400⟩,
  ⟨0x044, 1, 4, .rw, 0x000F3F3F, 0x00001F20⟩,
  ⟨0x048, 1, 4, .rw, 0x003FFFFF, 0x00007F81⟩,
  ⟨0x04C, 1, 4, .wo, 0x00000003, 0x00000000⟩,
  ⟨0x050, 1, 4, .ro, 0xFFFF0007, 0x00000000⟩,
  ⟨0x054, 1, 4, .ro, 0xFFFFFFFF, 0x00000000⟩,
  ⟨0x058, 1, 4, .ro, 0x000001FF, 0x00000000⟩,
  ⟨0x05C, 1, 4, .ro, 0x0000FFFF, 0x00000000⟩]

/-- The register table of ETH. -/
def rowsETH : List RegRow := [
  ⟨0x040, 1, 4, .rw, 0x000007FE, 0x00000066⟩,
  ⟨0x044, 1, 4, .rw, 0x00003FFF, 0x000005F2⟩,
  ⟨0x048, 1, 4, .rw, 0xFFFFFFFF, 0x00000000⟩,
  ⟨0x04C, 1, 4, .rw, 0x0000FFFF, 0x00000000⟩,
  ⟨0x050, 1, 4, .rw, 0xFFFFFFFF, 0x00000000⟩,
  ⟨0x054, 1, 4, .rw, 0xFFFFFFFF, 0x00000000⟩,
  ⟨0x058, 1, 4, .ro, 0x0003FF0F, 0x00000000⟩,
  ⟨0x05C, 1, 4, .rw, 0xFFFFFFFF, 0x00000000⟩,
  ⟨0x060, 1, 4, .rw, 0x0000010F, 0x00000000⟩,
  ⟨0x064, 1, 4, .w1c, 0xFFFFFFFF, 0x00000000⟩,
  ⟨0x068, 1, 4, .rw, 0xFFFFFFFF, 0x00000000⟩,
  ⟨0x06C, 1, 4, .ro, 0x0000FFFF, 0x00000000⟩,
  ⟨0x080, 16, 8, .rw, 0xFFFFFFFF, 0x00000000⟩,
  ⟨0x084, 16, 8, .rw, 0x00000F07, 0x00000000⟩,
  ⟨0x100, 1, 4, .rw, 0x00000003, 0x00000002⟩,
  ⟨0x104, 1, 4, .rw, 0x000003FF, 0x00000000⟩,
  ⟨0x108, 1, 4, .rw, 0xFFFFFFFF, 0x00000000⟩,
  ⟨0x10C, 1, 4, .rw, 0xFFFFFFFF, 0x00000000⟩,
  ⟨0x110, 1, 4, .wo, 0x00000003, 0x00000000⟩,
  ⟨0x114, 1, 4, .rw, 0x000003FF, 0x00000000⟩,
  ⟨0x118, 1, 4, .rw, 0xFFFFFFFF, 0x00000000⟩,
  ⟨0x11C, 1, 4, .ro, 0x01FF00FF, 0x00000000⟩,
  ⟨0x200, 16, 32, .rw, 0xFFFFFFE0, 0x00000000⟩,
  ⟨0x204, 16, 32, .rw, 0x000000FF, 0x00000000⟩,
  ⟨0x208, 16, 32, .rw, 0x00170F01, 0x00000000⟩,
  ⟨0x20C, 16, 32, .rw, 0x00000FFF, 0x00000000⟩,
  ⟨0x210, 16, 32, .ro, 0x00000FFF, 0x00000000⟩,
  ⟨0x214, 16, 32, .ro, 0x0000000F, 0x00000000⟩,
  ⟨0x218, 16, 32, .ro, 0xFFFFFFFF, 0x00000000⟩,
  ⟨0x600, 1, 4, .ro, 0xFFFFFFFF, 0x00000000⟩,
  ⟨0x604, 1, 4, .ro, 0xFFFFFFFF, 0x00000000⟩,
  ⟨0x608, 1, 4, .ro, 0xFFFFFFFF, 0x00000000⟩,
  ⟨0x60C, 1, 4, .ro, 0xFFFFFFFF, 0x00000000⟩,
  ⟨0x610, 1, 4, .ro, 0xFFFFFFFF, 0x00000000⟩,
  ⟨0x614, 1, 4, .ro, 0xFFFFFFFF, 0x00000000⟩,
  ⟨0x618, 1, 4, .ro, 0xFFFFFFFF, 0x00000000⟩,
  ⟨0x61C, 1, 4, .ro, 0xFFFFFFFF, 0x00000000⟩,
  ⟨0x620, 1, 4, .ro, 0xFFFFFFFF, 0x00000000⟩,
  ⟨0x624, 1, 4, .wo, 0x00000001, 0x00000000⟩,
  ⟨0x800, 1, 4, .rw, 0x000000F3, 0x00000000⟩,
  ⟨0x804, 1, 4, .w1c, 0x000000F3, 0x00000000⟩,
  ⟨0x840, 16, 4, .rw, 0xFFFFFFFF, 0x00000000⟩,
  ⟨0x890, 16, 4, .rw, 0xFFFFFFFF, 0x00000000⟩,
  ⟨0x8E0, 16, 4, .rw, 0xFFFFFFFF, 0x00000000⟩,
  ⟨0x930, 16, 4, .rw, 0xFFFFFFFF, 0x00000000⟩,
  ⟨0x880, 4, 80, .rw, 0xFFFFFFFF, 0x00000000⟩,
  ⟨0x884, 4, 80, .rw, 0xFFFFFFFF, 0x00000000⟩,
  ⟨0x400, 16, 32, .rw, 0xFFFFFFE0, 0x00000000⟩,
  ⟨0x404, 16, 32, .rw, 0x000000FF, 0x00000000⟩,
  ⟨0x408, 16, 32, .rw, 0x00000F01, 0x00000000⟩,
  ⟨0x40C, 16, 32, .rw, 0x00000FFF, 0x00000000⟩,
  ⟨0x410, 16, 32, .ro, 0x00000FFF, 0x00000000⟩,
  ⟨0x414, 16, 32, .ro, 0x00000003, 0x00000000⟩,
  ⟨0x418, 16, 32, .ro, 0xFFFFFFFF, 0x00000000⟩]

/-- The register table of STRM. -/
def rowsSTRM : List RegRow := [
  ⟨0x040, 1, 4, .rw, 0x000000FF, 0x00000000⟩,
  ⟨0x044, 1, 4, .rw, 0x000000FF, 0x00000000⟩,
  ⟨0x048, 1, 4, .rw, 0x0000003F, 0x00000000⟩,
  ⟨0x04C, 1, 4, .wo, 0x00000003, 0x00000000⟩,
  ⟨0x080, 1, 4, .rw, 0x003F0FFF, 0x00000000⟩,
  ⟨0x084, 1, 4, .rw, 0x03FF07FF, 0x00000000⟩,
  ⟨0x088, 1, 4, .rw, 0xFF3FFFF8, 0x00000000⟩,
  ⟨0x08C, 1, 4, .rw, 0xFF3FFFF8, 0x00000000⟩,
  ⟨0x090, 1, 4, .rw, 0xFFFFFFFF, 0x00000000⟩,
  ⟨0x094, 1, 4, .ro, 0xFFFF0003, 0x00000000⟩,
  ⟨0x098, 1, 4, .ro, 0xFFFFFFFF, 0x00000000⟩,
  ⟨0x09C, 1, 4, .ro, 0xFFFFFFFF, 0x00000000⟩,
  ⟨0x0A0, 1, 4, .ro, 0xFFFFFFFF, 0x00000000⟩,
  ⟨0x0A4, 1, 4, .ro, 0xFFFFFFFF, 0x00000000⟩,
  ⟨0x100, 1, 4, .rw, 0x7F3F7FFF, 0x00000000⟩,
  ⟨0x104, 1, 4, .rw, 0x03FF07FF, 0x00000000⟩,
  ⟨0x108, 1, 4, .rw, 0x003FFFC0, 0x00000000⟩,
  ⟨0x10C, 1, 4, .rw, 0x0000FFFF, 0x00000030⟩,
  ⟨0x110, 4, 4, .rw, 0xFFFFFFFF, 0x00000000⟩,
  ⟨0x120, 4, 4, .rw, 0xFFFFFFFF, 0x00000000⟩,
  ⟨0x130, 1, 4, .rw, 0xFFFFFFFF, 0x00000000⟩,
  ⟨0x134, 1, 4, .rw, 0xFFFFFFFF, 0x00000000⟩,
  ⟨0x138, 1, 4, .ro, 0xFFFF000F, 0x00000000⟩,
  ⟨0x13C, 1, 4, .ro, 0x0000FFFF, 0x00000000⟩,
  ⟨0x140, 1, 4, .ro, 0xFFFFFFFF, 0x00000000⟩,
  ⟨0x144, 1, 4, .ro, 0xFFFFFFFF, 0x00000000⟩,
  ⟨0x148, 1, 4, .ro, 0xFFFFFFFF, 0x00000000⟩,
  ⟨0x14C, 1, 4, .ro, 0xFFFFFFFF, 0x00000000⟩,
  ⟨0x150, 1, 4, .ro, 0xFFFFFFFF, 0x00000000⟩,
  ⟨0x154, 1, 4, .ro, 0xFFFFFFFF, 0x00000000⟩,
  ⟨0x158, 1, 4, .ro, 0xFFFFFFFF, 0x00000000⟩,
  ⟨0x15C, 1, 4, .ro, 0xFFFFFFFF, 0x00000000⟩]

/-- The register table of CB0. -/
def rowsCB0 : List RegRow := [
  ⟨0x040, 1, 4, .rw, 0x0000003F, 0x00000010⟩,
  ⟨0x044, 1, 4, .rw, 0xFFFFFFFF, 0x00000000⟩,
  ⟨0x048, 1, 4, .rw, 0x0000FFFF, 0x00000000⟩,
  ⟨0x04C, 1, 4, .rw, 0xFFFFFFFF, 0x00200800⟩,
  ⟨0x050, 1, 4, .rw, 0x000000FF, 0x00000080⟩,
  ⟨0x054, 1, 4, .ro, 0x00000007, 0x00000000⟩,
  ⟨0x058, 1, 4, .ro, 0xFFFFFFFF, 0x00000000⟩,
  ⟨0x05C, 1, 4, .ro, 0x000103FF, 0x00000000⟩,
  ⟨0x060, 1, 4, .wo, 0xFFFFFFFF, 0x00000000⟩,
  ⟨0x064, 1, 4, .ro, 0x000003FF, 0x00000200⟩,
  ⟨0x068, 1, 4, .wo, 0x00000001, 0x00000000⟩,
  ⟨0x06C, 1, 4, .ro, 0xFFFFFFFF, 0x00000000⟩,
  ⟨0x070, 1, 4, .rw, 0xFFFF07FF, 0x00000000⟩,
  ⟨0x074, 1, 4, .ro, 0xFFFF0001, 0x00000000⟩,
  ⟨0x078, 1, 4, .ro, 0xFFFFFFFF, 0x00000000⟩,
  ⟨0x07C, 1, 4, .ro, 0xFFFFFFFF, 0x00000000⟩,
  ⟨0x080, 1, 4, .ro, 0xFFFFFFFF, 0x00000000⟩,
  ⟨0x084, 1, 4, .ro, 0xFFFFFFFF, 0x00000000⟩,
  ⟨0x088, 1, 4, .ro, 0xFFFFFFFF, 0x00000000⟩,
  ⟨0x08C, 1, 4, .ro, 0xFFFFFFFF, 0x00000000⟩,
  ⟨0x090, 1, 4, .wo, 0x00000001, 0x00000000⟩]

/-- The register table of STM. -/
def rowsSTM : List RegRow := [
  ⟨0x040, 1, 4, .rw, 0x0000037F, 0x00000200⟩,
  ⟨0x044, 1, 4, .rw, 0x07FF03FF, 0x00000000⟩,
  ⟨0x048, 1, 4, .rw, 0x07FF03FF, 0x00000000⟩,
  ⟨0x04C, 1, 4, .rw, 0x03FF03FF, 0x00000000⟩,
  ⟨0x050, 1, 4, .rw, 0x003FFFC0, 0x00000000⟩,
  ⟨0x054, 1, 4, .rw, 0x0000FFFF, 0x00000008⟩,
  ⟨0x058, 1, 4, .ro, 0x0003FF7F, 0x00000000⟩,
  ⟨0x05C, 1, 4, .ro, 0x0000FFFF, 0x00000000⟩,
  ⟨0x060, 1, 4, .ro, 0xFFFFFFFF, 0x00000000⟩,
  ⟨0x064, 1, 4, .ro, 0xFFFFFFFF, 0x00000000⟩,
  ⟨0x068, 1, 4, .ro, 0xFFFFFFFF, 0x00000000⟩,
  ⟨0x06C, 1, 4, .wo, 0x00000001, 0x00000000⟩,
  ⟨0x070, 1, 4, .ro, 0x0000000F, 0x00000008⟩,
  ⟨0x074, 1, 4, .ro, 0xC000000F, 0x00000000⟩,
  ⟨0x078, 1, 4, .ro, 0xFFFFFFFF, 0x00000000⟩,
  ⟨0x07C, 1, 4, .wo, 0x00000001, 0x00000000⟩,
  ⟨0x080, 4, 4, .rw, 0xFFFFFFFF, 0x00000000⟩,
  ⟨0x090, 4, 4, .ro, 0xFFFFFFFF, 0x00000000⟩,
  ⟨0x0A0, 1, 4, .ro, 0xFFFFFFFF, 0x00000000⟩,
  ⟨0x0A4, 1, 4, .ro, 0xFFFFFFFF, 0x00000000⟩,
  ⟨0x0A8, 1, 4, .ro, 0xFFFFFFFF, 0x00000000⟩,
  ⟨0x0AC, 1, 4, .ro, 0xFFFFFFFF, 0x00000000⟩,
  ⟨0x0B0, 1, 4, .ro, 0xFFFFFFFF, 0x00000000⟩,
  ⟨0x0B4, 1, 4, .ro, 0xFFFFFFFF, 0x00000000⟩,
  ⟨0x0B8, 1, 4, .ro, 0xFFFFFFFF, 0x00000000⟩,
  ⟨0x0BC, 1, 4, .ro, 0xFFFFFFFF, 0x00000000⟩,
  ⟨0x0C0, 1, 4, .ro, 0xFFFFFFFF, 0x00000000⟩,
  ⟨0x0C4, 1, 4, .ro, 0xFFFFFFFF, 0x00000000⟩,
  ⟨0x0C8, 1, 4, .ro, 0xFFFFFFFF, 0x00000000⟩]

/-- The register table of MGLD. -/
def rowsMGLD : List RegRow := [
  ⟨0x040, 1, 4, .rw, 0x00013F3F, 0x00010000⟩,
  ⟨0x044, 1, 4, .ro, 0x000F1F07, 0x00000000⟩,
  ⟨0x048, 1, 4, .wo, 0xFFFF0007, 0x00000000⟩,
  ⟨0x04C, 1, 4, .ro, 0x0000FFFF, 0x00000000⟩,
  ⟨0x050, 1, 4, .ro, 0xFFFFFFFF, 0x00000000⟩,
  ⟨0x054, 1, 4, .ro, 0xFFFFFFFF, 0x00000000⟩,
  ⟨0x058, 1, 4, .ro, 0xFFFFFFFF, 0x00000000⟩,
  ⟨0x05C, 1, 4, .ro, 0x00FFFFFF, 0x00000000⟩,
  ⟨0x060, 1, 4, .ro, 0x00FFFFFF, 0x00000000⟩,
  ⟨0x064, 1, 4, .ro, 0xFFFFFFFF, 0x00000000⟩,
  ⟨0x068, 1, 4, .ro, 0xFFFFFFFF, 0x00000000⟩,
  ⟨0x06C, 1, 4, .ro, 0xFFFFFFFF, 0x00000000⟩,
  ⟨0x070, 1, 4, .ro, 0xFFFFFFFF, 0x00000000⟩,
  ⟨0x074, 1, 4, .ro, 0xFFFFFFFF, 0x00000000⟩,
  ⟨0x078, 1, 4, .ro, 0xFFFFFFFF, 0x00000000⟩,
  ⟨0x07C, 1, 4, .ro, 0xFFFFFFFF, 0x00000000⟩,
  ⟨0x080, 1, 4, .ro, 0xFFFFFFFF, 0x00000000⟩,
  ⟨0x084, 1, 4, .wo, 0x00000001, 0x00000000⟩,
  ⟨0x088, 1, 4, .rw, 0x0000FFFF, 0x00000000⟩,
  ⟨0x0C0, 2, 16, .rw, 0x000001FF, 0x00000000⟩,
  ⟨0x0C4, 2, 16, .rw, 0xFFFFFFFF, 0x00000000⟩,
  ⟨0x0C8, 2, 16, .rw, 0xFFFFFFFF, 0x00000000⟩,
  ⟨0x100, 32, 4, .rw, 0x03FF03FF, 0x00000000⟩,
  ⟨0x200, 32, 8, .rw, 0xFFFFFFE0, 0x00000000⟩,
  ⟨0x204, 32, 8, .rw, 0x0000FFFF, 0x00000000⟩,
  ⟨0x400, 8, 8, .rw, 0xFFFFF000, 0x00000000⟩,
  ⟨0x404, 8, 8, .rw, 0x000FFFFF, 0x00000000⟩]

/-- The register table of SPK. -/
def rowsSPK : List RegRow := [
  ⟨0x040, 1, 4, .rw, 0x000107FF, 0x00000190⟩,
  ⟨0x044, 1, 4, .rw, 0x00000FFF, 0x00000140⟩,
  ⟨0x048, 1, 4, .rw, 0x00FF00FF, 0x001400F3⟩,
  ⟨0x04C, 1, 4, .rw, 0xFFFFFFFF, 0x00000000⟩,
  ⟨0x050, 1, 4, .rw, 0x0003FFFF, 0x00010000⟩,
  ⟨0x054, 1, 4, .rw, 0x0000FFFF, 0x00000000⟩,
  ⟨0x058, 1, 4, .rw, 0x0000007F, 0x00000032⟩,
  ⟨0x05C, 1, 4, .rw, 0xFFFFFFFF, 0x10000000⟩,
  ⟨0x060, 1, 4, .rw, 0x00003F01, 0x00000001⟩,
  ⟨0x064, 1, 4, .wo, 0x0000000F, 0x00000000⟩,
  ⟨0x068, 1, 4, .ro, 0x07FF03F7, 0x00000000⟩,
  ⟨0x06C, 1, 4, .rw, 0x0000FF7F, 0x00005014⟩,
  ⟨0x070, 1, 4, .rw, 0x00FF00FF, 0x0040000A⟩,
  ⟨0x074, 1, 4, .ro, 0xFFFF000F, 0x00000000⟩,
  ⟨0x078, 1, 4, .ro, 0xFFFFFFFF, 0x00000000⟩,
  ⟨0x07C, 1, 4, .ro, 0x0000FFFF, 0x00000000⟩,
  ⟨0x080, 1, 4, .ro, 0xFFFFFFFF, 0x00000000⟩,
  ⟨0x084, 1, 4, .ro, 0xFFFFFFFF, 0x00000000⟩,
  ⟨0x088, 1, 4, .wo, 0x00000001, 0x00000000⟩]

/-- The register table of SPKC. -/
def rowsSPKC : List RegRow := [
  ⟨0x040, 1, 4, .rw, 0x00FF00FF, 0x00640005⟩,
  ⟨0x044, 1, 4, .rw, 0x0000FFFF, 0x00000000⟩,
  ⟨0x048, 1, 4, .ro, 0x0000FFFF, 0x00000000⟩,
  ⟨0x04C, 1, 4, .ro, 0x0000FFFF, 0x00000000⟩,
  ⟨0x080, 16, 4, .rw, 0x00007FFF, 0x00000000⟩]

/-- The register table of a page. -/
def pageRows : PageKind → List RegRow
  | .sysP => rowsSYS
  | .rstP => rowsRST
  | .clkpwrP => rowsCLKPWR
  | .fuseP => rowsFUSE
  | .fgP => rowsFG
  | .hubP => rowsHUB
  | .mtxP => rowsMTX
  | .bankP => rowsBANK
  | .qfP => rowsQF
  | .tickP => rowsTICK
  | .snapP => rowsSNAP
  | .patchP => rowsPATCH
  | .dmixP => rowsDMIX
  | .dramP => rowsDRAM
  | .asterP => rowsASTER
  | .tbP => rowsTB
  | .jackP => rowsJACK
  | .stP => rowsST
  | .hostP => rowsHOST
  | .bootqP => rowsBOOTQ
  | .guardP => rowsGUARD
  | .curP => rowsCUR
  | .sapP => rowsSAP
  | .aesP => rowsAES
  | .asrcP => rowsASRC
  | .mecP => rowsMEC
  | .laneP => rowsLANE
  | .irisP => rowsIRIS
  | .ethP => rowsETH
  | .strmP => rowsSTRM
  | .cb0P => rowsCB0
  | .stmP => rowsSTM
  | .mgldP => rowsMGLD
  | .spkP => rowsSPK
  | .spkcP => rowsSPKC

/-- Whether a row holds the register at an offset. -/
def RegRow.has (r : RegRow) (o : Nat) : Bool :=
  r.off ≤ o && (o - r.off) % r.stride == 0 && (o - r.off) / r.stride < r.n

/-- The row of an offset on page `i` of a kind, none where its table names none: of the Ethernet pages only ETH0 has the wake
registers (R9, R458). -/
def pageRow (pk : PageKind) (i o : Nat) : Option RegRow :=
  if pk = .ethP ∧ i ≠ 0 ∧ 0x800 ≤ o then none else (pageRows pk).find? (·.has o)

/-- The row of a key, none where no table names the offset (R9). -/
def regRow (k : Nat) : Option RegRow :=
  match pageKind (k / 0x1000) with
  | none => none
  | some (pk, i) => pageRow pk i (k % 0x1000)

/-- The QoS a master port takes at reset (R309). -/
def mtxQosReset (m : Nat) : Word :=
  if m ≤ 3 then 12 else if m ≤ 5 then 8 else if m ≤ 9 then 0 else if m ≤ 11 then 10
  else if m = 12 then 14 else if m = 13 then 6 else 4

/-- The Reset value of the header register at an offset below 0x040 (R54 and each page's own rule). -/
def headerReset (pk : PageKind) (i o : Nat) : Word :=
  if o = 0x000 then BitVec.ofNat 32 (pk.base * 0x1_0000 + i * 0x100 + 1)
  else if o = 0x004 then pageCaps pk i
  else if o = 0x008 then (if pageEnReset pk i then 1 else 0)
  else if o = 0x028 then (if pk = .patchP ∨ pk = .dmixP then 0x8000_0002 else 0)
  else 0

/-- Sources of kind P of R61, whose MODE resets to pulse (R70). -/
def hubKindP (s : Nat) : Bool := s ≤ 5 || (88 ≤ s && s ≤ 95) || (232 ≤ s && s ≤ 236)

/-- The Reset value of the register that a key names (R10); 0 where no table names it (R9). -/
def regReset (k : Nat) : Word :=
  match pageKind (k / 0x1000) with
  | none => 0
  | some (pk, i) =>
    let o := k % 0x1000
    if o < 0x40 then headerReset pk i o
    else if pk = .hubP ∧ 0x400 ≤ o ∧ o < 0x800 then (if hubKindP ((o - 0x400) / 4) then 0x100 else 0)
    else if pk = .mtxP ∧ 0x40 ≤ o ∧ o < 0x7C then mtxQosReset ((o - 0x40) / 4)
    else match pageRow pk i o with
      | some r => r.reset
      | none => 0

end Sys2Proof.Machine

/-! Names of the registers, as the chapters spell them, with the instance and the indices as arguments. -/

namespace Sys2Proof.Machine.Reg

/-- The header registers of a page (R54). -/
abbrev CTRL (p : Nat) : Nat := 0x1000 * p + 0x008
abbrev STAT (p : Nat) : Nat := 0x1000 * p + 0x00C
abbrev IRQ_RAW (p : Nat) : Nat := 0x1000 * p + 0x010
abbrev IRQ_MASK (p : Nat) : Nat := 0x1000 * p + 0x014
abbrev ERR_CODE (p : Nat) : Nat := 0x1000 * p + 0x020
abbrev ERR_INFO (p : Nat) : Nat := 0x1000 * p + 0x024
abbrev SHADOW_CTL (p : Nat) : Nat := 0x1000 * p + 0x028

abbrev TICK_CFG : Nat := 0x09040
abbrev TICK_START_TIME : Nat := 0x09044
abbrev TICK_COUNT_LO : Nat := 0x09048
abbrev TICK_COUNT_HI : Nat := 0x0904C
abbrev TICK_COUNT_LOAD_LO : Nat := 0x09050
abbrev TICK_COUNT_LOAD_HI : Nat := 0x09054
abbrev TICK_ECYC : Nat := 0x09058
abbrev TICK_ECYC_AVG : Nat := 0x0905C
abbrev TICK_ECYC_MIN : Nat := 0x09060
abbrev TICK_ECYC_MAX : Nat := 0x09064
abbrev TICK_ECYC_CLR : Nat := 0x09068
abbrev TICK_PHASE : Nat := 0x0906C
abbrev TICK_START_SHORT : Nat := 0x09070
abbrev TICK_OFS0 : Nat := 0x09074
abbrev TICK_OFS1 : Nat := 0x09078
abbrev TICK_DRAM_SLOT : Nat := 0x0907C
abbrev TICK_SCHED_BASE : Nat := 0x09080
abbrev TICK_LEDGER : Nat := 0x09084
abbrev TICK_LATE_MEC : Nat := 0x09088
abbrev TICK_OVR_COUNT : Nat := 0x0908C
abbrev TICK_OVR_TICK : Nat := 0x09090
abbrev HUB_CLAIM (t : Nat) : Nat := 0x05040 + 16 * t
abbrev HUB_DONE (t : Nat) : Nat := 0x05044 + 16 * t
abbrev HUB_THR (t : Nat) : Nat := 0x05048 + 16 * t
abbrev HUB_CTIME (t : Nat) : Nat := 0x0504C + 16 * t
abbrev HUB_SWSET : Nat := 0x05070
abbrev HUB_WCLK_DIV : Nat := 0x05074
abbrev HUB_EVMON : Nat := 0x05078
abbrev HUB_PEND (w : Nat) : Nat := 0x05080 + 4 * w
abbrev HUB_INSVC (w : Nat) : Nat := 0x050A0 + 4 * w
abbrev HUB_LEVEL (w : Nat) : Nat := 0x050C0 + 4 * w
abbrev HUB_SRC_CFG (s : Nat) : Nat := 0x05400 + 4 * s
abbrev HUB_REC_TIME (s : Nat) : Nat := 0x05800 + 8 * s
abbrev HUB_REC_INFO (s : Nat) : Nat := 0x05804 + 8 * s
abbrev BANK_STATE (k : Nat) : Nat := 0x07040 + 4 * k
abbrev BANK_CUR (k : Nat) : Nat := 0x07050 + 4 * k
abbrev BANK_BUSY (w : Nat) : Nat := 0x07060 + 4 * w
abbrev BANK_BIST_CTL : Nat := 0x07068
abbrev BANK_BIST_STAT : Nat := 0x0706C
abbrev BANK_BIST_SEL (w : Nat) : Nat := 0x07070 + 4 * w
abbrev BANK_BIST_FAIL (w : Nat) : Nat := 0x07078 + 4 * w
abbrev BANK_BIST_ADDR : Nat := 0x07080
abbrev BANK_CONFLICT (g : Nat) : Nat := 0x070C0 + 4 * g
abbrev BANK_CONFLICT_CLR : Nat := 0x070E0
abbrev QF_QSEL : Nat := 0x08040
abbrev QF_CMD : Nat := 0x08044
abbrev QF_QSTAT : Nat := 0x08048
abbrev QF_DESC0 : Nat := 0x08060
abbrev QF_DESC1 : Nat := 0x08064
abbrev QF_DESC2 : Nat := 0x08068
abbrev QF_DESC3 : Nat := 0x0806C
abbrev QF_DESC4 : Nat := 0x08070
abbrev QF_DESC5 : Nat := 0x08074
abbrev QF_DESC6 : Nat := 0x08078
abbrev QF_DESC7 : Nat := 0x0807C
abbrev QF_SKIP : Nat := 0x08080
abbrev QF_DROP : Nat := 0x08084
abbrev QF_UNDER : Nat := 0x08088
abbrev QF_REALIGN_COUNT : Nat := 0x0808C
abbrev QF_QERR (w : Nat) : Nat := 0x08100 + 4 * w
abbrev MEC_RUNCTL (n : Nat) : Nat := 0x40040 + 0x1000 * n
abbrev MEC_STATE (n : Nat) : Nat := 0x40044 + 0x1000 * n
abbrev MEC_ENTRY (n : Nat) : Nat := 0x40048 + 0x1000 * n
abbrev MEC_APBASE (n : Nat) : Nat := 0x4004C + 0x1000 * n
abbrev MEC_SSTAT (n : Nat) : Nat := 0x40050 + 0x1000 * n
abbrev MEC_EVPEND (n : Nat) : Nat := 0x40054 + 0x1000 * n
abbrev MEC_REGSEL (n : Nat) : Nat := 0x40060 + 0x1000 * n
abbrev MEC_REGDATA0 (n : Nat) : Nat := 0x40064 + 0x1000 * n
abbrev MEC_REGDATA1 (n : Nat) : Nat := 0x40068 + 0x1000 * n
abbrev MEC_REGDATA2 (n : Nat) : Nat := 0x4006C + 0x1000 * n
abbrev MEC_CYCLES (n : Nat) : Nat := 0x40070 + 0x1000 * n
abbrev MEC_CYC_MAX (n : Nat) : Nat := 0x40074 + 0x1000 * n
abbrev MEC_HOLD (n : Nat) : Nat := 0x40078 + 0x1000 * n
abbrev MEC_STATS_CLR (n : Nat) : Nat := 0x4007C + 0x1000 * n
abbrev MEC_BRK (n : Nat) : Nat := 0x40080 + 0x1000 * n
abbrev ST_RUNCTL (n : Nat) : Nat := 0x12040 + 0x1000 * n
abbrev ST_STATE (n : Nat) : Nat := 0x12044 + 0x1000 * n
abbrev ST_PC (n : Nat) : Nat := 0x12048 + 0x1000 * n
abbrev ST_ENTRY (n : Nat) : Nat := 0x1204C + 0x1000 * n
abbrev ST_CFG (n : Nat) : Nat := 0x12050 + 0x1000 * n
abbrev ST_APBASE (n : Nat) : Nat := 0x12054 + 0x1000 * n
abbrev ST_WDOG_CFG (n : Nat) : Nat := 0x12058 + 0x1000 * n
abbrev ST_WDOG_KICK (n : Nat) : Nat := 0x1205C + 0x1000 * n
abbrev ST_WDOG_LEFT (n : Nat) : Nat := 0x12060 + 0x1000 * n
abbrev ST_REGSEL (n : Nat) : Nat := 0x12064 + 0x1000 * n
abbrev ST_REGDATA0 (n : Nat) : Nat := 0x12068 + 0x1000 * n
abbrev ST_REGDATA1 (n : Nat) : Nat := 0x1206C + 0x1000 * n
abbrev ST_REGDATA2 (n : Nat) : Nat := 0x12070 + 0x1000 * n
abbrev ST_BRK (n : Nat) : Nat := 0x12080 + 0x1000 * n
abbrev SNAP_CFG : Nat := 0x0A040
abbrev SNAP_FLIP_MASK : Nat := 0x0A044
abbrev SNAP_FLIP_TICK_LO : Nat := 0x0A048
abbrev SNAP_FLIP_TICK_HI : Nat := 0x0A04C
abbrev SNAP_CMD : Nat := 0x0A050
abbrev SNAP_STAT : Nat := 0x0A054
abbrev SNAP_LIVE : Nat := 0x0A058
abbrev SNAP_FLIP_LAST_LO : Nat := 0x0A05C
abbrev SNAP_FLIP_LAST_HI : Nat := 0x0A060
abbrev SNAP_FLIP_COUNT : Nat := 0x0A064
abbrev SNAP_GLIDE_MASK : Nat := 0x0A068
abbrev SNAP_GLIDE_TICK_LO : Nat := 0x0A06C
abbrev SNAP_GLIDE_TICK_HI : Nat := 0x0A070
abbrev SNAP_GLIDE_G : Nat := 0x0A074
abbrev SNAP_GLIDE_BUSY : Nat := 0x0A078
abbrev SNAP_GL_LIST (m : Nat) : Nat := 0x0A100 + 8 * m
abbrev SNAP_GL_REM (m : Nat) : Nat := 0x0A104 + 8 * m
abbrev PATCH_SINK_SEL : Nat := 0x0B040
abbrev PATCH_SINK_STAT : Nat := 0x0B044
abbrev PATCH_FADE_POS : Nat := 0x0B048
abbrev PATCH_EO_UNDER_COUNT : Nat := 0x0B04C
abbrev PATCH_GEN_CFG (g : Nat) : Nat := 0x0B100 + 16 * g
abbrev PATCH_GEN_PHINC (g : Nat) : Nat := 0x0B104 + 16 * g
abbrev PATCH_GEN_LEVEL (g : Nat) : Nat := 0x0B108 + 16 * g
abbrev PATCH_GEN_SEED (g : Nat) : Nat := 0x0B10C + 16 * g
abbrev PATCH_EIP_CFG (p : Nat) : Nat := 0x0B200 + 8 * p
abbrev PATCH_EIP_Q (p : Nat) : Nat := 0x0B204 + 8 * p
abbrev PATCH_EOP_CFG (p : Nat) : Nat := 0x0B600 + 8 * p
abbrev PATCH_EOP_Q (p : Nat) : Nat := 0x0B604 + 8 * p
abbrev DMIX_ZC : Nat := 0x0C040
abbrev DMIX_SAT : Nat := 0x0C044
abbrev DMIX_ZC_TIMEOUTS : Nat := 0x0C048
abbrev DMIX_PROBE_SEL : Nat := 0x0C04C
abbrev DMIX_PROBE_GAIN : Nat := 0x0C050
abbrev DMIX_PROBE_STAT : Nat := 0x0C054
abbrev DMIX_IN (i : Nat) : Nat := 0x0C100 + 4 * i
abbrev DMIX_OUT (j : Nat) : Nat := 0x0C200 + 4 * j
abbrev CUR_FLAGS (n : Nat) : Nat := 0x18040 + 0x1000 * n
abbrev CUR_FLAG_SET (n : Nat) : Nat := 0x18044 + 0x1000 * n
abbrev CUR_REQMON (n : Nat) : Nat := 0x18048 + 0x1000 * n
abbrev CUR_PLAIN_REL (n : Nat) : Nat := 0x1804C + 0x1000 * n
abbrev CUR_OUTSTANDING (n : Nat) : Nat := 0x18050 + 0x1000 * n
abbrev CUR_CH_CFG (c : Nat) : Nat := 0x18000 + 0x1000 * (c / 8) + 0x100 + 0x80 * (c % 8)
abbrev CUR_CH_CMD (c : Nat) : Nat := 0x18000 + 0x1000 * (c / 8) + 0x104 + 0x80 * (c % 8)
abbrev CUR_CH_STAT (c : Nat) : Nat := 0x18000 + 0x1000 * (c / 8) + 0x108 + 0x80 * (c % 8)
abbrev CUR_CH_PROG (c : Nat) : Nat := 0x18000 + 0x1000 * (c / 8) + 0x10C + 0x80 * (c % 8)
abbrev CUR_CH_PC (c : Nat) : Nat := 0x18000 + 0x1000 * (c / 8) + 0x110 + 0x80 * (c % 8)
abbrev CUR_CH_LOOP (c : Nat) : Nat := 0x18000 + 0x1000 * (c / 8) + 0x114 + 0x80 * (c % 8)
abbrev CUR_CH_RBASE_LO (c : Nat) : Nat := 0x18000 + 0x1000 * (c / 8) + 0x118 + 0x80 * (c % 8)
abbrev CUR_CH_RBASE_HI (c : Nat) : Nat := 0x18000 + 0x1000 * (c / 8) + 0x11C + 0x80 * (c % 8)
abbrev CUR_CH_RLOG (c : Nat) : Nat := 0x18000 + 0x1000 * (c / 8) + 0x120 + 0x80 * (c % 8)
abbrev CUR_CH_SIG (c : Nat) : Nat := 0x18000 + 0x1000 * (c / 8) + 0x124 + 0x80 * (c % 8)
abbrev CUR_CH_ERRADDR_LO (c : Nat) : Nat := 0x18000 + 0x1000 * (c / 8) + 0x128 + 0x80 * (c % 8)
abbrev CUR_CH_ERRADDR_HI (c : Nat) : Nat := 0x18000 + 0x1000 * (c / 8) + 0x12C + 0x80 * (c % 8)
abbrev CUR_CH_MOVED (c : Nat) : Nat := 0x18000 + 0x1000 * (c / 8) + 0x130 + 0x80 * (c % 8)
abbrev CUR_CH_PTR_LO (c k : Nat) : Nat := 0x18000 + 0x1000 * (c / 8) + 0x140 + 0x80 * (c % 8) + 8 * k
abbrev CUR_CH_PTR_HI (c k : Nat) : Nat := 0x18000 + 0x1000 * (c / 8) + 0x144 + 0x80 * (c % 8) + 8 * k
abbrev MTX_MP_CFG (m : Nat) : Nat := 0x06040 + 4 * m
abbrev MTX_MP_STAT (m : Nat) : Nat := 0x06080 + 4 * m
abbrev MTX_TP_GRANTS (t : Nat) : Nat := 0x060C0 + 4 * t
abbrev MTX_TP_WAITMAX (t : Nat) : Nat := 0x06100 + 4 * t
abbrev MTX_STATS_CLR : Nat := 0x06140
abbrev MTX_ERR_ADDR_LO : Nat := 0x06144
abbrev MTX_ERR_ADDR_HI : Nat := 0x06148
abbrev MTX_DECERR_COUNT : Nat := 0x0614C
abbrev MTX_SLVERR_COUNT : Nat := 0x06150
abbrev MTX_TRACK : Nat := 0x06154
abbrev SAP_FMT (n : Nat) : Nat := 0x20040 + 0x1000 * n
abbrev SAP_INMASK (n : Nat) : Nat := 0x20044 + 0x1000 * n
abbrev SAP_OUTMASK (n : Nat) : Nat := 0x20048 + 0x1000 * n
abbrev SAP_INMASK_ACT (n : Nat) : Nat := 0x2004C + 0x1000 * n
abbrev SAP_OUTMASK_ACT (n : Nat) : Nat := 0x20050 + 0x1000 * n
abbrev SAP_QIN (n : Nat) : Nat := 0x20054 + 0x1000 * n
abbrev SAP_QIN_SEL (n : Nat) : Nat := 0x20058 + 0x1000 * n
abbrev SAP_QOUT (n : Nat) : Nat := 0x2005C + 0x1000 * n
abbrev SAP_QOUT_SEL (n : Nat) : Nat := 0x20060 + 0x1000 * n
abbrev SAP_ZC (n : Nat) : Nat := 0x20064 + 0x1000 * n
abbrev SAP_LINK (n : Nat) : Nat := 0x20068 + 0x1000 * n
abbrev SAP_DLY (n : Nat) : Nat := 0x2006C + 0x1000 * n
abbrev SAP_BLK_TIME (n : Nat) : Nat := 0x20070 + 0x1000 * n
abbrev SAP_NA_NOW (n : Nat) : Nat := 0x20074 + 0x1000 * n
abbrev SAP_NA_SEEN (n : Nat) : Nat := 0x20078 + 0x1000 * n
abbrev SAP_SLIPS (n : Nat) : Nat := 0x2007C + 0x1000 * n
abbrev SAP_FRAMEERRS (n : Nat) : Nat := 0x20080 + 0x1000 * n
abbrev SAP_UNDERRUNS (n : Nat) : Nat := 0x20084 + 0x1000 * n
abbrev SAP_LATE (n : Nat) : Nat := 0x20088 + 0x1000 * n
abbrev SAP_BCLK_MEAS (n : Nat) : Nat := 0x2008C + 0x1000 * n
abbrev SAP_TRIM (n s : Nat) : Nat := 0x20100 + 0x1000 * n + 4 * s
abbrev AES_CFG (n : Nat) : Nat := 0x30040 + 0x1000 * n
abbrev AES_RXSTAT (n : Nat) : Nat := 0x30044 + 0x1000 * n
abbrev AES_RXQ (n : Nat) : Nat := 0x30048 + 0x1000 * n
abbrev AES_TXQ (n : Nat) : Nat := 0x3004C + 0x1000 * n
abbrev AES_ZC (n : Nat) : Nat := 0x30050 + 0x1000 * n
abbrev AES_TRIM0 (n : Nat) : Nat := 0x30054 + 0x1000 * n
abbrev AES_TRIM1 (n : Nat) : Nat := 0x30058 + 0x1000 * n
abbrev AES_DLY (n : Nat) : Nat := 0x3005C + 0x1000 * n
abbrev AES_PARERRS (n : Nat) : Nat := 0x30060 + 0x1000 * n
abbrev AES_BPERRS (n : Nat) : Nat := 0x30064 + 0x1000 * n
abbrev AES_CRCERRS (n : Nat) : Nat := 0x30068 + 0x1000 * n
abbrev AES_VCOUNT (n : Nat) : Nat := 0x3006C + 0x1000 * n
abbrev AES_SLIPS (n : Nat) : Nat := 0x30070 + 0x1000 * n
abbrev AES_TXCS_CTL (n : Nat) : Nat := 0x30074 + 0x1000 * n
abbrev AES_TXV (n : Nat) : Nat := 0x30078 + 0x1000 * n
abbrev AES_RXCS_A (n w : Nat) : Nat := 0x30080 + 0x1000 * n + 4 * w
abbrev AES_RXCS_B (n w : Nat) : Nat := 0x30098 + 0x1000 * n + 4 * w
abbrev AES_RXU_A (n w : Nat) : Nat := 0x300B0 + 0x1000 * n + 4 * w
abbrev AES_RXU_B (n w : Nat) : Nat := 0x300C8 + 0x1000 * n + 4 * w
abbrev AES_TXCS_A (n w : Nat) : Nat := 0x30100 + 0x1000 * n + 4 * w
abbrev AES_TXCS_B (n w : Nat) : Nat := 0x30118 + 0x1000 * n + 4 * w
abbrev AES_TXU_A (n w : Nat) : Nat := 0x30130 + 0x1000 * n + 4 * w
abbrev AES_TXU_B (n w : Nat) : Nat := 0x30148 + 0x1000 * n + 4 * w
abbrev ASRC_G_CFG (g : Nat) : Nat := 0x34040 + 16 * g
abbrev ASRC_G_Q (g : Nat) : Nat := 0x34044 + 16 * g
abbrev ASRC_G_STAT (g : Nat) : Nat := 0x34048 + 16 * g
abbrev ASRC_G_RATIO (g : Nat) : Nat := 0x3404C + 16 * g
abbrev JACK_CFG : Nat := 0x11040
abbrev JACK_THR0 : Nat := 0x11044
abbrev JACK_THR1 : Nat := 0x11048
abbrev JACK_BTN0 : Nat := 0x1104C
abbrev JACK_BTN1 : Nat := 0x11050
abbrev JACK_STAT (j : Nat) : Nat := 0x11054 + 4 * j
abbrev JACK_EVT_INFO : Nat := 0x1105C
abbrev JACK_EVT_TIME : Nat := 0x11060
abbrev JACK_RAWCFG : Nat := 0x11064
abbrev JACK_RAW : Nat := 0x11068
abbrev JACK_RECLASS : Nat := 0x1106C
abbrev ASTER_CFG : Nat := 0x0F040
abbrev ASTER_QUAL : Nat := 0x0F044
abbrev ASTER_LOCK : Nat := 0x0F048
abbrev ASTER_DISAGREE : Nat := 0x0F04C
abbrev ASTER_REFSEL : Nat := 0x0F050
abbrev ASTER_STATE : Nat := 0x0F054
abbrev ASTER_HIST : Nat := 0x0F058
abbrev ASTER_QSTAT : Nat := 0x0F05C
abbrev ASTER_FOFS : Nat := 0x0F060
abbrev ASTER_HO_FREQ : Nat := 0x0F064
abbrev ASTER_PHERR : Nat := 0x0F068
abbrev ASTER_CMD : Nat := 0x0F06C
abbrev ASTER_REF_CFG (n : Nat) : Nat := 0x0F080 + 4 * n
abbrev ASTER_REF_NOM (n : Nat) : Nat := 0x0F0C0 + 4 * n
abbrev ASTER_REF_MEAS (n : Nat) : Nat := 0x0F100 + 4 * n
abbrev WCLK_OUT_CFG (k : Nat) : Nat := 0x0F140 + 4 * k
abbrev MCLK_OUT_CFG (k : Nat) : Nat := 0x0F148 + 4 * k
abbrev PPS_OUT_CFG : Nat := 0x0F150
abbrev FRAME_CFG : Nat := 0x0F154
abbrev ASTER_FRAME_OFS : Nat := 0x0F158
abbrev FRAME_STAT : Nat := 0x0F15C
abbrev ASTER_BS_CFG : Nat := 0x0F160
abbrev ASTER_BS_WIN : Nat := 0x0F164
abbrev ASTER_BS_STAT : Nat := 0x0F168
abbrev TB_INC_FRAC : Nat := 0x10040
abbrev TB_INC_INT : Nat := 0x10044
abbrev TB_INC_ACT_FRAC : Nat := 0x10048
abbrev TB_NS : Nat := 0x1004C
abbrev TB_SEC_LO : Nat := 0x10050
abbrev TB_SEC_HI : Nat := 0x10054
abbrev TB_SUBNS : Nat := 0x10058
abbrev TB_SHORT : Nat := 0x1005C
abbrev TB_SHORT_EPOCH : Nat := 0x10060
abbrev TB_SHORT_EPOCH_LAT : Nat := 0x10064
abbrev TB_STEP_SEC_LO : Nat := 0x10068
abbrev TB_STEP_SEC_HI : Nat := 0x1006C
abbrev TB_STEP_NS : Nat := 0x10070
abbrev TB_CMD : Nat := 0x10074
abbrev TB_STAT : Nat := 0x10078
abbrev TB_STEP_SHORT : Nat := 0x1007C
abbrev TB_CAP_SHORT : Nat := 0x10080
abbrev TB_CAP_EPOCH : Nat := 0x10084
abbrev TB_CAP_NS : Nat := 0x10088
abbrev TB_CAP_SEC_LO : Nat := 0x1008C
abbrev TB_CAP_SEC_HI : Nat := 0x10090
abbrev TB_CAP_SUBNS : Nat := 0x10094
abbrev LANE_CFG (n : Nat) : Nat := 0x60040 + 0x1000 * n
abbrev LANE_STAT (n : Nat) : Nat := 0x60044 + 0x1000 * n
abbrev LANE_HIST (n : Nat) : Nat := 0x60048 + 0x1000 * n
abbrev LANE_CMD (n : Nat) : Nat := 0x6004C + 0x1000 * n
abbrev LANE_TXEQ (n : Nat) : Nat := 0x60050 + 0x1000 * n
abbrev LANE_HDRERR (n : Nat) : Nat := 0x60054 + 0x1000 * n
abbrev LANE_LOCKLOSS (n : Nat) : Nat := 0x60058 + 0x1000 * n
abbrev LANE_WINERR (n : Nat) : Nat := 0x6005C + 0x1000 * n
abbrev LANE_FREQ (n : Nat) : Nat := 0x60060 + 0x1000 * n
abbrev LANE_LOCKTIME (n : Nat) : Nat := 0x60064 + 0x1000 * n
abbrev IRIS_CFG : Nat := 0x6A040
abbrev IRIS_PH : Nat := 0x6A044
abbrev IRIS_V : Nat := 0x6A048
abbrev IRIS_CMD : Nat := 0x6A04C
abbrev IRIS_STAT : Nat := 0x6A050
abbrev IRIS_BUF_DATA : Nat := 0x6A054
abbrev IRIS_BUF_LEVEL : Nat := 0x6A058
abbrev IRIS_POINTS : Nat := 0x6A05C
abbrev ETH_CFG (n : Nat) : Nat := 0x70040 + 0x1000 * n
abbrev ETH_MAXLEN (n : Nat) : Nat := 0x70044 + 0x1000 * n
abbrev ETH_MAC_LO (n : Nat) : Nat := 0x70048 + 0x1000 * n
abbrev ETH_MAC_HI (n : Nat) : Nat := 0x7004C + 0x1000 * n
abbrev ETH_MHASH_LO (n : Nat) : Nat := 0x70050 + 0x1000 * n
abbrev ETH_MHASH_HI (n : Nat) : Nat := 0x70054 + 0x1000 * n
abbrev ETH_STAT (n : Nat) : Nat := 0x70058 + 0x1000 * n
abbrev ETH_PCPMAP (n : Nat) : Nat := 0x7005C + 0x1000 * n
abbrev ETH_RXDEF (n : Nat) : Nat := 0x70060 + 0x1000 * n
abbrev ETH_RING_IRQ (n : Nat) : Nat := 0x70064 + 0x1000 * n
abbrev ETH_RING_MASK (n : Nat) : Nat := 0x70068 + 0x1000 * n
abbrev ETH_PAUSE_LEFT (n : Nat) : Nat := 0x7006C + 0x1000 * n
abbrev ETH_FLT_A (n f : Nat) : Nat := 0x70080 + 0x1000 * n + 8 * f
abbrev ETH_FLT_B (n f : Nat) : Nat := 0x70084 + 0x1000 * n + 8 * f
abbrev ETH_GCL_CFG (n : Nat) : Nat := 0x70100 + 0x1000 * n
abbrev ETH_GCL_LEN (n : Nat) : Nat := 0x70104 + 0x1000 * n
abbrev ETH_GCL_CYCLE (n : Nat) : Nat := 0x70108 + 0x1000 * n
abbrev ETH_GCL_BASE (n : Nat) : Nat := 0x7010C + 0x1000 * n
abbrev ETH_GCL_CMD (n : Nat) : Nat := 0x70110 + 0x1000 * n
abbrev ETH_GCL_SEL (n : Nat) : Nat := 0x70114 + 0x1000 * n
abbrev ETH_GCL_DATA (n : Nat) : Nat := 0x70118 + 0x1000 * n
abbrev ETH_GCL_NOW (n : Nat) : Nat := 0x7011C + 0x1000 * n
abbrev ETH_TX_BASE_LO (n k : Nat) : Nat := 0x70200 + 0x1000 * n + 32 * k
abbrev ETH_TX_BASE_HI (n k : Nat) : Nat := 0x70204 + 0x1000 * n + 32 * k
abbrev ETH_TX_CFG (n k : Nat) : Nat := 0x70208 + 0x1000 * n + 32 * k
abbrev ETH_TX_TAIL (n k : Nat) : Nat := 0x7020C + 0x1000 * n + 32 * k
abbrev ETH_TX_HEAD (n k : Nat) : Nat := 0x70210 + 0x1000 * n + 32 * k
abbrev ETH_TX_STAT (n k : Nat) : Nat := 0x70214 + 0x1000 * n + 32 * k
abbrev ETH_TX_DROPS (n k : Nat) : Nat := 0x70218 + 0x1000 * n + 32 * k
abbrev ETH_TX_FRAMES (n : Nat) : Nat := 0x70600 + 0x1000 * n
abbrev ETH_RX_FRAMES (n : Nat) : Nat := 0x70604 + 0x1000 * n
abbrev ETH_RX_FCSERR (n : Nat) : Nat := 0x70608 + 0x1000 * n
abbrev ETH_RX_OVERSIZE (n : Nat) : Nat := 0x7060C + 0x1000 * n
abbrev ETH_RX_RUNT (n : Nat) : Nat := 0x70610 + 0x1000 * n
abbrev ETH_RX_ADDRDROP (n : Nat) : Nat := 0x70614 + 0x1000 * n
abbrev ETH_RX_FIFODROP (n : Nat) : Nat := 0x70618 + 0x1000 * n
abbrev ETH_RX_CTRL (n : Nat) : Nat := 0x7061C + 0x1000 * n
abbrev ETH_TX_LATE (n : Nat) : Nat := 0x70620 + 0x1000 * n
abbrev ETH_STATS_CLR (n : Nat) : Nat := 0x70624 + 0x1000 * n
abbrev ETH0_WAKE_CFG : Nat := 0x70800
abbrev ETH0_WAKE_STAT : Nat := 0x70804
abbrev ETH0_WAKE_DATA (k w : Nat) : Nat := 0x70840 + 80 * k + 4 * w
abbrev ETH0_WAKE_MASK_LO (k : Nat) : Nat := 0x70880 + 80 * k
abbrev ETH0_WAKE_MASK_HI (k : Nat) : Nat := 0x70884 + 80 * k
abbrev CB0_CFG : Nat := 0x75040
abbrev CB0_MAC_LO : Nat := 0x75044
abbrev CB0_MAC_HI : Nat := 0x75048
abbrev CB0_PLCA : Nat := 0x7504C
abbrev CB0_PLCA_BURST : Nat := 0x75050
abbrev CB0_STAT : Nat := 0x75054
abbrev CB0_RXDATA : Nat := 0x75058
abbrev CB0_RXLEVEL : Nat := 0x7505C
abbrev CB0_TXDATA : Nat := 0x75060
abbrev CB0_TXLEVEL : Nat := 0x75064
abbrev CB0_CMD : Nat := 0x75068
abbrev CB0_TXTIME : Nat := 0x7506C
abbrev CB0_MDIO_CMD : Nat := 0x75070
abbrev CB0_MDIO_STAT : Nat := 0x75074
abbrev CB0_TX_FRAMES : Nat := 0x75078
abbrev CB0_RX_FRAMES : Nat := 0x7507C
abbrev CB0_COLL : Nat := 0x75080
abbrev CB0_EXCESS_COLL : Nat := 0x75084
abbrev CB0_LATE_COLL : Nat := 0x75088
abbrev CB0_RX_DROP : Nat := 0x7508C
abbrev CB0_STATS_CLR : Nat := 0x75090
abbrev STRM_TXSEL : Nat := 0x74040
abbrev STRM_RXSEL : Nat := 0x74044
abbrev STRM_TSLAG : Nat := 0x74048
abbrev STRM_STATS_CLR : Nat := 0x7404C
abbrev STRM_TX_CFG : Nat := 0x74080
abbrev STRM_TX_BASE : Nat := 0x74084
abbrev STRM_TX_TMPLA : Nat := 0x74088
abbrev STRM_TX_TMPLB : Nat := 0x7408C
abbrev STRM_TX_TSOFS : Nat := 0x74090
abbrev STRM_TX_STAT : Nat := 0x74094
abbrev STRM_TX_LASTTS : Nat := 0x74098
abbrev STRM_TX_DRIFT : Nat := 0x7409C
abbrev STRM_TX_PKTS : Nat := 0x740A0
abbrev STRM_TX_UNDER : Nat := 0x740A4
abbrev STRM_RX_CFG : Nat := 0x74100
abbrev STRM_RX_BASE : Nat := 0x74104
abbrev STRM_RX_BUF : Nat := 0x74108
abbrev STRM_RX_OFS : Nat := 0x7410C
abbrev STRM_RX_IPA (w : Nat) : Nat := 0x74110 + 4 * w
abbrev STRM_RX_IPB (w : Nat) : Nat := 0x74120 + 4 * w
abbrev STRM_RX_PORTS : Nat := 0x74130
abbrev STRM_RX_SSRC : Nat := 0x74134
abbrev STRM_RX_STAT : Nat := 0x74138
abbrev STRM_RX_HSEQ : Nat := 0x7413C
abbrev STRM_RX_PKTS_A : Nat := 0x74140
abbrev STRM_RX_PKTS_B : Nat := 0x74144
abbrev STRM_RX_DUPS : Nat := 0x74148
abbrev STRM_RX_LOST : Nat := 0x7414C
abbrev STRM_RX_LATE : Nat := 0x74150
abbrev STRM_RX_EARLY : Nat := 0x74154
abbrev STRM_RX_BADPKT : Nat := 0x74158
abbrev STRM_RX_REALIGN : Nat := 0x7415C
abbrev STM_CFG (n : Nat) : Nat := 0x78040 + 0x1000 * n
abbrev STM_TXCH (n : Nat) : Nat := 0x78044 + 0x1000 * n
abbrev STM_RXCH (n : Nat) : Nat := 0x78048 + 0x1000 * n
abbrev STM_Q (n : Nat) : Nat := 0x7804C + 0x1000 * n
abbrev STM_RX_BUF (n : Nat) : Nat := 0x78050 + 0x1000 * n
abbrev STM_RX_OFS (n : Nat) : Nat := 0x78054 + 0x1000 * n
abbrev STM_STAT (n : Nat) : Nat := 0x78058 + 0x1000 * n
abbrev STM_FILL (n : Nat) : Nat := 0x7805C + 0x1000 * n
abbrev STM_RX_TICKOFS (n : Nat) : Nat := 0x78060 + 0x1000 * n
abbrev STM_RX_LASTTICK (n : Nat) : Nat := 0x78064 + 0x1000 * n
abbrev STM_TX_LASTTICK (n : Nat) : Nat := 0x78068 + 0x1000 * n
abbrev STM_CTX_CTL (n : Nat) : Nat := 0x7806C + 0x1000 * n
abbrev STM_CTX_STAT (n : Nat) : Nat := 0x78070 + 0x1000 * n
abbrev STM_CRX_POP (n : Nat) : Nat := 0x78074 + 0x1000 * n
abbrev STM_CRX_TICK (n : Nat) : Nat := 0x78078 + 0x1000 * n
abbrev STM_STATS_CLR (n : Nat) : Nat := 0x7807C + 0x1000 * n
abbrev STM_CTX (n w : Nat) : Nat := 0x78080 + 0x1000 * n + 4 * w
abbrev STM_CRX (n w : Nat) : Nat := 0x78090 + 0x1000 * n + 4 * w
abbrev STM_TX_FRAMES (n : Nat) : Nat := 0x780A0 + 0x1000 * n
abbrev STM_TX_UNDER (n : Nat) : Nat := 0x780A4 + 0x1000 * n
abbrev STM_RX_FRAMES (n : Nat) : Nat := 0x780A8 + 0x1000 * n
abbrev STM_RX_CRCERR (n : Nat) : Nat := 0x780AC + 0x1000 * n
abbrev STM_RX_FRAMEERR (n : Nat) : Nat := 0x780B0 + 0x1000 * n
abbrev STM_RX_FMTERR (n : Nat) : Nat := 0x780B4 + 0x1000 * n
abbrev STM_RX_GAPS (n : Nat) : Nat := 0x780B8 + 0x1000 * n
abbrev STM_RX_LATE (n : Nat) : Nat := 0x780BC + 0x1000 * n
abbrev STM_RX_EARLY (n : Nat) : Nat := 0x780C0 + 0x1000 * n
abbrev STM_RX_MISSED (n : Nat) : Nat := 0x780C4 + 0x1000 * n
abbrev STM_RX_RESYNCS (n : Nat) : Nat := 0x780C8 + 0x1000 * n
abbrev SPK_CFG (n : Nat) : Nat := 0x80040 + 0x1000 * n
abbrev SPK_DT (n : Nat) : Nat := 0x80044 + 0x1000 * n
abbrev SPK_MOD (n : Nat) : Nat := 0x80048 + 0x1000 * n
abbrev SPK_SENSE (n : Nat) : Nat := 0x8004C + 0x1000 * n
abbrev SPK_LOOP (n : Nat) : Nat := 0x80050 + 0x1000 * n
abbrev SPK_ILIM (n : Nat) : Nat := 0x80054 + 0x1000 * n
abbrev SPK_ISC (n : Nat) : Nat := 0x80058 + 0x1000 * n
abbrev SPK_VOL (n : Nat) : Nat := 0x8005C + 0x1000 * n
abbrev SPK_ZC (n : Nat) : Nat := 0x80060 + 0x1000 * n
abbrev SPK_CMD (n : Nat) : Nat := 0x80064 + 0x1000 * n
abbrev SPK_STAT (n : Nat) : Nat := 0x80068 + 0x1000 * n
abbrev SPK_DIAG_CFG (n : Nat) : Nat := 0x8006C + 0x1000 * n
abbrev SPK_DIAG_LIM (n : Nat) : Nat := 0x80070 + 0x1000 * n
abbrev SPK_DIAG_RES (n : Nat) : Nat := 0x80074 + 0x1000 * n
abbrev SPK_VDC (n : Nat) : Nat := 0x80078 + 0x1000 * n
abbrev SPK_IPEAK (n : Nat) : Nat := 0x8007C + 0x1000 * n
abbrev SPK_SHORTS (n : Nat) : Nat := 0x80080 + 0x1000 * n
abbrev SPK_CLIPS (n : Nat) : Nat := 0x80084 + 0x1000 * n
abbrev SPK_STATS_CLR (n : Nat) : Nat := 0x80088 + 0x1000 * n
abbrev SPKC_SA_CFG : Nat := 0x90040
abbrev SPKC_SA_EN : Nat := 0x90044
abbrev SPKC_PLAYING : Nat := 0x90048
abbrev SPKC_LATCHED : Nat := 0x9004C
abbrev SPKC_SA_F (i : Nat) : Nat := 0x90080 + 4 * i
abbrev FG_STATE : Nat := 0x04040
abbrev FG_QCAUSE : Nat := 0x04044
abbrev FG_FAULT : Nat := 0x04048
abbrev FG_CMD : Nat := 0x0404C
abbrev FG_CFG : Nat := 0x04050
abbrev FG_WDOG : Nat := 0x04054
abbrev FG_HIST : Nat := 0x04058
abbrev FG_PINS : Nat := 0x0405C
abbrev FG_OVERRUNS : Nat := 0x04060
abbrev FG_WDOG_TRIPS : Nat := 0x04064
abbrev FG_FEEDGAP : Nat := 0x04068
abbrev FG_STATS_CLR : Nat := 0x0406C
abbrev GUARD_SEAL : Nat := 0x16040
abbrev GUARD_STAT : Nat := 0x16044
abbrev GUARD_CRC : Nat := 0x16048
abbrev GUARD_CFG : Nat := 0x1604C
abbrev GUARD_TRIP_SEL : Nat := 0x16050
abbrev GUARD_TRIP_INFO : Nat := 0x16054
abbrev GUARD_DCMEAN : Nat := 0x16058
abbrev GUARD_TRIP (w : Nat) : Nat := 0x16100 + 4 * w
abbrev GUARD_LOCK (w : Nat) : Nat := 0x16180 + 4 * w
abbrev GUARD_G (g : Nat) : Nat := 0x16400 + 4 * g
abbrev MGLD_CFG : Nat := 0x7C040
abbrev MGLD_ROLE : Nat := 0x7C044
abbrev MGLD_CMD : Nat := 0x7C048
abbrev MGLD_EPOCH : Nat := 0x7C04C
abbrev MGLD_PEER_TICK : Nat := 0x7C050
abbrev MGLD_PEER_SHORT : Nat := 0x7C054
abbrev MGLD_BUDGET : Nat := 0x7C058
abbrev MGLD_REC_LEN : Nat := 0x7C05C
abbrev MGLD_REC_MAX : Nat := 0x7C060
abbrev MGLD_UNMIRRORED_TICKS : Nat := 0x7C064
abbrev MGLD_RX_CRCERR : Nat := 0x7C068
abbrev MGLD_RX_LATE : Nat := 0x7C06C
abbrev MGLD_RX_EPOCHERR : Nat := 0x7C070
abbrev MGLD_JOVF_COUNT : Nat := 0x7C074
abbrev MGLD_REPLAY_ERR : Nat := 0x7C078
abbrev MGLD_FAILOVERS : Nat := 0x7C07C
abbrev MGLD_FO_SHORT : Nat := 0x7C080
abbrev MGLD_STATS_CLR : Nat := 0x7C084
abbrev MGLD_CLKHOLD : Nat := 0x7C088
abbrev MGLD_BUF_OFS (b : Nat) : Nat := 0x7C0C0 + 16 * b
abbrev MGLD_BUF_BANKS_LO (b : Nat) : Nat := 0x7C0C4 + 16 * b
abbrev MGLD_BUF_BANKS_HI (b : Nat) : Nat := 0x7C0C8 + 16 * b
abbrev MGLD_PAIR (i : Nat) : Nat := 0x7C100 + 4 * i
abbrev MGLD_WIN_BASE (k : Nat) : Nat := 0x7C200 + 8 * k
abbrev MGLD_WIN_SIZE (k : Nat) : Nat := 0x7C204 + 8 * k
abbrev MGLD_JWIN_BASE (j : Nat) : Nat := 0x7C400 + 8 * j
abbrev MGLD_JWIN_SIZE (j : Nat) : Nat := 0x7C404 + 8 * j
abbrev DRAM_CFG (n : Nat) : Nat := 0x0D040 + 0x1000 * n
abbrev DRAM_TIM0 (n : Nat) : Nat := 0x0D044 + 0x1000 * n
abbrev DRAM_TIM1 (n : Nat) : Nat := 0x0D048 + 0x1000 * n
abbrev DRAM_CMD (n : Nat) : Nat := 0x0D04C + 0x1000 * n
abbrev DRAM_STAT (n : Nat) : Nat := 0x0D050 + 0x1000 * n
abbrev DRAM_TEMP (n : Nat) : Nat := 0x0D054 + 0x1000 * n
abbrev DRAM_RT_CFG (n : Nat) : Nat := 0x0D058 + 0x1000 * n
abbrev DRAM_RT_LAST (n : Nat) : Nat := 0x0D05C + 0x1000 * n
abbrev DRAM_PAUSES (n : Nat) : Nat := 0x0D060 + 0x1000 * n
abbrev DRAM_PAUSE_OUT (n : Nat) : Nat := 0x0D064 + 0x1000 * n
abbrev DRAM_TRAIN_FAILS (n : Nat) : Nat := 0x0D068 + 0x1000 * n
abbrev DRAM_PAYOFFS (n : Nat) : Nat := 0x0D06C + 0x1000 * n
abbrev DRAM_SCHED (n : Nat) : Nat := 0x0D070 + 0x1000 * n
abbrev DRAM_STATS_CLR (n : Nat) : Nat := 0x0D074 + 0x1000 * n
abbrev SYS_CTRL : Nat := 0x00040
abbrev SYS_CHIP : Nat := 0x00044
abbrev SYS_BOOT : Nat := 0x00048
abbrev SYS_TEMP : Nat := 0x0004C
abbrev SYS_TEMP_WARN : Nat := 0x00050
abbrev SYS_UID_LO : Nat := 0x00054
abbrev SYS_UID_HI : Nat := 0x00058
abbrev RST_RESET_CAUSE : Nat := 0x01040
abbrev RST_SWRST : Nat := 0x01044
abbrev RST_IGNORED : Nat := 0x01048
abbrev RST_TO_SEL : Nat := 0x0104C
abbrev RST_TO_VAL : Nat := 0x01050
abbrev RST_BLK_LAST : Nat := 0x01054
abbrev RST_PEER : Nat := 0x01058
abbrev RST_FORCED_COUNT : Nat := 0x0105C
abbrev CLKPWR_PSTATE : Nat := 0x02040
abbrev CLKPWR_PSTAT : Nat := 0x02044
abbrev CLKPWR_PLL : Nat := 0x02048
abbrev CLKPWR_WAKE_CFG : Nat := 0x0204C
abbrev CLKPWR_WAKE_CAUSE : Nat := 0x02050
abbrev CLKPWR_RETAIN (i : Nat) : Nat := 0x02060 + 4 * i
abbrev FUSE_STAT : Nat := 0x03040
abbrev FUSE_RESET_MAP : Nat := 0x03044
abbrev FUSE_BOOT : Nat := 0x03048
abbrev FUSE_MAC_LO : Nat := 0x0304C
abbrev FUSE_MAC_HI : Nat := 0x03050
abbrev FUSE_KEY (w : Nat) : Nat := 0x03060 + 4 * w
abbrev FUSE_PGM_ADDR : Nat := 0x03080
abbrev FUSE_PGM_DATA : Nat := 0x03084
abbrev FUSE_PGM_CMD : Nat := 0x03088
abbrev FUSE_PGM_STAT : Nat := 0x0308C
abbrev HOST_CFG : Nat := 0x14040
abbrev HOST_MBOX_IN : Nat := 0x14044
abbrev HOST_MBOX_OUT : Nat := 0x14048
abbrev HOST_MBOX_LEVEL : Nat := 0x1404C
abbrev HOST_ERR_ADDR : Nat := 0x14050
abbrev BOOTQ_CFG : Nat := 0x15040
abbrev BOOTQ_XFER : Nat := 0x15044
abbrev BOOTQ_ADDR : Nat := 0x15048
abbrev BOOTQ_LEN : Nat := 0x1504C
abbrev BOOTQ_DATA : Nat := 0x15050
abbrev BOOTQ_STAT : Nat := 0x15054
abbrev ETH_RX_BASE_LO (n k : Nat) : Nat := 0x70400 + 0x1000 * n + 32 * k
abbrev ETH_RX_BASE_HI (n k : Nat) : Nat := 0x70404 + 0x1000 * n + 32 * k
abbrev ETH_RX_CFG (n k : Nat) : Nat := 0x70408 + 0x1000 * n + 32 * k
abbrev ETH_RX_TAIL (n k : Nat) : Nat := 0x7040C + 0x1000 * n + 32 * k
abbrev ETH_RX_HEAD (n k : Nat) : Nat := 0x70410 + 0x1000 * n + 32 * k
abbrev ETH_RX_STAT (n k : Nat) : Nat := 0x70414 + 0x1000 * n + 32 * k
abbrev ETH_RX_DROPS (n k : Nat) : Nat := 0x70418 + 0x1000 * n + 32 * k

end Sys2Proof.Machine.Reg
end

