-- ==== Sys2Proof/Config.lean ====
section
/-! DEFINITION. What the spec leaves open, as constants without a value: nothing can be proved of them but what
holds for every value. -/

namespace Sys2Proof

/-- The `n`th free value of `w` bits: an instruction that leaves a value undefined, or states no result, takes
the next one (State's counter names it; log entry 4). -/
opaque Config.freeBits (w n : Nat) : BitVec w

/-- What an unwritten byte reads as after its region's contents became undefined for the `gen`th time (R95;
log entry 3). -/
opaque Config.undefByte (gen addr : Nat) : Byte

/-- The bytes of the Boot ROM, whose image the spec does not give (R629; log entry 7). -/
opaque Config.bootRom (addr : Nat) : Byte

/-- Whether the gain of position `k` of 512 of a Route Fade, which R254 computes to 24 fractional bits, is its
exact value rounded up or down there (log entry 9). -/
opaque Config.fadeUp (k : Nat) : Bool

/-- The error of a generator's sine in units of 2^-31, of which R261 gives only the bound 2^-24 (log entry 9). -/
opaque Config.sineErr (phase level : Word) : BitVec 9

/-- The filter of pink noise, of which R261 gives only the slope: what it makes of a white word, and what it remembers of it
(log entry 9). -/
opaque Config.pinkOut (memory : BitVec 256) (white : Word) : Word
opaque Config.pinkNext (memory : BitVec 256) (white : Word) : BitVec 256

/-- Word `w` of copy A or B of the fuse array as it left the factory, and how many words a copy holds (R620; log entry
24). -/
opaque Config.fuseWord (copyB : Bool) (w : Nat) : Word
opaque Config.fuseCount : Nat

/-- The words of SYS_CHIP, SYS_UID_LO and SYS_UID_HI, loaded from fuses (R10, R638; log entry 24). -/
opaque Config.dieWord (i : Nat) : Word

/-- Whether a PureEd25519 signature under RFC 8032 verifies (R631): key, message, signature (log entry 25). -/
opaque Config.ed25519 (key msg sig : List Byte) : Bool

end Sys2Proof
end

