-- ==== Sys2Proof/Machine/Table.lean ====
section
/-! DEFINITION. Sparse tables: what a large array of the block holds, as a list of (index, value) pairs with
rising indices; an index that the list does not name holds a default. -/

namespace Sys2Proof.Machine

/-- A sparse table of values by index. -/
abbrev Tbl (α : Type) := List (Nat × α)

/-- The value at index `k`: the listed one, else the default `d`. -/
def look {α : Type} (d : α) : Tbl α → Nat → α
  | [], _ => d
  | (j, v) :: t, k => if k = j then v else if k < j then d else look d t k

/-- The table with `v` at index `k`. -/
def put {α : Type} : Tbl α → Nat → α → Tbl α
  | [], k, v => [(k, v)]
  | (j, u) :: t, k, v =>
    if k = j then (k, v) :: t
    else if k < j then (k, v) :: (j, u) :: t
    else (j, u) :: put t k v

/-- The table without its entries whose index satisfies `p`: those read the default again. -/
def drop {α : Type} (p : Nat → Bool) (t : Tbl α) : Tbl α := t.filter (fun e => !p e.1)

/-- Whether the indices of a table rise strictly. -/
def rising {α : Type} : Tbl α → Bool
  | [] => true
  | [_] => true
  | a :: b :: t => a.1 < b.1 && rising (b :: t)

/-- `f` folded over 0, …, n - 1. -/
def forUpTo {σ : Type} (n : Nat) (f : Nat → σ → σ) (s : σ) : σ :=
  (List.range n).foldl (fun s i => f i s) s

/-- The indices below `n` that satisfy `p`, rising. -/
def indices (n : Nat) (p : Nat → Bool) : List Nat := (List.range n).filter p

end Sys2Proof.Machine
end

