-- ==== Sys2Proof/Machine/State.lean ====
section
/-! DEFINITION. The state of the block as plain data: its registers, its memories, what the chapters give it
beside its registers, and the queue of commands that wait. -/

namespace Sys2Proof.Machine

/-- A region whose contents became undefined (R95 and the rules that lose contents): unlisted bytes in it read
`Config.undefByte gen`. -/
structure Hole where
  lo  : Nat
  len : Nat
  gen : Nat
deriving DecidableEq, Repr

/-- The memories of the address map (R42), by physical address: listed bytes, strictly rising, and the regions
that hold undefined contents, latest first. -/
structure Memory where
  cells : List Host.Cell
  holes : List Hole
deriving DecidableEq, Repr

/-- The time base (R387, R388, R391): PTP time, short time, the epoch and the active increment. -/
structure TbSt where
  sec     : BitVec 48
  ns      : Word
  short   : Word
  epoch   : Word
  frac    : Word
  incInt  : BitVec 4
  incFrac : Word
deriving DecidableEq, Repr

/-- One source of the Signal Hub (R62, R66, R68): the level with which a level source last asserted, until it falls,
pending, the target it is in service for, the count and the time of its record. -/
structure HubSrc where
  high  : Bool
  pend  : Bool
  insvc : Option (Fin 3)
  count : BitVec 8
  time  : Word
deriving DecidableEq, Repr

/-- The Signal Hub: its sources, the WCLK_IN edge count (R70), and how often each tick event (0 to 5) and each
event line (16 + e) has pulsed, which is how a waiting Courier channel knows of a pulse (R290). -/
structure HubSt where
  srcs  : Tbl HubSrc
  wclk  : Nat
  pulse : Tbl Nat
deriving DecidableEq, Repr

/-- One bank's transitions (R79, R80): the request that waits for the accesses accepted before it, with those accesses
(transaction and first beat), the state the bank is changing to, the Off-leaving request that waits for a slot, and the
write held during a transition. Its present state is BANK_CURk. -/
structure BankReq where
  ready : Option (Fin 4)
  after : List (Nat × Nat)
  trans : Option (Fin 4)
  wait  : Option (Fin 4)
  held  : Option (Fin 4)
deriving DecidableEq, Repr

/-- The banks and the self-test (R91 to R94): whether it runs, the banks it selected, the banks it completed,
and the first failing offset of each bank that failed. -/
structure BankSt where
  reqs   : Tbl BankReq
  bist   : Bool
  sel    : List Nat
  tested : List Nat
  fails  : Tbl Nat
deriving DecidableEq, Repr

/-- One queue of the Queue Fabric: its descriptor (R127), its counts (R104), what the Ledger keeps for it
(R112 to R116), the endpoint that waits (R109), the bank mover's place in the ring and the words of its work left, as producer
and as consumer (R118), and whether the next block, or the present one, is withheld (R217). `vis` is COMMIT as CCRED sees
it, which follows at the engine boundary (R108). -/
structure Queue where
  d0       : Word
  d1       : Word
  d2       : Word
  d3       : Word
  en       : Bool
  push     : Word
  pop      : Word
  commit   : Word
  vis      : Word
  exp      : Word
  skip     : Word
  dropped  : Word
  under    : Word
  pwait    : Bool
  cwait    : Bool
  pheld    : Option Word
  w1       : Bool
  lagLeft  : Nat
  checked  : Bool
  passed   : Bool
  settled  : Bool
  expOld   : Word
  pos      : Nat
  work     : Nat
  cpos     : Nat
  cwork    : Nat
  withhold : Bool
  withheld : Bool
deriving DecidableEq, Repr

/-- The fade state of a consumer of queue words without a fade of its own (R217, R218, R225): the samples that its
Overrun Fade starts from, the last sample of each channel, a pending fade-in, and whether the present block fades in. -/
structure BlockFade where
  base : Tbl Word
  last : Tbl Word
  pend : Bool
  fin  : Bool
deriving DecidableEq, Repr

/-- The Queue Fabric. -/
structure QfSt where
  qs : Tbl Queue
deriving DecidableEq, Repr

/-- One path of a schedule table (R205): its MECs and its queues. -/
structure LedgerPath where
  mecs   : Word
  queues : List Nat
deriving DecidableEq, Repr

/-- A loaded schedule table (R201 to R205): the checked MECs, the ENTRY values it loads, its paths. -/
structure LedgerTable where
  chk   : Word
  loads : List (Nat × Nat)
  paths : List LedgerPath
deriving DecidableEq, Repr

/-- The Ledger: the governing table, the table that governs from the next boundary, the address last loaded
(R208), and the present window: the late MECs, whether it is checked, its verdict, and whether the output commit
advanced a queue. -/
structure LedgerSt where
  gov      : LedgerTable
  next     : Option LedgerTable
  addr     : Option Word
  late     : Word
  chk      : Bool
  ok       : Bool
  advanced : Bool
deriving DecidableEq, Repr

/-- The Tick Unit beside its registers: whether a start was accepted, a stop or a restart that waits for the
engine boundary (R34), when EN took effect and the instant that START names, once that is known (R32), whether a strobe
at or after that instant was passed over, TICK_COUNT (R18), whether this is tick L (R33), the audio boundaries since
E(L), the sample index of the next strobe, whether engine input ports feed (R257), whether the present N strobes are a
block (R34), the OFS values sampled at the boundary (R29), the length fixed for the present tick (R16), the lengths of
the last 256 ticks (R39), the rate of the strobes and the one that the next strobe brings (R671), and the SNAP bits of
the PATCH and DMIX pages sampled at CW+0 (R60). -/
structure TickSt where
  on        : Bool
  stopping  : Bool
  restart   : Bool
  enAt      : Word
  named     : Option Word
  skipped   : Bool
  count     : BitVec 48
  firstTick : Bool
  audios    : Nat
  idx       : Nat
  feed      : Bool
  block     : Bool
  ofs0      : Nat
  ofs1      : Nat
  len       : Nat
  lengths   : List Nat
  rate      : Nat
  rateNext  : Nat
  snapPatch : Bool
  snapDmix  : Bool
deriving DecidableEq, Repr

/-- A write to a coefficient bank that waits for CW+544 (R228): the offset in the MEC's local window and each
byte to write there. -/
structure HeldWrite where
  ofs   : Nat
  bytes : List (Nat × Byte)
deriving DecidableEq, Repr

/-- An armed flip (R229, R230): its tick, its mask, PAGE_LAG, and whether its banks have flipped. -/
structure FlipArm where
  tick  : BitVec 48
  mask  : Word
  lag   : Bool
  begun : Bool
deriving DecidableEq, Repr

/-- A pending glide arm (R235). -/
structure GlideArm where
  tick : BitVec 48
  mask : Word
  g    : Nat
deriving DecidableEq, Repr

/-- Snapdragon and Glide: the armed flip, the pending glide arm, the tick last recorded (R230), the held writes of
each MEC, the MECs to which a flip and those to which a Glide step of the present window applies (R228), and whether the
window lies past CW+543. -/
structure SnapSt where
  flip  : Option FlipArm
  glide : Option GlideArm
  last  : BitVec 48
  held  : Tbl (List HeldWrite)
  flips : Word
  steps : Word
  past  : Bool
deriving DecidableEq, Repr

/-- One sink of the Patch Matrix (R254, R255): the source it hears or fades in, the source it fades out, the
length and the position of its fade, and the pending change (source, length). -/
structure SinkSt where
  b    : Nat
  a    : Nat
  len  : Nat
  pos  : Nat
  pend : Option (Nat × Nat)
deriving DecidableEq, Repr

/-- A generator (R261): its phase, its LFSR, its strobe count since TYPE was written, and what its pink filter remembers. -/
structure GenSt where
  phase : Word
  lfsr  : Word
  count : Nat
  pink  : BitVec 256
deriving DecidableEq, Repr

/-- An engine output port (R259): whether its present block is missing, whether it makes its pops all the same, whether an
underrun gap is open, whether the present block fades out or in, and the last sample of each channel. -/
structure EopSt where
  missing : Bool
  pops    : Bool
  gap     : Bool
  fade    : Bool
  fadeIn  : Bool
  last    : Tbl Word
deriving DecidableEq, Repr

/-- The Patch Matrix: its two select tables (R252), the exchange that applies from the next audio boundary (R26),
its sinks, generators and engine output ports, and the words its sources and sinks hold at the last strobe. -/
structure PatchSt where
  live   : Tbl Word
  shadow : Tbl Word
  flip   : Bool
  sinks  : Tbl SinkSt
  gens   : Tbl GenSt
  eops   : Tbl EopSt
  src    : Tbl Word
  sink   : Tbl Word
deriving DecidableEq, Repr

/-- A gain under zero-crossing stepping (R267): the applied gain, the target that waits, and when the timer of
the pending step started. -/
structure ZcSt where
  gain : Word
  pend : Option Word
  since : Word
deriving DecidableEq, Repr

/-- The Direct Mixer: its two gain tables (R269), the exchange that applies from the next audio boundary, its
crosspoints by 64j + i, the input words x_i and the samples before them, the exact sums S_j (R262), and the
DMIX_INi and DMIX_OUTj in force (R265). -/
structure DmixSt where
  live   : Tbl Word
  shadow : Tbl Word
  flip   : Bool
  xp     : Tbl ZcSt
  x      : Tbl Word
  s      : Tbl Int
  inCfg  : Tbl Word
  outCfg : Tbl Word
  delta  : Tbl Int
deriving DecidableEq, Repr

/-- Where a core's result goes (R131, R188): data registers by physical index, accumulators, pointers, modifiers,
circular bases and lengths, loop counters, MODE, SSTAT, RRB; `flag` sets one sticky bit (R140). -/
inductive Dest where
  | d (i : Nat) | a (i : Nat) | p (i : Nat) | m (i : Nat) | b (i : Nat) | l (i : Nat)
  | lc (i : Nat) | mode | sstat | rrb | flag (i : Nat)
deriving DecidableEq, Repr

/-- A result in flight (R143): the bundle count from which it can be read, its destination, its value. -/
structure Flight where
  due  : Nat
  dest : Dest
  val  : BitVec 80
deriving DecidableEq, Repr

/-- A hardware loop level (R131, R153), its bundles as bundle indices. -/
structure LoopLevel where
  active : Bool
  start  : Nat
  stop   : Nat
  step   : Nat
  count  : BitVec 16
deriving DecidableEq, Repr

/-- A remote access of a core (R152): the bundle that issues it, the core address it goes to, its words for a write,
the register each word of a read loads (none where a later half of the bundle wins, R185), and the bundle count from which those can be read. -/
structure RemoteAccess where
  pc    : Nat
  addr  : Word
  write : Bool
  data  : List Word
  dests : List (Option Dest)
  due   : Nat
deriving DecidableEq, Repr

/-- What holds a core (R109, R152, R158, R198): the queue whose credit it awaits; its remote accesses, with the one
that failed on a Steward (R162); the event; a Steward's interrupt. A QUEUE bundle awaits credit to push or to pop. -/
inductive CoreHold where
  | none
  | credit (q : Nat) (push : Bool)
  | remote (l : List RemoteAccess) (failed : Option RemoteAccess)
  | event (e : Nat)
  | interrupt
deriving DecidableEq, Repr

/-- What stops a core's issue until its results are delivered (R156, R160). -/
inductive CoreDrain where
  | none | endt | halt
deriving DecidableEq, Repr

/-- One core beside its page (R131, R161, R164): registers, loop levels, results in flight by issued bundles, the
target of a taken branch and how many delay bundles come before it, an undefined sequence (R146, R196), the hold,
the supervisor registers, the staged bits of the register window, the registers and bytes written since the last
release (R221), the ecyc at which the hold began in its tick and those held in the tick, a Steward's cached bundles (R163),
the hold that follows the remote accesses of the bundle (R158, R198), the accesses that a force-back or CTRL.EN = 0 left
on their way (R170, R220), whether the bundle at PC has halted the core at its breakpoint (R160), the ecyc from the last
release to the start of the tick (R171), the Steward cycles left to the watchdog (R167), and the bundles that narrow writes
have changed in part, with the bytes rewritten so far (R89). -/
structure CoreSt where
  d       : Tbl Word
  a       : Tbl (BitVec 80)
  p       : Tbl Word
  m       : Tbl Word
  b       : Tbl Word
  l       : Tbl Word
  mode    : Word
  sstat   : Word
  rrb     : Nat
  pc      : Nat
  loops   : Tbl LoopLevel
  flight  : List Flight
  issued  : Nat
  branch  : Option (Nat × Nat)
  lost    : Bool
  hold    : CoreHold
  drain   : CoreDrain
  step    : Bool
  status  : Word
  estat   : Word
  epc     : Word
  cause   : Word
  badaddr : Word
  svbase  : Word
  stage1  : Word
  stage2  : Word
  dirty   : List Dest
  dirtyM  : List Nat
  holdAt  : Nat
  held    : Nat
  icache  : Tbl (List Word)
  next    : CoreHold
  orphans : List RemoteAccess
  past    : Bool
  age     : Nat
  wdog    : Nat
  torn    : Tbl (List Nat)
deriving DecidableEq, Repr

/-- One Courier channel beside its registers: the instruction that it executes, how much of it is done (bytes of a MOVE,
elements of a GATHER or SCATTER), the end of a MOVE's burst in progress (R284), whether the instruction has started, the
words taken from its source side and not yet written, the bytes of its index table read so far (R288), the pulses of a
WAIT's event at its start, a STOP or FENCE that awaits responses, and Plain Mode under R93. -/
structure CurChan where
  instr   : BitVec 64
  limit   : Nat
  done    : Nat
  started : Bool
  popped  : List Word
  table   : List Byte
  mark    : Nat
  stop    : Bool
  fence   : Bool
  bist    : Bool
deriving DecidableEq, Repr

/-- The Courier (R275, R299): its channels, and forced Plain Mode since a CHIP or SYSTEM reset and, page by page,
since a BLOCK reset. -/
structure CurSt where
  chans : Tbl CurChan
  boot  : Bool
  block : Tbl Bool
deriving DecidableEq, Repr

/-- A consumer that plays blocks of a queue under R338 and R339: 0 nothing, 1 a block, 2 the 32-sample fade, 3 the
fade of a withheld block; the words of the block left, the sample of the fade and the samples that it starts from, the
samples of a fade-in played (32: none), whether the fade-in is that of R218, and the last sample of each channel. -/
structure FeedSt where
  mode  : Nat
  words : List Word
  k     : Nat
  fin   : Nat
  finN  : Bool
  base  : Tbl Word
  last  : Tbl Word
deriving DecidableEq, Repr

/-- An output slot whose Direct Mixer load in the frame under way has yet to come (R263, R266): the slot, the ports whose
words of this frame it awaits, those whose words have come. -/
structure DmLoad where
  slot : Nat
  wait : List Nat
  got  : List Nat
deriving DecidableEq, Repr

/-- Which command has met the frame sync of the frame under way: none, that of the frame sent, that of the frame received
(R336; log entry 131). -/
inductive FrameEdge where
  | none | sent | received
deriving DecidableEq, Repr

/-- A serial audio port beside its registers: the latched rate (R325), a clock loss and a pending reassignment (R340,
R341), the last input words and the samples of their fade-out and fade-ins (R339), the output feed, the applied
trims with the values they multiply (R332), the words formed for its slots and the words on DOUT, the frame sync met, the
writes of each mask since the last one with the value before (R336), the loads to come (R263), and the short time of the
last frame's start (R335). -/
structure SapSt where
  rate   : Nat
  lost   : Bool
  back   : Bool
  inp    : Tbl Word
  inK    : Nat
  inFin  : Nat
  outFin : Nat
  feed   : FeedSt
  trims  : Tbl ZcSt
  sel    : Tbl Word
  out    : Tbl Word
  dout   : Tbl Word
  edge   : FrameEdge
  inWr   : List (Word × Word)
  outWr  : List (Word × Word)
  due    : List DmLoad
  start  : Word
deriving DecidableEq, Repr

/-- An AES3 receiver and transmitter beside their registers: the status and user bits collected since the last Z
preamble (R345), the mutes (R346), the input words and their fades, the output feed, the trims, the active copies of
status, user and validity bits with a pending commit (R347), the frame of the block, the words sent, the previous sample of
each channel (R344), whether the sources were live when LOCK was lost (R343), and the short times of the last frame's start
and of the block's (R335). -/
structure AesSt where
  cs     : Tbl (List Bool)
  user   : Tbl (List Bool)
  naCs   : Bool
  naPre  : Bool
  inp    : Tbl Word
  fading : Bool
  back   : Bool
  inK    : Nat
  inFin  : Nat
  feed   : FeedSt
  trims  : Tbl ZcSt
  sel    : Tbl Word
  out    : Tbl Word
  dout   : Tbl Word
  active : Tbl Word
  commit : Bool
  frame  : Nat
  prev   : Tbl Word
  live   : Bool
  start  : Word
  blk    : Word
deriving DecidableEq, Repr

/-- An ASRC group: the samples of its fade-in, its fade-out and the last output words (R349), and for how many strobes each
channel's input has been zero. -/
structure AsrcSt where
  fin  : Nat
  k    : Nat
  last : Tbl Word
  quiet : Tbl Nat
deriving DecidableEq, Repr

/-- An event of Jack Sense (R353): EVT_INFO and EVT_TIME. -/
structure JackEvent where
  info : Word
  time : Word
deriving DecidableEq, Repr

/-- A jack: the classes of the rounds of the present set, how many sets have been made, whether it classifies, when
that began, the button state that is being debounced (0 released, 1 + k button k) and when it began. -/
structure JackChan where
  rounds : List Nat
  sets   : Nat
  busy   : Bool
  since  : Word
  code   : Nat
  first  : Word
deriving DecidableEq, Repr

/-- Jack Sense: its jacks, its event FIFO with an overflow since the last entry (R353), and its raw FIFO. -/
structure JackSt where
  jacks : Tbl JackChan
  evts  : List JackEvent
  ovf   : Bool
  raws  : List Nat
deriving DecidableEq, Repr

/-- Aster beside its registers (R366 to R383): the selected reference, its build-out, consecutive good intervals and
wait-to-restore times left in ms by reference, intervals within the lock window, a recalibration, the DCO offsets of
LOCKED intervals with their ms, latest first (R376), whether REF10's fill stayed in its window in this interval, the
last edges of the frame source, how many came since a miss, whether one was missed, the target time of the next
FRAME_OUT pulse and the time of the last. -/
structure AsterSt where
  sel     : Option Nat
  build   : Bool
  good    : Tbl Nat
  wtr     : Tbl Nat
  part    : List Nat
  meas    : Tbl Word
  locks   : Nat
  lead    : Option (Int × Int)
  moved   : Bool
  recal   : Bool
  history : List Int
  bsOk    : Bool
  bsErr   : Int
  edges   : List Word
  seen    : Nat
  missed  : Bool
  due     : Option Word
  frameT  : Word
deriving DecidableEq, Repr

/-- The audio PLLs and the clock outputs (R363, R382): where each of APLL_A and APLL_B stands in its count of 2,048
cycles, which of WCLK_OUT0, WCLK_OUT1, MCLK_OUT0 and MCLK_OUT1 (0 to 3) have begun their first period, and for how many
ns PPS_OUT and FRAME_OUT still are high. -/
structure ClkSt where
  a     : Nat
  b     : Nat
  on    : List Nat
  pps   : Nat
  frame : Nat
deriving DecidableEq, Repr

/-- A serial lane beside its registers: the candidate alignment and the consecutive valid headers at it (R412), which
of the last headers in LOCKED were invalid, latest first, when the lane last entered CDR, whether the frequency
estimate is kept (R416), the transmitter's fast-exit idle, its training burst and an IDLE_ENTER that waits for the
burst's end (R417), the last 58 payload bits received (R406), and the block last delivered to the port (R414). -/
structure LaneSt where
  align : Nat
  run   : Nat
  win   : List Bool
  cdrAt : Nat
  kept  : Bool
  fast  : Bool
  burst : Bool
  want  : Bool
  scr   : BitVec 58
  got   : Option (BitVec 2 × BitVec 64)
deriving DecidableEq, Repr



/-- A DRAM controller beside its registers (R595 to R606): the open row of each bank, the place of the per-bank
rotation, an MR4 reading that a pause holds back, the pending self-refresh entry and the cause of the present one
(1 Quiet, 2 ENGINE reset, 3 another reset, 4 Listen, 5 IDLE_REQ; 0 none), whether it may leave by itself, a RESUME
that runs, and whether a due pause may start in the present window. -/
structure DramSt where
  rows   : Tbl Nat
  rot    : Nat
  mr4    : Option (BitVec 5 × Nat)
  want   : Nat
  cause  : Nat
  go     : Bool
  resume : Bool
  slot   : Bool
deriving DecidableEq, Repr

/-- A part of a transaction at one target port (R313): its master, the transaction's number, its target, its beats,
its QoS and the short time since when it is at the head of its port's queue (R314), or was accepted (R595). -/
structure MtxPart where
  master : Nat
  seq    : Nat
  target : Nat
  lo     : Nat
  n      : Nat
  qos    : Nat
  since  : Word
deriving DecidableEq, Repr

/-- An issued transaction without its response (R313, R319): the address of each beat under the mapping with which it
was decoded (R48), the target ports of its parts, its parts not yet served, the beats that failed with their outcomes
(1 SLVERR, 2 DECERR), and its read data by byte. -/
structure MtxOpen where
  seq     : Nat
  txn     : Txn
  addrs   : List Nat
  targets : List Nat
  left    : Nat
  fails   : Tbl Nat
  data    : Tbl Byte
deriving DecidableEq, Repr

/-- The bus matrix beside its registers (R311 to R320): the next number, the open transactions, the parts not granted
and those accepted but not served, the transactions that a limit holds back, and the master last granted at each
target. -/
structure MtxSt where
  seq  : Nat
  opn  : List MtxOpen
  wait : List MtxPart
  acc  : List MtxPart
  held : List Txn
  last : Tbl Nat
deriving DecidableEq, Repr



/-- A transmit frame in the FIFO (R438, R443): its ring, its descriptors with their IRQ bits, its bytes without FCS,
its launch time and whether it may leave (that time has come, or it is late and sent all the same), whether it is late,
whether it has reached the head of its ring, and the flags with which it closes unsent (0: it is to be sent). -/
structure EthTx where
  ring   : Nat
  descs  : List (Nat × Bool)
  bytes  : List Byte
  launch : Option Word
  due    : Bool
  late   : Bool
  atHead : Bool
  dead   : Word
deriving DecidableEq, Repr

/-- A received frame on its way to a ring (R444, R446): the ring, the bytes to place, the flags of its descriptors,
its stamp. -/
structure EthRx where
  ring  : Nat
  bytes : List Byte
  flags : Word
  stamp : Word
deriving DecidableEq, Repr

/-- A gate list (R441, R442): its entries in use, its cycle, and its start. -/
structure GateList where
  len   : Nat
  cycle : Nat
  start : Word
deriving DecidableEq, Repr

/-- An Ethernet port beside its registers: the transmit FIFO, the packets of streams by class (R473), the frame on the
line (its stream bytes, or a ring frame) with its transmit stamp (R396), the ring last served in each class (R439), the receive FIFO, the pause timers
(the PAUSE timer's quanta and its start) and those that wait for the frame on the line, each a class mask with its
quanta (R447), both gate lists' entries, the list that runs with its present entry and that entry's start, and the
armed one. -/
structure EthSt where
  txq     : List EthTx
  strm    : List (Nat × List Byte)
  sending : Option EthTx
  strmOut : Option (List Byte)
  sentAt  : Word
  rr      : Tbl Nat
  rxq     : List EthRx
  quanta  : Nat
  pauseAt : Word
  waiting : List (Option Nat × Nat)
  gates   : Tbl Word
  list    : Option GateList
  entry   : Nat
  entryAt : Word
  armed   : Option GateList
deriving DecidableEq, Repr

/-- CB0 beside its registers (R451 to R455): the receive words, each with whether it ends a record, the transmit words,
how many words the frame being pushed still needs, the frame in transmission with its attempts, whether it is on the
line, and the backoff slots it waits for. -/
structure Cb0St where
  rx      : List (Word × Bool)
  tx      : List Word
  need    : Nat
  frame   : Option (List Byte)
  tries   : Nat
  onLine  : Bool
  backoff : Option Nat
deriving DecidableEq, Repr



/-- A boot attempt (R629 to R634): the image bytes received by chunk, the chunk expected next, whether the ROM sends
its next acknowledgement and how many it has sent, whether the ROM waits for a source, and whether the attempt at the
second flash copy runs. -/
structure BootSt where
  chunks : Tbl (List Byte)
  next   : Nat
  acks   : Nat
  waits  : Bool
  copy2  : Bool
deriving DecidableEq, Repr

/-- Crocus, the reset controller, the fuses and the host interface beside their registers (R611 to R639): the step of
R617 that runs (0: none), the level of the reset in progress (0 CHIP, 1 SYSTEM, 2 ENGINE, 3 none), the sources held
asserted, PWREN_MAIN and PWREN_ISL, a power sequence that waits for PWRGOOD with its source, the target of a power
transition, the wakes latched during an entry (R626), the pages in a BLOCK reset with their phase (1 idle request,
2 reset) with the register writes that wait for its end, timeouts by page, the time of the last PEER_RST_OUT pulse, the fuse words blown for the next load, the two
mailboxes, the Host Port's error since the last status read, the BOOTQ FIFO and the boot attempt. -/
structure PwrSt where
  seq     : Nat
  level   : Nat
  held    : List Nat
  main    : Bool
  isl     : Bool
  waiting : Option Nat
  entry   : Option Nat
  latched : List Nat
  blk     : Tbl Nat
  blkHeld : List (Nat × Word)
  timeout : Tbl Word
  peerAt  : Option Word
  blown   : Tbl Word
  mboxIn  : List Word
  mboxOut : List Word
  hostErr : Bool
  bootq   : List Word
  boot    : BootSt
deriving DecidableEq, Repr

/-- A transmit stream (R462 to R466): the rate latched at EN, C once it has started, whether its first packet boundary
has come, E of the first sample of the packet being filled, its words so far, the packets complete but not sent, and the
fade of its queue's words. -/
structure StrmTx where
  rate  : Nat
  count : Option (BitVec 64)
  first : BitVec 64
  words : List Word
  filling : Bool
  ready : List (BitVec 64 × List Word)
  fade  : BlockFade
deriving DecidableEq, Repr

/-- A receive stream (R467 to R472): the rate latched at EN, whether it is active, HSEQ with the numbers accepted up to
it, H, the next R of free alignment, a pending re-centring, the first timestamps of the packets present, the last word
of each channel, the samples of the fade-out and of the fade-in, and whether the last sample was missing. -/
structure StrmRx where
  rate   : Nat
  hseq   : Option (BitVec 16)
  seen   : List (BitVec 16)
  high   : Word
  r      : Word
  center : Bool
  pkts   : List Word
  last   : Tbl Word
  k      : Nat
  fin    : Nat
  gap    : Bool
deriving DecidableEq, Repr

/-- The stream engine: the window registers of each stream by 0x1000 × stream + offset, the streams, and M of the last
strobe. -/
structure StrmSt where
  regs : Tbl Word
  tx   : Tbl StrmTx
  rx   : Tbl StrmRx
  m    : Option (BitVec 64)
deriving DecidableEq, Repr

/-- A Stem link beside its registers (R485 to R499): the latched RATE and NLOG, a RESTART to send, the words presented
for the tick that runs and its tick (none before its first strobe), the complete frames to send, the frame last sent,
the control messages to send and received (with TICK), an overflow since the last pop, the stored
frames (TICK, marker time, samples released), the last stored tick, the tick from which gaps count, D, t0, consecutive
dropped frames, the frame in release, the words and samples of its fades, when the last good frame came, and the fade of
the transmit queue's words. -/
structure StemSt where
  rate    : Nat
  nlog    : Nat
  restart : Bool
  words   : List Word
  tick    : Option Word
  full    : List (Word × List Word)
  sent    : Option StemFrame
  ctx     : List (List Word)
  crx     : List (List Word × Word)
  ovf     : Bool
  frames  : List (Word × Word)
  last    : Option Word
  gapFrom : Option Word
  ofs     : Option Word
  first   : Option Word
  drops   : Nat
  cur     : Option Word
  done    : Nat
  lastW   : Tbl Word
  k       : Nat
  fin     : Nat
  goodAt  : Option Nat
  txFade  : BlockFade
deriving DecidableEq, Repr

/-- A speaker channel beside its registers (R505 to R522): the state a diagnostic run returns to, its phase, whether the
comparator or the stage's fault acted in it, the volume and the sink value it multiplies, whether it switches, the ramp's
value at its start (in parts of 20,000,000) and that start, m as a part of 2^31, whether the current is limited now and
the clean loop periods that the episode still needs, consecutive loop periods of low impedance, the load voltages of the
last 50 ms in mV and the currents of the last 10 ms in mA with their times, and the word at the interpolator. -/
structure SpkSt where
  back   : Nat
  phase  : Nat
  trip   : Bool
  fault  : Bool
  vol    : ZcSt
  x      : Word
  switch : Bool
  rampV  : Nat
  rampAt : Word
  m      : Int
  limit  : Bool
  clean  : Nat
  low    : Nat
  volts  : List (Word × Int)
  amps   : List (Word × Nat)
  out    : Word
deriving DecidableEq, Repr

/-- An Output Guard and its output (R538 to R544): its own Z gain in 32nds, whether the pin timer of a soft trip has run
out, its own pin path, the times of its trips, the DC window that fills (sum and samples), a complete window
before it is judged, the mean of the last one, consecutive windows above the threshold, the last word with the length of its run, consecutive duty windows, and the
word that entered the serializer last. -/
structure GuardSt where
  gain  : Nat
  timed : Bool
  pin   : Bool
  times : List Nat
  sum   : Int
  cnt   : Nat
  win   : Option (Int × Nat)
  mean  : Int
  dcRun : Nat
  last  : Word
  run   : Nat
  duty  : Nat
  out   : Word
deriving DecidableEq, Repr

/-- Foxglove beside its registers (R535 to R554): the copies of the sealed registers in FA and FB, the guards, the cause of
each guard's last trip (1 CEIL, 2 DC, 3 STUCK, 4 DUTY, 5 GATE), the global Z gains in 32nds (of every output; of the SAP and AES3 outputs), the pin path of a global soft cause, FB's keep-alive,
whether a feed came at all and since the last expiry, TOTEST, SAFE_N low, and the times at which TAKEOVER_OUT and
FORCE_QUIET_IN rose while high. -/
structure FgSt where
  copyA  : List Word
  copyB  : List Word
  guards : Tbl GuardSt
  cause  : Tbl Nat
  gain   : Nat
  gainP  : Nat
  soft   : Bool
  alive  : Bool
  fedAny : Bool
  fed    : Bool
  totest : Bool
  safeLow : Bool
  takeAt : Option Nat
  fqiAt  : Option Nat
deriving DecidableEq, Repr

/-- Marigold beside its registers (R563 to R585): the lane rate latched, the place in its block of each input pair's next
word with the fade of its words, the words forwarded for each input pair, the own words of a block still to be pushed and to be dropped, the journal of the tick that runs with its overflow, and of the
tick before with its tick, its overflow and the verdict of its window; which staging buffer is streamed, a HANDOVER
asked for, the record last sent, the Status last sent, the peer's Status and the tick it came in, the short time of the
last engine boundary, whether a heartbeat came since the last deadline, whether the last Marker held lockstep, its tick,
the record applied in this tick (its state bytes), whether it was applied and whether its state was copied, records in a
row applied in full with lockstep, the tick of a record that a hand-over lets finish, whether the unit took over in this
tick, whose inputs it still handles as a receiving unit, and the inputs of the next record when they are not the words
forwarded. -/
structure MgldSt where
  rate    : Nat
  inPos   : Tbl Nat
  inFade  : Tbl BlockFade
  fwd     : Tbl (List Word)
  owe     : Tbl Nat
  skip    : Tbl Nat
  journal : List (Word × Word)
  jovf    : Bool
  jrec    : List (Word × Word)
  jrecOvf : Bool
  recTick : Option (BitVec 48)
  recOk   : Bool
  stream  : Nat
  hand    : Bool
  sent    : Option MirrorRecord
  status  : Option (Word × BitVec 16 × Byte)
  peer    : Byte
  seenAt  : Option (BitVec 48)
  edge    : Word
  beat    : Bool
  lock    : Bool
  marker  : Option Word
  state   : Option Nat
  applied : Bool
  copied  : Bool
  row     : Nat
  finish  : Option Word
  isOver    : Bool
  inputs  : Option (List Word)
  begun   : Option (Word × BitVec 16 × Byte)
deriving DecidableEq, Repr

/-- The chip but its memories. `rdata` is the word the last reading command returned, `rwords` the words that the last
command that reads several returned, `freeCtr` names the next free value, `stall` says within a command that one of its
accesses has to wait; the four are the model's own. -/
structure Chip where
  regs    : Tbl Word
  rdata   : Word
  rwords  : List Word
  freeCtr : Nat
  stall   : Bool
  tb      : TbSt
  hub     : HubSt
  bank    : BankSt
  qf      : QfSt
  ledger  : LedgerSt
  tick    : TickSt
  snap    : SnapSt
  patch   : PatchSt
  dmix    : DmixSt
  cores   : Tbl CoreSt
  cur     : CurSt
  sap     : Tbl SapSt
  aes     : Tbl AesSt
  asrc    : Tbl AsrcSt
  jack    : JackSt
  aster   : AsterSt
  clk     : ClkSt
  lanes   : Tbl LaneSt
  iris    : List Word
  dram    : Tbl DramSt
  mtx     : MtxSt
  eth     : Tbl EthSt
  cb0     : Cb0St
  pwr     : PwrSt
  strm    : StrmSt
  stem    : Tbl StemSt
  spk     : Tbl SpkSt
  fg      : FgSt
  mgld    : MgldSt
deriving DecidableEq, Repr

/-- The chip and its memories. -/
structure Dev where
  mem  : Memory
  chip : Chip
deriving DecidableEq, Repr

/-- The state of the block: the device, and the commands that wait, first in, first out. -/
structure State where
  dev     : Dev
  pending : List Instr
deriving DecidableEq, Repr

/-- No command stops the machine with a fault: an error of the AE7240 is a record, a flag or a response (R58,
R319), and the block goes on. -/
inductive Fault where
deriving DecidableEq, Repr

/-- Why a command has no meaning. -/
inductive Refusal where
  /-- Raised by the dispatch for a command whose meaning is not written yet. Safe: the machine stops. -/
  | notModelled (mnemonic : String)
deriving DecidableEq, Repr

/-- The time base after a reset that reaches it (R401). -/
def tbReset : TbSt :=
  { sec := 0, ns := 0, short := 0, epoch := 0, frac := 0, incInt := 2, incFrac := 0 }

/-- A Hub source after reset (R73). -/
def hubSrcReset : HubSrc := { high := false, pend := false, insvc := none, count := 0, time := 0 }

/-- The Signal Hub after reset (R73). -/
def hubReset : HubSt := { srcs := [], wclk := 0, pulse := [] }

/-- A bank without a request. -/
def bankReqReset : BankReq := { ready := none, after := [], trans := none, wait := none, held := none }

/-- The banks after reset (R96): every bank On, no test. -/
def bankReset : BankSt := { reqs := [], bist := false, sel := [], tested := [], fails := [] }

/-- A queue as reset leaves it: disabled, every count zero (R123). Its descriptor is kept over resets; after
power-up it is 0 (log entry 1). -/
def queueReset : Queue :=
  { d0 := 0, d1 := 0, d2 := 0, d3 := 0, en := false, push := 0, pop := 0, commit := 0, vis := 0, exp := 0
    skip := 0, dropped := 0, under := 0, pwait := false, cwait := false, pheld := none, w1 := false
    lagLeft := 0, checked := false, passed := false, settled := false, expOld := 0, pos := 0, work := 0
    cpos := 0, cwork := 0, withhold := false, withheld := false }

/-- A consumer that has played nothing. -/
def blockFadeReset : BlockFade := { base := [], last := [], pend := false, fin := false }

/-- The Queue Fabric after power-up. -/
def qfReset : QfSt := { qs := [] }

/-- The empty table (R209). -/
def emptyTable : LedgerTable := { chk := 0, loads := [], paths := [] }

/-- The Ledger without a table. -/
def ledgerReset : LedgerSt :=
  { gov := emptyTable, next := none, addr := none, late := 0, chk := false, ok := false, advanced := false }

/-- The Tick Unit after reset (R36): stopped, TICK_COUNT 0, the strobes at 96 kHz. -/
def tickReset : TickSt :=
  { on := false, stopping := false, restart := false, enAt := 0, named := none, skipped := false, count := 0
    firstTick := false, audios := 0, idx := 0, feed := false, block := false, ofs0 := 0, ofs1 := 0, len := 0
    lengths := [], rate := 3, rateNext := 3, snapPatch := false, snapDmix := false }

/-- Snapdragon and Glide after reset (R242). -/
def snapReset : SnapSt := { flip := none, glide := none, last := 0, held := [], flips := 0, steps := 0, past := false }

/-- A sink that hears silence. -/
def sinkReset : SinkSt := { b := 0, a := 0, len := 0, pos := 0, pend := none }

/-- A generator after reset: its LFSR holds 1, the value a SEED of zero loads (log entry 1). -/
def genReset : GenSt := { phase := 0, lfsr := 1, count := 0, pink := 0 }

/-- An engine output port that has played nothing. -/
def eopReset : EopSt := { missing := false, pops := false, gap := false, fade := false, fadeIn := false, last := [] }

/-- The Patch Matrix after reset (R270). -/
def patchReset : PatchSt :=
  { live := [], shadow := [], flip := false, sinks := [], gens := [], eops := [], src := [], sink := [] }

/-- A crosspoint with gain 0 and nothing pending. -/
def zcReset : ZcSt := { gain := 0, pend := none, since := 0 }

/-- The Direct Mixer after reset (R270). -/
def dmixReset : DmixSt :=
  { live := [], shadow := [], flip := false, xp := [], x := [], s := [], inCfg := [], outCfg := [], delta := [] }

/-- A loop level that does not run. -/
def loopReset : LoopLevel := { active := false, start := 0, stop := 0, step := 0, count := 0 }

/-- A core after reset (R131, R168); what the spec leaves U is 0 (log entry 1). -/
def coreReset : CoreSt :=
  { d := [], a := [], p := [], m := [], b := [], l := [], mode := 0x101, sstat := 0, rrb := 0, pc := 0
    loops := [], flight := [], issued := 0, branch := none, lost := false, hold := .none, drain := .none
    step := false, status := 1, estat := 0, epc := 0, cause := 0, badaddr := 0, svbase := 0, stage1 := 0
    stage2 := 0, dirty := [], dirtyM := [], holdAt := 0, held := 0, icache := []
    next := .none, orphans := [], past := false, age := 0, wdog := 0, torn := [] }

/-- A channel that is in no instruction. -/
def curChanReset : CurChan :=
  { instr := 0, limit := 0, done := 0, started := false, popped := [], table := [], mark := 0, stop := false, fence := false, bist := false }

/-- The Courier after reset (R304, R308). -/
def curReset : CurSt := { chans := [], boot := true, block := [] }

/-- A feed that has played nothing. -/
def feedReset : FeedSt := { mode := 0, words := [], k := 32, fin := 32, finN := false, base := [], last := [] }

/-- A port after reset (R354). -/
def sapReset : SapSt :=
  { rate := 3, lost := false, back := false, inp := [], inK := 32, inFin := 32, outFin := 32, feed := feedReset
    trims := [], sel := [], out := [], dout := [], edge := .none, inWr := [], outWr := [], due := [], start := 0 }

/-- A receiver and transmitter after reset (R354). -/
def aesReset : AesSt :=
  { cs := [], user := [], naCs := false, naPre := false, inp := [], fading := false, back := false, inK := 32
    inFin := 32, feed := feedReset, trims := [], sel := [], out := [], dout := [], active := [], commit := false
    frame := 0
    prev := [], live := false, start := 0, blk := 0 }

/-- An ASRC group after reset. -/
def asrcReset : AsrcSt := { fin := 32, k := 32, last := [], quiet := [] }

/-- A jack after reset. -/
def jackChanReset : JackChan := { rounds := [], sets := 0, busy := false, since := 0, code := 0, first := 0 }

/-- Jack Sense after reset (R354). -/
def jackReset : JackSt := { jacks := [], evts := [], ovf := false, raws := [] }

/-- A trim at unity (R332). -/
def trimReset : ZcSt := { gain := 0x1000_0000, pend := none, since := 0 }

/-- Aster after reset (R384): FREERUN, no reference selected. -/
def asterReset : AsterSt :=
  { sel := none, build := false, good := [], wtr := [], part := [], meas := [], locks := 0, lead := none, moved := false
    recal := false, history := [], bsOk := true, bsErr := 0, edges := [], seen := 0, missed := false, due := none
    frameT := 0 }

/-- The audio PLLs and the clock outputs after reset (R382): every output is disabled. -/
def clkReset : ClkSt := { a := 0, b := 0, on := [], pps := 0, frame := 0 }

/-- A lane after reset (R426). -/
def laneReset : LaneSt :=
  { align := 0, run := 0, win := [], cdrAt := 0, kept := false, fast := false, burst := false, want := false
    scr := 0, got := none }



/-- A controller after power-up. -/
def dramReset : DramSt :=
  { rows := [], rot := 0, mr4 := none, want := 0, cause := 0, go := false, resume := false, slot := false }

/-- The matrix after reset: empty (R322). -/
def mtxReset : MtxSt := { seq := 0, opn := [], wait := [], acc := [], held := [], last := [] }



/-- An Ethernet port after reset (R456). -/
def ethReset : EthSt :=
  { txq := [], strm := [], sending := none, strmOut := none, sentAt := 0, rr := [], rxq := [], quanta := 0, pauseAt := 0
    waiting := [], gates := [], list := none, entry := 0, entryAt := 0, armed := none }

/-- CB0 after reset. -/
def cb0Reset : Cb0St :=
  { rx := [], tx := [], need := 0, frame := none, tries := 0, onLine := false, backoff := none }



/-- No boot attempt. -/
def bootReset : BootSt := { chunks := [], next := 0, acks := 0, waits := false, copy2 := false }

/-- After the release of POR: both enables high, the sequence of R617 at its first step (R617, R652). -/
def pwrReset : PwrSt :=
  { seq := 1, level := 0, held := [], main := true, isl := true, waiting := none, entry := none, latched := []
    blk := [], blkHeld := [], timeout := [], peerAt := none, blown := [], mboxIn := [], mboxOut := [], hostErr := false
    bootq := [], boot := bootReset }

/-- Streams after reset (R475). -/
def strmTxReset : StrmTx := { rate := 0, count := none, first := 0, words := [], filling := false, ready := [], fade := blockFadeReset }
def strmRxReset : StrmRx :=
  { rate := 0, hseq := none, seen := [], high := 0, r := 0, center := false, pkts := [], last := [], k := 32, fin := 0
    gap := false }
def strmReset : StrmSt := { regs := [], tx := [], rx := [], m := none }

/-- A link after reset (R500). -/
def stemReset : StemSt :=
  { rate := 0, nlog := 0, restart := false, words := [], tick := none, full := [], sent := none, ctx := [], crx := []
    ovf := false, frames := [], last := none, gapFrom := none, ofs := none, first := none, drops := 0, cur := none
    done := 0, lastW := [], k := 32, fin := 32, goodAt := none, txFade := blockFadeReset }

/-- A speaker channel after reset (R527): volume 1. -/
def spkReset : SpkSt :=
  { back := 1, phase := 0, trip := false, fault := false, vol := { gain := 0x1000_0000, pend := none, since := 0 }, x := 0
    switch := false, rampV := 0, rampAt := 0, m := 0, limit := false, clean := 0, low := 0, volts := [], amps := []
    out := 0 }

/-- A guard without a trip. -/
def guardReset : GuardSt :=
  { gain := 32, timed := false, pin := false, times := [], sum := 0, cnt := 0, win := none, mean := 0, dcRun := 0, last := 0, run := 0
    duty := 0, out := 0 }

/-- Foxglove after a CHIP reset (R537, R559): HOLD, both paths asserted, the WDOG cause set with its pin path. -/
def fgReset : FgSt :=
  { copyA := [], copyB := [], guards := [], cause := [], gain := 0, gainP := 32, soft := true, alive := true
    fedAny := false, fed := false, totest := false, safeLow := false, takeAt := none, fqiAt := none }

/-- Marigold after reset (R589). -/
def mgldReset : MgldSt :=
  { rate := 0, inPos := [], inFade := [], fwd := [], owe := [], skip := [], journal := [], jovf := false, jrec := [], jrecOvf := false, recTick := none
    recOk := true, stream := 0, hand := false, sent := none, status := none, peer := 0x0C, seenAt := none, edge := 0
    beat := false, lock := false, marker := none, state := none, applied := false, copied := false, row := 0
    finish := none, isOver := false, inputs := none, begun := none }

/-- Memory after power-up: nothing listed (R95; log entry 2). -/
def memReset : Memory := { cells := [], holes := [] }

/-- The chip after reset: every register at its Reset value, which an empty table reads (R10). -/
def chipReset : Chip :=
  { regs := [], rdata := 0, rwords := [], freeCtr := 0, stall := false
    tb := tbReset
    hub := hubReset
    bank := bankReset
    qf := qfReset
    ledger := ledgerReset
    tick := tickReset
    snap := snapReset
    patch := patchReset
    dmix := dmixReset
    cores := []
    cur := curReset
    sap := []
    aes := []
    asrc := []
    jack := jackReset
    aster := asterReset
    clk := clkReset
    lanes := []
    iris := []
    dram := []
    mtx := mtxReset
    eth := []
    cb0 := cb0Reset
    pwr := pwrReset
    strm := strmReset
    stem := []
    spk := []
    fg := fgReset
    mgld := mgldReset }

/-- The machine right after reset, with no command waiting. -/
def State.reset : State :=
  { dev := { mem := memReset, chip := chipReset }, pending := [] }

end Sys2Proof.Machine
end

