-- ==== Sys2Proof/Machine/Ops.lean ====
section
/-! DEFINITION. The named operations over registers, memory and free values, and how a meaning acts on the
state. -/

namespace Sys2Proof.Machine

/-! Registers. A key is the page number times 0x1000 plus the offset. -/

/-- The content of a register: as written, else its Reset value (R10). -/
def Chip.rd (c : Chip) (k : Nat) : Word := look (regReset k) c.regs k

/-- The register holds `v`. -/
def Chip.wr (c : Chip) (k : Nat) (v : Word) : Chip := { c with regs := put c.regs k v }

/-- Bits [hi:lo] of a register, as a number. -/
def Chip.rdf (c : Chip) (k hi lo : Nat) : Nat := fld (c.rd k) hi lo

/-- Bit `i` of a register. -/
def Chip.rdb (c : Chip) (k i : Nat) : Bool := bit (c.rd k) i

/-- The register with `v` in bits [hi:lo]. -/
def Chip.wrf (c : Chip) (k hi lo v : Nat) : Chip := c.wr k (setFld (c.rd k) hi lo v)

/-- The register with bit `i` equal to `b`. -/
def Chip.wrb (c : Chip) (k i : Nat) (b : Bool) : Chip := c.wr k (setBit (c.rd k) i b)

/-- The page of a key. -/
abbrev pageOf (k : Nat) : Nat := k / 0x1000

/-- CTRL.EN of a page (R55). -/
def Chip.en (c : Chip) (p : Nat) : Bool := c.rdb (Reg.CTRL p) 0

/-- CTRL.IDLE_REQ of a page (R55). -/
def Chip.idleReq (c : Chip) (p : Nat) : Bool := c.rdb (Reg.CTRL p) 2

/-- STAT.IDLE_ACK of a page (R56). -/
def Chip.idleAck (c : Chip) (p : Nat) : Bool := c.rdb (Reg.STAT p) 1

/-- CTRL.FREEZE of a page (R55). -/
def Chip.freeze (c : Chip) (p : Nat) : Bool := c.rdb (Reg.CTRL p) 3

/-- The power state (R624): 0 Run, 1 Quiet, 2 Listen, 3 Dormant. -/
def Chip.pstate (c : Chip) : Nat := c.rdf Reg.CLKPWR_PSTAT 1 0

/-- Whether the chip is in Quiet (R624). -/
def Chip.quiet (c : Chip) : Bool := c.rdf Reg.CLKPWR_PSTAT 1 0 == 1

/-- A counter or statistics register takes `v`, unless FREEZE of its page holds it (R55). -/
def Chip.stat (c : Chip) (k : Nat) (v : Word) : Chip :=
  if c.freeze (pageOf k) then c else c.wr k v

/-- A counter goes up by one, stopping at 0xFFFF_FFFF; FREEZE of its page holds it (R55). -/
def Chip.count (c : Chip) (k : Nat) : Chip := c.stat k (satInc (c.rd k))

/-- A counter goes up by `n`, stopping at 0xFFFF_FFFF; FREEZE of its page holds it. -/
def Chip.countBy (c : Chip) (k n : Nat) : Chip := c.stat k (satAdd (c.rd k) n)

/-- The block sets flag `b` of IRQ_RAW (R57). -/
def Chip.irq (c : Chip) (p b : Nat) : Chip := c.wrb (Reg.IRQ_RAW p) b true

/-- Flag `b` of IRQ_RAW when `cond` holds. -/
def Chip.irqIf (c : Chip) (cond : Bool) (p b : Nat) : Chip := if cond then c.irq p b else c

/-- An error arrives (R58): the first one writes CODE and ERR_INFO, a further one sets MULTI. -/
def Chip.err (c : Chip) (p code : Nat) (info : Word) : Chip :=
  if c.rdf (Reg.ERR_CODE p) 7 0 = 0 then
    (c.wr (Reg.ERR_CODE p) (word code)).wr (Reg.ERR_INFO p) info
  else c.wrb (Reg.ERR_CODE p) 8 true

/-- The page's summary interrupt: the OR of IRQ_PEND = IRQ_RAW AND IRQ_MASK (R57). -/
def Chip.summary (c : Chip) (p : Nat) : Bool := (c.rd (Reg.IRQ_RAW p) &&& c.rd (Reg.IRQ_MASK p)) != 0

/-- Every register whose key satisfies `p` returns to its Reset value (R10). -/
def Chip.resetRegs (c : Chip) (p : Nat → Bool) : Chip := { c with regs := drop p c.regs }

/-- Every register of a page returns to its Reset value. -/
def Chip.resetPage (c : Chip) (p : Nat) : Chip := c.resetRegs (fun k => pageOf k == p)

/-- Core `k` beside its page. -/
def Chip.core (c : Chip) (k : Nat) : CoreSt := look coreReset c.cores k

/-- Core `k` becomes `x`. -/
def Chip.setCore (c : Chip) (k : Nat) (x : CoreSt) : Chip := { c with cores := put c.cores k x }

/-- The next free value of `w` bits. -/
def Chip.freeNow (c : Chip) (w : Nat) : BitVec w := Config.freeBits w c.freeCtr

/-- The free value is used up. -/
def Chip.freeNext (c : Chip) : Chip := { c with freeCtr := c.freeCtr + 1 }

/-- A register takes a free value. -/
def Chip.wrFree (c : Chip) (k : Nat) : Chip := (c.wr k (c.freeNow 32)).freeNext

/-! Pages by block (R52). -/

abbrev pgSYS := 0x00
abbrev pgRST := 0x01
abbrev pgCLKPWR := 0x02
abbrev pgFUSE := 0x03
abbrev pgFG := 0x04
abbrev pgHUB := 0x05
abbrev pgMTX := 0x06
abbrev pgBANK := 0x07
abbrev pgQF := 0x08
abbrev pgTICK := 0x09
abbrev pgSNAP := 0x0A
abbrev pgPATCH := 0x0B
abbrev pgDMIX := 0x0C
abbrev pgDRAM (k : Nat) := 0x0D + k
abbrev pgASTER := 0x0F
abbrev pgTB := 0x10
abbrev pgJACK := 0x11
abbrev pgST (n : Nat) := 0x12 + n
abbrev pgHOST := 0x14
abbrev pgBOOTQ := 0x15
abbrev pgGUARD := 0x16
abbrev pgCUR (n : Nat) := 0x18 + n
abbrev pgSAP (p : Nat) := 0x20 + p
abbrev pgAES (n : Nat) := 0x30 + n
abbrev pgASRC := 0x34
abbrev pgMEC (m : Nat) := 0x40 + m
abbrev pgLANE (n : Nat) := 0x60 + n
abbrev pgIRIS := 0x6A
abbrev pgETH (p : Nat) := 0x70 + p
abbrev pgSTRM := 0x74
abbrev pgCB0 := 0x75
abbrev pgSTM (n : Nat) := 0x78 + n
abbrev pgMGLD := 0x7C
abbrev pgSPK (n : Nat) := 0x80 + n
abbrev pgSPKC := 0x90

/-! Memory. -/

/-- What an unlisted address reads as: an undefined byte inside a hole, else 0 (log entries 2 and 3). -/
def Memory.unlisted (m : Memory) (a : Nat) : Byte :=
  match m.holes.find? (fun h => h.lo ≤ a && a < h.lo + h.len) with
  | some h => Config.undefByte h.gen a
  | none => 0

/-- The byte at address `a`. -/
def Memory.get (m : Memory) (a : Nat) : Byte := look (m.unlisted a) m.cells a

/-- The cells with `v` at `k`, kept canonical: an entry equal to the unlisted value `d` is not listed. -/
def cellPut (d : Byte) : List Host.Cell → Nat → Byte → List Host.Cell
  | [], k, v => if v = d then [] else [(k, v)]
  | (j, u) :: t, k, v =>
    if j < k then (j, u) :: cellPut d t k v
    else
      let rest := ((j, u) :: t).dropWhile (fun e => e.1 ≤ k)
      if v = d then rest else (k, v) :: rest

/-- Memory with `v` at address `a`. -/
def Memory.set (m : Memory) (a : Nat) (v : Byte) : Memory :=
  { m with cells := cellPut (m.unlisted a) m.cells a v }

/-- The canonical form: addresses strictly rising, no entry equal to what an unlisted address reads as. -/
def Memory.wf (m : Memory) : Bool :=
  rising m.cells && m.cells.all (fun e => e.2 != m.unlisted e.1)

/-- `n` bytes from address `a`. -/
def Memory.bytes (m : Memory) (a n : Nat) : List Byte := (List.range n).map (fun i => m.get (a + i))

/-- The little-endian word at address `a`. -/
def Memory.word (m : Memory) (a : Nat) : Word :=
  m.get (a + 3) ++ m.get (a + 2) ++ m.get (a + 1) ++ m.get a

/-- Memory with bytes written from address `a` on. -/
def Memory.setBytes : Memory → Nat → List Byte → Memory
  | m, _, [] => m
  | m, a, b :: t => (m.set a b).setBytes (a + 1) t

/-- Memory with a word written at address `a`, little-endian. -/
def Memory.setWord (m : Memory) (a : Nat) (w : Word) : Memory := m.setBytes a (wordBytes w)

/-- The contents of a region become undefined. -/
def Memory.undefine (m : Memory) (lo len gen : Nat) : Memory :=
  { cells := m.cells.filter (fun e => !(lo ≤ e.1 && e.1 < lo + len))
    holes := { lo := lo, len := len, gen := gen } :: m.holes }

/-- The contents of a region of the device become undefined. -/
def Dev.undefine (d : Dev) (lo len : Nat) : Dev :=
  { mem := d.mem.undefine lo len d.chip.freeCtr, chip := d.chip.freeNext }

/-! How a meaning acts: on the chip alone, or on the chip and its memories; never on the queue. -/

/-- The chip changes, memory and the queue stay. -/
def State.onChip (s : State) (f : Chip → Chip) : Host.Outcome State Fault Refusal :=
  .next { s with dev := { s.dev with chip := f s.dev.chip } }

/-- The device changes, the queue stays. -/
def State.onDev (s : State) (f : Dev → Dev) : Host.Outcome State Fault Refusal :=
  .next { s with dev := f s.dev }

/-- A device operation that changes the chip alone. -/
def Dev.chipOp (d : Dev) (f : Chip → Chip) : Dev := { d with chip := f d.chip }

/-- The word a reading command returns (log entry 5). -/
def Chip.ret (c : Chip) (v : Word) : Chip := { c with rdata := v }

end Sys2Proof.Machine
end

