-- ==== Sys2Proof/Machine/TimeBase.lean ====
section
/-! DEFINITION. The time base (R387 to R403): PTP time, short time and the commands of page TB. -/

namespace Sys2Proof.Machine

/-- The present short time (R387). -/
def Chip.now (c : Chip) : Word := c.tb.short

/-- The active increment in units of 2^-32 ns (R387). -/
def TbSt.inc (t : TbSt) : Nat := t.incInt.toNat * 2 ^ 32 + t.incFrac.toNat

/-- Nanoseconds that `k` cycles of CLK_TB add: both counters share one fraction (R387). -/
def TbSt.gain (t : TbSt) (k : Nat) : Nat := (t.frac.toNat + k * t.inc) / 2 ^ 32

/-- The counters after `k` cycles of CLK_TB (R387, R388). -/
def TbSt.advance (t : TbSt) (k : Nat) : TbSt :=
  let g := t.gain k
  { t with
    sec := t.sec + BitVec.ofNat 48 ((t.ns.toNat + g) / 1000000000)
    ns := word ((t.ns.toNat + g) % 1000000000)
    short := t.short + word g
    epoch := t.epoch + word ((t.short.toNat + g) / 2 ^ 32)
    frac := word (t.frac.toNat + k * t.inc) }

/-! The audio PLLs and the clock outputs (R363, R382; log entry 132). -/

/-- The engine rate in Hz of a RATE code (R39). -/
def rateHz (code : Nat) : Nat :=
  match code with
  | 0 => 44100
  | 1 => 48000
  | 2 => 88200
  | 3 => 96000
  | 4 => 176400
  | _ => 192000

/-- The engine rate of the strobes (R671). -/
def Chip.fs (c : Chip) : Nat := rateHz c.tick.rate

/-- The cycles of its APLL in a sample period of a RATE code. -/
def ratePeriod (code : Nat) : Nat := 2048 / 2 ^ (code / 2)

/-- One cycle of an APLL in the units of its count: a cycle of CLK_TB adds a whole number of them at any DCO offset. -/
def apllCycle : Nat := 500000000 * 1000000000

/-- What `k` cycles of CLK_TB add to the count of an APLL, APLL_B when `b`, at the DCO's offset (R363). -/
def Chip.apllGain (c : Chip) (b : Bool) (k : Nat) : Nat :=
  k * (if b then 90316800 else 98304000) * (1000000000 + (c.rd Reg.ASTER_FOFS).toInt).toNat

/-- Output `o` of WCLK_OUT0, WCLK_OUT1, MCLK_OUT0, MCLK_OUT1: its register, its APLL, and its period in that APLL's
cycles. -/
def Chip.clkCfg (c : Chip) (o : Nat) : Word := c.rd (if o < 2 then Reg.WCLK_OUT_CFG o else Reg.MCLK_OUT_CFG (o - 2))
def Chip.clkApll (c : Chip) (o : Nat) : Bool :=
  if o < 2 then fld (c.clkCfg o) 3 1 % 2 == 0 else bit (c.clkCfg o) 1
def Chip.clkPeriod (c : Chip) (o : Nat) : Nat :=
  (if o < 2 then ratePeriod (fld (c.clkCfg o) 3 1) else 2 ^ fld (c.clkCfg o) 3 2) * apllCycle

/-- Where an APLL stands in its count. -/
def ClkSt.place (x : ClkSt) (b : Bool) : Nat := if b then x.b else x.a
def ClkSt.setPlace (x : ClkSt) (b : Bool) (p : Nat) : ClkSt := if b then { x with b := p } else { x with a := p }

/-- An APLL counts on to place `u`: an enabled output of it begins with a full period at the first boundary of its
period. -/
def Chip.apllTo (c : Chip) (b : Bool) (u : Nat) : Chip :=
  let p := c.clk.place b
  let began (o : Nat) := bit (c.clkCfg o) 0 && c.clkApll o == b && decide (p / c.clkPeriod o < u / c.clkPeriod o)
  { c with clk := { (c.clk.setPlace b (u % (2048 * apllCycle))) with
      on := (List.range 4).filter (fun o => c.clk.on.contains o || began o) } }

/-- The APLL of the engine's rate family and the place of its next sample strobe (R671). -/
def Chip.fsApll (c : Chip) : Bool := c.tick.rate % 2 == 0
def Chip.nextStrobe (c : Chip) : Nat :=
  let p := ratePeriod c.tick.rate * apllCycle
  (c.clk.place c.fsApll / p + 1) * p

/-- `k` cycles of CLK_TB at an APLL; that of the engine's family stops short of its next strobe, which a command brings. -/
def Chip.apllAdvance (c : Chip) (k : Nat) (b : Bool) : Chip :=
  let u := c.clk.place b + c.apllGain b k
  c.apllTo b (if c.fsApll == b then min u (c.nextStrobe - 1) else u)

/-- The APLL's count reaches the sample strobe. -/
def Chip.clkStrobe (c : Chip) : Chip := c.apllTo c.fsApll c.nextStrobe

/-- A write of the configuration of output `o`: it starts again with a full period. -/
def Chip.clkCfgWrite (o : Nat) (v : Word) (c : Chip) : Chip :=
  { (c.wr (if o < 2 then Reg.WCLK_OUT_CFG o else Reg.MCLK_OUT_CFG (o - 2)) (v &&& (if o < 2 then 0x1F else 0xF))) with
    clk := { c.clk with on := c.clk.on.filter (· != o) } }

/-- The level of output `o`: zero until its first period, then high for the first half of each, or for the second with
INV. A reserved RATE gives no signal that the spec names: a free level. -/
def Chip.clkLevel (c : Chip) (o : Nat) : Bool :=
  let w := c.clkCfg o
  let high := decide (2 * (c.clk.place (c.clkApll o) % c.clkPeriod o) < c.clkPeriod o)
  if !bit w 0 then false
  else if o < 2 && decide (6 ≤ fld w 3 1) then c.freeNow 1 == 1
  else c.clk.on.contains o && (if o < 2 then high != bit w 4 else high)

/-- WIDTH of PPS_OUT in ns; none while the output is disabled. -/
def Chip.ppsNs (c : Chip) : Nat :=
  if c.rdb Reg.PPS_OUT_CFG 0 then max 1 (c.rdf Reg.PPS_OUT_CFG 15 8) * 1000000 else 0

/-- What is left of PPS_OUT's pulse after `g` ns; `past` is how far the time base is past a whole second that it
reached by counting, which a pulse begins at. -/
def Chip.ppsAfter (c : Chip) (g : Nat) (past : Option Nat) : Nat :=
  match past with
  | some n => c.ppsNs - n
  | none => c.clk.pps - g

/-- `g` ns go by at PPS_OUT and FRAME_OUT. -/
def Chip.pulses (c : Chip) (g : Nat) (past : Option Nat) : Chip :=
  { c with clk := { c.clk with pps := c.ppsAfter g past, frame := c.clk.frame - g } }

/-- The levels of PPS_OUT and FRAME_OUT. -/
def Chip.ppsLevel (c : Chip) : Bool := decide (0 < c.clk.pps)
def Chip.frameLevel (c : Chip) : Bool := decide (0 < c.clk.frame)

/-! Counting. -/

/-- How far counting `g` ns on from `n` ns goes past a whole second. -/
def wholeSecond (n g : Nat) : Option Nat := if 1000000000 ≤ n + g then some ((n + g) % 1000000000) else none

/-- `k` cycles of CLK_TB in Run and Quiet (R401): SHORT_WRAP is set at a wrap of short time, SECOND when the seconds
change by counting (R388, R394), TICK_PHASE counts two ecyc a cycle while the Tick Unit runs (R39; log entry 6), and the
APLLs and the outputs go on (R382). -/
def Chip.tbAdvance (c : Chip) (k : Nat) : Chip :=
  if 2 ≤ c.pstate then c
  else
    let t := c.tb
    let g := t.gain k
    let c1 := ({ c with tb := t.advance k }.irqIf (decide (2 ^ 32 ≤ t.short.toNat + g)) pgTB 0).irqIf
      (wholeSecond t.ns.toNat g).isSome pgTB 2
    let c2 := ((c1.pulses g (wholeSecond t.ns.toNat g)).apllAdvance k false).apllAdvance k true
    if c2.rdf Reg.TICK_PHASE 1 0 = 0 then c2
    else c2.wrf Reg.TICK_PHASE 21 2 (c2.rdf Reg.TICK_PHASE 21 2 + 2 * k)

/-- How many cycles until a count of nanoseconds reaches `goal` (R387). -/
def TbSt.cyclesTo (t : TbSt) (ns goal : Nat) : Nat :=
  ceilDiv (goal * 2 ^ 32 - (ns * 2 ^ 32 + t.frac.toNat)) t.inc

/-- The cycle in which short time wraps. -/
def execShortWrap (s : State) : Host.Outcome State Fault Refusal :=
  s.onChip (fun c => c.tbAdvance (c.tb.cyclesTo c.tb.short.toNat (2 ^ 32)))

/-- The cycle in which the seconds of PTP time change by counting. -/
def execSecondRollover (s : State) : Host.Outcome State Fault Refusal :=
  s.onChip (fun c => c.tbAdvance (c.tb.cyclesTo c.tb.ns.toNat 1000000000))

/-- A write of TB_INC_INT (R391): INT 1 to 3 commits the staged increment, which REF7
follows (R400); other values are refused. -/
def Chip.incCommit (c : Chip) (v : Word) : Chip :=
  let i := fld v 3 0
  if i = 0 ∨ 4 ≤ i then (c.irq pgTB 3).err pgTB 0x01 0
  else { c with
    tb := { c.tb with incInt := BitVec.ofNat 4 i, incFrac := c.rd Reg.TB_INC_FRAC }
    aster := { c.aster with moved := true } }

def execIncCommit (v : Word) (s : State) : Host.Outcome State Fault Refusal :=
  s.onChip (fun c => c.incCommit v)

/-- The offset of a step in nanoseconds (R392): signed 48-bit seconds and signed nanoseconds. -/
def Chip.stepOffset (c : Chip) : Int :=
  (BitVec.ofNat 48 (c.rdf Reg.TB_STEP_SEC_HI 15 0 * 2 ^ 32 + (c.rd Reg.TB_STEP_SEC_LO).toNat)).toInt * 1000000000
    + (c.rd Reg.TB_STEP_NS).toInt

/-- PTP time with an offset in nanoseconds added, seconds modulo 2^48 (R392). -/
def TbSt.addPtp (t : TbSt) (off : Int) : TbSt :=
  let x := (t.sec.toNat : Int) * 1000000000 + t.ns.toNat + off
  { t with sec := BitVec.ofInt 48 (x / 1000000000), ns := BitVec.ofInt 32 (x % 1000000000) }

/-- TB_CMD.STEP (R392): in the step cycle PTP time becomes the old value plus the offset and the increment of the
cycle. A second step leaves PTP time, and a pulse of PPS_OUT at it, undefined: free values (R393). SECOND is set when
the seconds change; PPS_OUT marks the first whole second that counting reaches from the step on (R394). -/
def Chip.timeStep (c : Chip) : Chip :=
  let n := (c.rd Reg.TB_STEP_NS).toInt
  if n < -999999999 ∨ 999999999 < n then c.err pgTB 0x02 0
  else
    let c1 := c.tbAdvance 1
    let t := c1.tb.addPtp c1.stepOffset
    let second := c.rdb Reg.TB_STAT 0
    let t' : TbSt := if second then { t with sec := c1.freeNow 48, ns := c1.freeNext.freeNow 32 } else t
    let g := c.tb.gain 1
    let past := if second then (if c1.freeNext.freeNext.freeNow 1 = 1 then some 0 else none)
      else if t'.ns.toNat < g then some t'.ns.toNat else none
    let c2 := { c1 with
      tb := t'
      freeCtr := if second then c1.freeCtr + 3 else c1.freeCtr
      aster := { c1.aster with moved := true }
      clk := { c1.clk with pps := c.ppsAfter g past } }
    let c3 := ((c2.wrb Reg.TB_STAT 0 true).wr Reg.TB_STEP_SHORT c2.now).irq pgTB 1
    let c4 := c3.wrb (Reg.IRQ_RAW pgTB) 2 (c.rdb (Reg.IRQ_RAW pgTB) 2)
    c4.irqIf (t'.sec != c.tb.sec) pgTB 2

def execTimeStep (s : State) : Host.Outcome State Fault Refusal := s.onChip Chip.timeStep

/-- TB_CMD.CAPTURE (R395). -/
def Chip.timeCapture (c : Chip) : Chip :=
  let t := c.tb
  (((((((c.wr Reg.TB_CAP_SHORT t.short).wr Reg.TB_CAP_EPOCH t.epoch).wr Reg.TB_CAP_NS t.ns).wr
    Reg.TB_CAP_SEC_LO (t.sec.setWidth 32)).wr Reg.TB_CAP_SEC_HI ((t.sec >>> 32).setWidth 32)).wr
    Reg.TB_CAP_SUBNS t.frac)).irq pgTB 4

def execTimeCapture (s : State) : Host.Outcome State Fault Refusal := s.onChip Chip.timeCapture

/-- A read of TB_NS latches the seconds and the fraction of the same cycle (R395). -/
def Chip.readTbNs (c : Chip) : Chip :=
  let t := c.tb
  (((c.wr Reg.TB_SEC_LO (t.sec.setWidth 32)).wr Reg.TB_SEC_HI ((t.sec >>> 32).setWidth 32)).wr
    Reg.TB_SUBNS t.frac).ret t.ns

def execTbNsRead (s : State) : Host.Outcome State Fault Refusal := s.onChip Chip.readTbNs

/-- A read of TB_SHORT latches the epoch of the same cycle (R395). -/
def Chip.readTbShort (c : Chip) : Chip := (c.wr Reg.TB_SHORT_EPOCH_LAT c.tb.epoch).ret c.now

def execTbShortRead (s : State) : Host.Outcome State Fault Refusal := s.onChip Chip.readTbShort

/-- A write of TB_CMD: STEP, then CAPTURE, in ascending bit order (R669); a capture in the cycle of a step
records PTP time after the step (R395). -/
def Chip.tbCmd (c : Chip) (v : Word) : Chip :=
  let c1 := if bit v 0 then c.timeStep else c
  if bit v 1 then c1.timeCapture else c1

/-- A reset that reaches page TB (R401). -/
def Chip.resetTb (c : Chip) : Chip := { c.resetPage pgTB with tb := tbReset }

end Sys2Proof.Machine
end

