-- ==== Sys2Proof/Machine/Hub.lean ====
section
/-! DEFINITION. The Signal Hub (R61 to R73): sources, claims, event lines and the tick events. -/

namespace Sys2Proof.Machine

/-- Source numbers that have no source (R61). -/
def hubReserved (s : Nat) : Bool :=
  s == 7 || (29 ≤ s && s ≤ 31) || (85 ≤ s && s ≤ 87) || s == 215 || (237 ≤ s && s ≤ 255)

/-- The page whose summary is a level source (R61). -/
def hubPage (s : Nat) : Option Nat :=
  if s = 6 then some pgTICK
  else if 8 ≤ s ∧ s ≤ 28 then
    [pgSYS, pgRST, pgCLKPWR, pgFUSE, pgFG, pgMTX, pgBANK, pgQF, pgSNAP, pgPATCH, pgDMIX, pgDRAM 0, pgDRAM 1,
      pgASTER, pgTB, pgJACK, pgST 0, pgST 1, pgHOST, pgBOOTQ, pgGUARD][s - 8]?
  else if 64 ≤ s ∧ s ≤ 79 then some (pgSAP (s - 64))
  else if 80 ≤ s ∧ s ≤ 83 then some (pgAES (s - 80))
  else if s = 84 then some pgASRC
  else if 96 ≤ s ∧ s ≤ 127 then some (pgMEC (s - 96))
  else if 192 ≤ s ∧ s ≤ 195 then some (pgETH (s - 192))
  else if s = 196 then some pgSTRM
  else if s = 197 then some pgCB0
  else if s = 198 then some pgIRIS
  else if s = 199 then some pgMGLD
  else if 200 ≤ s ∧ s ≤ 203 then some (pgSTM (s - 200))
  else if 204 ≤ s ∧ s ≤ 213 then some (pgLANE (s - 204))
  else if s = 214 then some pgSPKC
  else if 216 ≤ s ∧ s ≤ 231 then some (pgSPK (s - 216))
  else none

/-- The present level of a source (R61): a page's summary, the four IRQ_PEND bits of a Courier channel, the two
rings of an Ethernet ring pair; a pulse source is low between its pulses. -/
def Chip.hubLevel (c : Chip) (s : Nat) : Bool :=
  if 32 ≤ s ∧ s ≤ 63 then
    let p := pgCUR ((s - 32) / 8)
    let i := (s - 32) % 8
    fld (c.rd (Reg.IRQ_RAW p) &&& c.rd (Reg.IRQ_MASK p)) (4 * i + 3) (4 * i) != 0
  else if 128 ≤ s ∧ s ≤ 191 then
    let p := (s - 128) / 16
    let r := (s - 128) % 16
    let w := c.rd (Reg.ETH_RING_IRQ p) &&& c.rd (Reg.ETH_RING_MASK p)
    bit w r || bit w (16 + r)
  else match hubPage s with
    | some p => c.summary p
    | none => false

/-- The record and the bits of a source. -/
def Chip.hubSrc (c : Chip) (s : Nat) : HubSrc := look hubSrcReset c.hub.srcs s

/-- The record and the bits of a source become `x`. -/
def Chip.setHubSrc (c : Chip) (s : Nat) (x : HubSrc) : Chip :=
  { c with hub := { c.hub with srcs := put c.hub.srcs s x } }

/-- ROUTE of a source; a reserved code is unrouted (R67, R71). -/
def Chip.hubRoute (c : Chip) (s : Nat) : Nat :=
  let r := c.rdf (Reg.HUB_SRC_CFG s) 4 0
  if 4 ≤ r ∧ r ≤ 15 then 0 else r

/-- MODE of a source: true for pulse (R71). -/
def Chip.hubPulseMode (c : Chip) (s : Nat) : Bool := c.rdb (Reg.HUB_SRC_CFG s) 8

/-- PRIO of a source (R71). -/
def Chip.hubPrio (c : Chip) (s : Nat) : Nat := c.rdf (Reg.HUB_SRC_CFG s) 15 12

/-- The pending bit of a source (R62, R64). A stored bit stands while MODE is level and shows again when MODE returns to
pulse; the spec says nothing of a change of MODE (DESIGN CHOICE, log entry 124). -/
def Chip.hubPending (c : Chip) (s : Nat) : Bool :=
  if 16 ≤ c.hubRoute s || c.hubPulseMode s then (c.hubSrc s).pend else c.hubLevel s

/-- Whether a source is offerable to target `t` (R63). -/
def Chip.offerable (c : Chip) (t s : Nat) : Bool :=
  c.hubRoute s == t + 1 && c.hubPending s && (c.hubSrc s).insvc.isNone &&
    decide (c.rdf (Reg.HUB_THR t) 3 0 ≤ c.hubPrio s)

/-- The interrupt input of a target, or IRQ_N for target 2: asserted while a source is offerable and EN = 1
(R63, R69). -/
def Chip.hubIrq (c : Chip) (t : Nat) : Bool := c.en pgHUB && (List.range 256).any (c.offerable t)

/-- One more pulse of a tick event (0 to 5) or an event line (16 + e). -/
def Chip.notePulse (c : Chip) (e : Nat) : Chip :=
  { c with hub := { c.hub with pulse := put c.hub.pulse e (look 0 c.hub.pulse e + 1) } }

/-- A pulse on event line `e`: HUB_EVMON shows it (R70), and it sets bit `e` of EVPEND in every MEC (R158). -/
def Chip.evPulse (c : Chip) (e : Nat) : Chip :=
  forUpTo 32 (fun m c => c.wrb (Reg.MEC_EVPEND m) e true) ((c.wrb Reg.HUB_EVMON e true).notePulse (16 + e))

/-- The record of a source latches an assertion (R68). -/
def HubSrc.latch (x : HubSrc) (t : Word) : HubSrc :=
  if x.count = 0 then { x with count := 1, time := t }
  else if x.count = 255 then x else { x with count := x.count + 1 }

/-- The sources that do not assert in Quiet: those of TICK and of the MEC pages (R74). -/
def Chip.hubHalted (c : Chip) (s : Nat) : Bool := c.quiet && (decide (s ≤ 6) || decide (96 ≤ s ∧ s ≤ 127))

/-- An assertion of a source (R62, R64, R68): the record latches unless FREEZE holds it, then the edge goes to
its event line or sets pending in pulse mode. -/
def Chip.hubAssert (c : Chip) (s : Nat) : Chip :=
  if hubReserved s || c.hubHalted s then c
  else
    let x := c.hubSrc s
    let x1 := if c.freeze pgHUB then x else x.latch c.now
    let r := c.hubRoute s
    if 16 ≤ r then
      let c1 := c.setHubSrc s { x1 with pend := false }
      if c.en pgHUB then c1.evPulse (r - 16) else c1
    else if c.hubPulseMode s then c.setHubSrc s { x1 with pend := true }
    else c.setHubSrc s x1

/-- A tick event fires (R28): a pulse for Courier waits and for the event's Hub source. -/
def Chip.tickEvent (c : Chip) (e : Nat) : Chip := (c.notePulse e).hubAssert e

/-- Sources whose level has fallen can rise again (R62, R68). -/
def Chip.hubFalls (c : Chip) : Chip :=
  { c with hub := { c.hub with
    srcs := c.hub.srcs.map (fun e => (e.1, { e.2 with high := e.2.high && c.hubLevel e.1 })) } }

/-- The assertion of a source as its own command (R68): a level source asserts when its level has risen, and
source 236 on every (HUB_WCLK_DIV + 1)th edge of WCLK_IN (R70). -/
def Chip.hubSourceAssert (c : Chip) (s : Nat) : Chip :=
  if s = 236 then
    if c.hub.wclk < c.rdf Reg.HUB_WCLK_DIV 15 0 then { c with hub := { c.hub with wclk := c.hub.wclk + 1 } }
    else ({ c with hub := { c.hub with wclk := 0 } }).hubAssert s
  else if hubKindP s then c.hubAssert s
  else if c.hubLevel s && !(c.hubSrc s).high && !c.hubHalted s then
    (c.setHubSrc s { c.hubSrc s with high := true }).hubAssert s
  else c

def execHubSourceAssert (src : Fin 256) (s : State) : Host.Outcome State Fault Refusal :=
  s.onChip (fun c => c.hubSourceAssert src)

/-- Of two sources, the one a claim prefers: the higher PRIO, the lower number among equals (R63). -/
def Chip.hubBetter (c : Chip) (best : Option Nat) (s : Nat) : Option Nat :=
  match best with
  | none => some s
  | some b => if c.hubPrio b < c.hubPrio s then some s else some b

/-- The source that a claim by `t` returns (R63). -/
def Chip.hubWinner (c : Chip) (t : Nat) : Option Nat :=
  (indices 256 (c.offerable t)).foldl c.hubBetter none

/-- A read of HUB_CLAIMt (R66). -/
def Chip.hubClaim (c : Chip) (t : Fin 3) : Chip :=
  match c.hubWinner t with
  | none => c.ret 0x8000_0000
  | some s =>
    let x := c.hubSrc s
    let x1 : HubSrc :=
      { x with
        pend := if c.hubPulseMode s then false else x.pend
        insvc := some t
        count := if c.freeze pgHUB then x.count else 0 }
    (((c.setHubSrc s x1).wr (Reg.HUB_CTIME t) x.time)).ret (word (x.count.toNat * 0x1_0000 + s))

def execHubClaim (t : Fin 3) (s : State) : Host.Outcome State Fault Refusal := s.onChip (fun c => c.hubClaim t)

/-- A write of HUB_DONEt ends the service of a source in service for `t` (R66). -/
def Chip.hubDone (c : Chip) (t : Fin 3) (v : Word) : Chip :=
  let s := fld v 7 0
  let x := c.hubSrc s
  if x.insvc = some t then c.setHubSrc s { x with insvc := none } else c

def execHubDone (t : Fin 3) (v : Word) (s : State) : Host.Outcome State Fault Refusal :=
  s.onChip (fun c => c.hubDone t v)

/-- A write of HUB_SWSET asserts SWk, source 88 + k, for each bit k (R70). -/
def Chip.hubSwset (c : Chip) (v : Word) : Chip :=
  forUpTo 8 (fun k c => if bit v k then c.hubAssert (88 + k) else c) c

def execHubSwset (v : Word) (s : State) : Host.Outcome State Fault Refusal := s.onChip (fun c => c.hubSwset v)

/-- A read of HUB_EVMON returns and clears the event-line bits (R70). -/
def Chip.hubEvmonRead (c : Chip) : Chip := (c.ret (c.rd Reg.HUB_EVMON)).wr Reg.HUB_EVMON 0

def execHubEvmonRead (s : State) : Host.Outcome State Fault Refusal := s.onChip Chip.hubEvmonRead

/-- A write of HUB_WCLK_DIV restarts the edge count (R70). -/
def Chip.hubWclkDivWrite (c : Chip) (v : Word) : Chip :=
  let c1 := c.wr Reg.HUB_WCLK_DIV (v &&& 0xFFFF)
  { c1 with hub := { c1.hub with wclk := 0 } }

def execHubWclkDivWrite (v : Word) (s : State) : Host.Outcome State Fault Refusal :=
  s.onChip (fun c => c.hubWclkDivWrite v)

/-- A write of HUB_SRCs_CFG (R67, R71): a reserved source ignores it, a reserved ROUTE code is an error. -/
def Chip.hubCfgWrite (c : Chip) (s : Nat) (v : Word) : Chip :=
  if hubReserved s then c
  else
    let c1 := c.wr (Reg.HUB_SRC_CFG s) (v &&& 0xF11F)
    let r := fld v 4 0
    if 4 ≤ r ∧ r ≤ 15 then (c1.irq pgHUB 0).err pgHUB 0x01 (word s) else c1

def execHubSourceCfgWrite (src : Fin 256) (v : Word) (s : State) : Host.Outcome State Fault Refusal :=
  s.onChip (fun c => c.hubCfgWrite src v)

/-- HUB_RECs_INFO (R72). -/
def Chip.hubRecInfo (c : Chip) (s : Nat) : Word :=
  let x := c.hubSrc s
  word (s + x.count.toNat * 0x100 + b2n (c.hubPending s) * 0x1_0000 + b2n x.insvc.isSome * 0x2_0000 +
    b2n (c.hubLevel s) * 0x4_0000)

/-- A reset that reaches the Hub (R73). -/
def Chip.resetHub (c : Chip) : Chip := { c.resetPage pgHUB with hub := { hubReset with pulse := c.hub.pulse } }

end Sys2Proof.Machine
end

