-- ==== Sys2Proof/Machine/Bank.lean ====
section
/-! DEFINITION. Bank Memory (R75 to R98): bank states, the alias writes and the self-test. -/

namespace Sys2Proof.Machine

/-! Open transactions of the bus matrix. -/

/-- The open transaction of a part. -/
def Chip.openOf (c : Chip) (master seq : Nat) : Option MtxOpen :=
  c.mtx.opn.find? (fun o => o.txn.master.val == master && o.seq == seq)

/-- The addresses of a part's beats. -/
def Chip.partAddrs (c : Chip) (p : MtxPart) : List Nat :=
  match c.openOf p.master p.seq with
  | some o => (o.addrs.drop p.lo).take p.n
  | none => []

/-! Bank states. -/

/-- Where bank `b` begins (R75). -/
def bankBase (b : Nat) : Nat := 0x2000_0000 + b * 0x8_0000

/-- The present state of bank `b`, as BANK_CURk shows it (R79): 0 On, 1 Off-line, 2 Retention, 3 Off. -/
def Chip.bankCur (c : Chip) (b : Nat) : Nat :=
  c.rdf (Reg.BANK_CUR (b / 16)) (2 * (b % 16) + 1) (2 * (b % 16))

/-- The requests of bank `b`. -/
def Chip.bankReq (c : Chip) (b : Nat) : BankReq := look bankReqReset c.bank.reqs b

/-- The requests of bank `b` become `r`, and BANK_BUSYw shows its bit while there is one (R79). -/
def Chip.setBankReq (c : Chip) (b : Nat) (r : BankReq) : Chip :=
  { c with bank := { c.bank with reqs := put c.bank.reqs b r } }.wrb (Reg.BANK_BUSY (b / 32)) (b % 32)
    (r.ready.isSome || r.trans.isSome || r.wait.isSome || r.held.isSome)

/-- Whether bank `b` serves accesses: On and in no transition (R79). -/
def Chip.bankOn (c : Chip) (b : Nat) : Bool := c.bankCur b == 0 && (c.bankReq b).trans.isNone

/-- How many banks are leaving Off (R80). -/
def Chip.leavingOff (c : Chip) : Nat :=
  (indices 64 (fun b => c.bankCur b == 3 && (c.bankReq b).trans.isSome)).length

/-- How many other banks wait to leave Off (R80). -/
def Chip.waitingOff (c : Chip) (b : Nat) : Nat :=
  (indices 64 (fun j => j != b && (c.bankReq j).wait.isSome)).length

/-- The bank that an address of Bank Memory or of one of its aliases reaches (R42, R75). -/
def bankReached (a : Nat) : Option Nat :=
  if 0x2000_0000 ≤ a ∧ a < 0x2C00_0000 ∧ a % 0x400_0000 < 0x200_0000 then some (a % 0x400_0000 / 0x8_0000) else none

/-- The accesses to bank `b` that its target port has accepted and not yet served (R79). -/
def Chip.bankAccepted (c : Chip) (b : Nat) : List (Nat × Nat) :=
  (c.mtx.acc.filter (fun p => (c.partAddrs p).any (fun a => bankReached a == some b))).map (fun p => (p.seq, p.lo))

/-- A request for state `t` of a bank that is in no transition (R79, R80): nothing when the bank holds that state,
a wait when it leaves Off and eight others do or when accepted accesses have not completed, else the start of the
transition. -/
def Chip.bankRequest (c : Chip) (b : Nat) (t : Fin 4) : Chip :=
  if c.bankCur b = t.val then c.setBankReq b bankReqReset
  else if !(c.bankAccepted b).isEmpty then
    c.setBankReq b { bankReqReset with ready := some t, after := c.bankAccepted b }
  else if c.bankCur b = 3 ∧ 8 ≤ c.leavingOff + c.waitingOff b then c.setBankReq b { bankReqReset with wait := some t }
  else c.setBankReq b { bankReqReset with trans := some t }

/-- Whether bank `b` is selected in a running self-test. -/
def Chip.underTest (c : Chip) (b : Nat) : Bool := c.bank.bist && c.bank.sel.contains b

/-- A write of one field of BANK_STATEk (R79, R80, R91). -/
def Chip.bankFieldWrite (c : Chip) (b : Nat) (t : Fin 4) : Chip :=
  if c.underTest b && c.bankCur b != t.val then c.err pgBANK 0x03 (word (b + 0x300))
  else
    let c1 := c.wrf (Reg.BANK_STATE (b / 16)) (2 * (b % 16) + 1) (2 * (b % 16)) t.val
    let r := c1.bankReq b
    if r.trans.isSome then c1.setBankReq b { r with held := some t }
    else if r.held.isSome then c1.setBankReq b { r with held := some t }
    else c1.bankRequest b t

/-- A write of BANK_STATEk: its sixteen fields (R79). -/
def Chip.bankStateWrite (c : Chip) (k : Nat) (v : Word) : Chip :=
  forUpTo 16 (fun i c => c.bankFieldWrite (16 * k + i) ⟨fld v (2 * i + 1) (2 * i) % 4, Nat.mod_lt _ (by decide)⟩) c

def execBankStateRequest (k : Fin 4) (v : Word) (s : State) : Host.Outcome State Fault Refusal :=
  s.onChip (fun c => c.bankStateWrite k v)

/-- The lowest bank that waits to leave Off (R80). -/
def Chip.firstWaiting (c : Chip) : Option Nat := (indices 64 (fun b => (c.bankReq b).wait.isSome)).head?

/-- A request starts once the accesses accepted before it have completed (R79); a held write starts as a fresh request
once its bank's transition has ended; a waiting request starts when a slot is free, in ascending bank order (R80). -/
def Chip.bankTransitionStart (c : Chip) (b : Nat) : Chip :=
  let r := c.bankReq b
  let open' := r.after.any (fun e => (c.bankAccepted b).contains e)
  match r.ready, r.trans, r.held, r.wait with
  | some t, _, _, _ => if open' then c else c.setBankReq b { bankReqReset with trans := some t }
  | none, none, some t, _ => c.bankRequest b t
  | none, none, none, some t =>
    if c.firstWaiting = some b ∧ c.leavingOff < 8 then c.setBankReq b { bankReqReset with trans := some t } else c
  | _, _, _, _ => c

def execBankTransitionStart (b : Fin 64) (s : State) : Host.Outcome State Fault Refusal :=
  s.onChip (fun c => c.bankTransitionStart b)

/-- The contents of bank `b` become undefined (R95). -/
def Dev.bankLost (d : Dev) (b : Nat) : Dev := d.undefine (bankBase b) 0x8_0000

/-- The transition of bank `b` ends (R79): BANK_CURk shows the new state and STATE_DONE is set; a bank that
leaves Off holds undefined contents (R78, R95). -/
def Dev.bankTransitionDone (d : Dev) (b : Nat) : Dev :=
  let c := d.chip
  let r := c.bankReq b
  match r.trans with
  | none => d
  | some t =>
    let c1 := (c.wrf (Reg.BANK_CUR (b / 16)) (2 * (b % 16) + 1) (2 * (b % 16)) t.val).setBankReq b
      { r with trans := none }
    let d1 : Dev := { d with chip := c1.irq pgBANK 0 }
    if c.bankCur b = 3 then d1.bankLost b else d1

def execBankTransitionDone (b : Fin 64) (s : State) : Host.Outcome State Fault Refusal :=
  s.onDev (fun d => d.bankTransitionDone b)

/-- The banks that BANK_BIST_SEL0 and BANK_BIST_SEL1 select (R91). -/
def Chip.bistSelected (c : Chip) : List Nat := indices 64 (fun b => c.rdb (Reg.BANK_BIST_SEL (b / 32)) (b % 32))

/-- The bank of group `g` that the test works on: the lowest selected one it has not completed (R92). -/
def Chip.bistBank (c : Chip) (g : Nat) : Option Nat :=
  (c.bank.sel.filter (fun b => b / 8 == g && !c.bank.tested.contains b)).head?

/-- BANK_BIST_STAT.BANK shows the bank in test in group 0, or the last tested (R99). -/
def Chip.bistShowBank (c : Chip) : Chip :=
  match c.bistBank 0 with
  | some b => c.wrf Reg.BANK_BIST_STAT 13 8 b
  | none => c

/-- A write of BANK_BIST_CTL with START (R91): refused when a selected bank is not Off-line, a test runs, or ALG
is reserved. -/
def Chip.bistStart (c : Chip) (v : Word) : Chip :=
  let c0 := c.wrf Reg.BANK_BIST_CTL 1 0 (fld v 1 0)
  let sel := c0.bistSelected
  if c0.bank.bist || fld v 1 0 == 3 || sel.any (fun b => c0.bankCur b != 1) then
    c0.err pgBANK 0x04 0
  else
    let c1 := { c0 with bank := { c0.bank with bist := true, sel := sel, tested := [], fails := [] } }
    (c1.wrf Reg.BANK_BIST_STAT 2 0 1).bistShowBank

def execBistStart (v : Word) (s : State) : Host.Outcome State Fault Refusal := s.onChip (fun c => c.bistStart v)

/-- The test of the bank in work in group `g` completes, with its first failing offset when it failed (R92). -/
def Chip.bistBankDone (c : Chip) (g : Nat) (failAt : Option (BitVec 19)) : Chip :=
  if c.bank.bist then
    match c.bistBank g with
    | none => c
    | some b =>
      let fails := match failAt with
        | some o => put c.bank.fails b o.toNat
        | none => c.bank.fails
      { c with bank := { c.bank with tested := c.bank.tested ++ [b], fails := fails } }.bistShowBank
  else c

def execBistBankDone (g : Fin 8) (failAt : Option (BitVec 19)) (s : State) : Host.Outcome State Fault Refusal :=
  s.onChip (fun c => c.bistBankDone g failAt)

/-- No channel stays in Plain Mode under R93. -/
def CurSt.bistOver (x : CurSt) : CurSt := { x with chans := x.chans.map (fun e => (e.1, { e.2 with bist := false })) }

/-- The self-test ends (R93, R94): the results of the completed banks, BIST_DONE, and BIST_FAIL when one failed. -/
def Chip.bistFinish (c : Chip) : Chip :=
  let failed (b : Nat) : Bool := c.bank.fails.any (fun e => e.1 == b)
  let c1 := { c with bank := { c.bank with bist := false, sel := [] }, cur := c.cur.bistOver }
  let c2 := (c1.wr (Reg.BANK_BIST_FAIL 0) (bitsOf failed)).wr (Reg.BANK_BIST_FAIL 1) (bitsOf (fun i => failed (32 + i)))
  let c3 := match c.bank.fails.head? with
    | some e => c2.wr Reg.BANK_BIST_ADDR (word e.2)
    | none => c2.wr Reg.BANK_BIST_ADDR 0
  let any := !c.bank.fails.isEmpty
  ((c3.wrf Reg.BANK_BIST_STAT 2 0 (2 + 4 * b2n any)).irq pgBANK 1).irqIf any pgBANK 2

/-- The contents of the selected banks become undefined (R92, R94). -/
def Dev.bistLose (d : Dev) : Dev := d.chip.bank.sel.foldl Dev.bankLost d

/-- The end of a running self-test. -/
def Dev.bistEnd (d : Dev) : Dev := if d.chip.bank.bist then d.bistLose.chipOp Chip.bistFinish else d

def execBistAbort (s : State) : Host.Outcome State Fault Refusal := s.onDev Dev.bistEnd

/-- The test ends by itself once every selected bank is completed. -/
def Dev.bistDone (d : Dev) : Dev :=
  if d.chip.bank.sel.all (fun b => d.chip.bank.tested.contains b) then d.bistEnd else d

def execBistDone (s : State) : Host.Outcome State Fault Refusal := s.onDev Dev.bistDone

/-- A write of BANK_CONFLICT_CLR (R84). -/
def Chip.conflictClr (c : Chip) (v : Word) : Chip :=
  forUpTo 8 (fun g c => if bit v g then c.wr (Reg.BANK_CONFLICT g) 0 else c) c

def execConflictClr (v : Word) (s : State) : Host.Outcome State Fault Refusal := s.onChip (fun c => c.conflictClr v)

/-- A matrix access to a bank that is not On is refused and recorded (R81). -/
def Chip.bankRefused (c : Chip) (b : Nat) : Chip := c.err pgBANK 0x01 (word b)

/-- A fixed-path access (1 Queue Fabric, 2 Marigold) to a bank that is not On (R81). -/
def Chip.fixedRefused (c : Chip) (b path : Nat) : Chip :=
  (c.irq pgBANK 3).err pgBANK 0x02 (word (b + path * 0x100))

/-- The bank of a Bank Memory address. -/
def bankOfAddr (a : Nat) : Nat := (a - 0x2000_0000) / 0x8_0000

/-- Whether an address lies in Bank Memory. -/
def inBankMem (a : Nat) : Bool := 0x2000_0000 ≤ a && a < 0x2200_0000

/-- The pieces of `n` bytes from `a` that lie in one bank each: (address, length). -/
def bankPieces : Nat → Nat → Nat → List (Nat × Nat)
  | 0, _, _ => []
  | fuel + 1, a, n =>
    let k := min n (0x8_0000 - a % 0x8_0000)
    if n = 0 then [] else (a, k) :: bankPieces fuel (a + k) (n - k)
def bankSplit (a n : Nat) : List (Nat × Nat) := bankPieces (n / 0x8_0000 + 2) a n

/-- A read of `n` bytes of one bank over a fixed path: zero when the bank is not On, or outside Bank Memory (R81). -/
def Dev.fixedRead1 (d : Dev) (path a n : Nat) : List Byte × Dev :=
  if !inBankMem a then (List.replicate n 0, d)
  else if d.chip.bankOn (bankOfAddr a) then (d.mem.bytes a n, d)
  else (List.replicate n 0, d.chipOp (·.fixedRefused (bankOfAddr a) path))

/-- A read of `n` bytes over a fixed path, bank by bank. -/
def Dev.fixedRead (d : Dev) (path a n : Nat) : List Byte × Dev :=
  (bankSplit a n).foldl (fun (x : List Byte × Dev) p =>
    let (l, d1) := x.2.fixedRead1 path p.1 p.2
    (x.1 ++ l, d1)) ([], d)

/-- A write of bytes to one bank over a fixed path: dropped when the bank is not On (R81). -/
def Dev.fixedWrite1 (d : Dev) (path a : Nat) (l : List Byte) : Dev :=
  if !inBankMem a then d
  else if d.chip.bankOn (bankOfAddr a) then { d with mem := d.mem.setBytes a l }
  else d.chipOp (·.fixedRefused (bankOfAddr a) path)

/-- A write of bytes over a fixed path, bank by bank. -/
def Dev.fixedWrite (d : Dev) (path a : Nat) (l : List Byte) : Dev :=
  (bankSplit a l.length).foldl (fun (x : List Byte × Dev) p => (x.1.drop p.2, x.2.fixedWrite1 path p.1 (x.1.take p.2)))
    (l, d) |>.2

/-- The word of an alias write at Bank Memory offset `ofs` (R85). -/
def Dev.aliasWrite (d : Dev) (set : Bool) (ofs : Nat) (mask : Word) : Dev :=
  let a := 0x2000_0000 + ofs / 4 * 4
  let w := d.mem.word a
  if d.chip.bankOn (bankOfAddr a) then
    { d with mem := d.mem.setWord a (if set then w ||| mask else w &&& ~~~mask) }
  else d.chipOp (·.bankRefused (bankOfAddr a))

/-- A reset that reaches page BANK (R96): a running test is aborted, every bank returns to On, and a bank that was
Off, in transition into or out of Off, waiting to leave Off or under test holds undefined contents. -/
def Dev.resetBank (d : Dev) : Dev :=
  let c := d.chip
  let lost := indices 64 (fun b =>
    c.bankCur b == 3 || (c.bankReq b).trans == some 3 || c.underTest b)
  (lost.foldl Dev.bankLost d).chipOp (fun c => { c.resetPage pgBANK with bank := bankReset, cur := c.cur.bistOver })

end Sys2Proof.Machine
end

