-- ==== Sys2Proof/Machine/Queue.lean ====
section
/-! DEFINITION. The Queue Fabric (R100 to R128): pushes, pops, credits, the bank mover and the commands. -/

namespace Sys2Proof.Machine

/-- Queue `q`. -/
def Chip.queue (c : Chip) (q : Nat) : Queue := look queueReset c.qf.qs q

/-- Queue `q` becomes `x`. -/
def Chip.setQueue (c : Chip) (q : Nat) (x : Queue) : Chip := { c with qf := { qs := put c.qf.qs q x } }

/-- Every listed queue changes by `f`, which is given the queue's number. -/
def Chip.mapQueues (c : Chip) (f : Nat → Queue → Queue) : Chip :=
  { c with qf := { qs := c.qf.qs.map (fun e => (e.1, f e.1 e.2)) } }

/-! The descriptor (R127). -/

/-- The size in words (R100). -/
def Queue.size (x : Queue) : Nat := 2 ^ (fld x.d0 19 16 + 4)

/-- The first word of the storage, in words of Queue RAM. -/
def Queue.base (x : Queue) : Nat := fld x.d0 14 0 * 16

def Queue.pkind (x : Queue) : Nat := fld x.d1 3 0
def Queue.pid (x : Queue) : Nat := fld x.d1 15 8
def Queue.ckind (x : Queue) : Nat := fld x.d1 19 16
def Queue.cid (x : Queue) : Nat := fld x.d1 31 24
def Queue.quota (x : Queue) : Nat := fld x.d2 16 0
def Queue.depth (x : Queue) : Nat := fld x.d2 19 17 + 1
def Queue.sched (x : Queue) : Bool := bit x.d2 20
def Queue.committed (x : Queue) : Bool := bit x.d2 21
def Queue.chkPop (x : Queue) : Bool := bit x.d2 22
def Queue.lag (x : Queue) : Nat := fld x.d2 25 24
def Queue.ringBase (x : Queue) : Nat := fld x.d3 24 5 * 32
def Queue.ringSize (x : Queue) : Nat := 2 ^ (fld x.d3 29 26 + 8)

/-- The kinds that wait for credit (R103). -/
def waitingKind (k : Nat) : Bool := k == 1 || k == 2 || k == 3 || k == 10

/-- LIMIT of R105. -/
def Queue.limit (x : Queue) : Nat :=
  if x.sched && x.quota != 0 then min x.size (x.depth * x.quota) else x.size

/-- The producer credit PCRED = LIMIT - FILL (R105). -/
def Queue.pcred (x : Queue) : Int := (x.limit : Int) - (x.push - x.pop).toInt

/-- The consumer credit CCRED (R105, R108). -/
def Queue.ccred (x : Queue) : Int := ((if x.committed then x.vis else x.push) - x.pop).toInt

/-- Whether the fabric is active (R111). -/
def Chip.qfActive (c : Chip) : Bool := c.en pgQF && !c.idleReq pgQF

/-- Whether the queue takes pushes and pops (R111). -/
def Chip.qEnabled (c : Chip) (q : Nat) : Bool := (c.queue q).en && c.qfActive

/-- The byte address of the word with count `n` (R100). -/
def Queue.addr (x : Queue) (n : Word) : Nat := 0x3000_0000 + 4 * (x.base + n.toNat % x.size)

/-- Whether another enabled queue's storage holds the word at byte address `a` (R121). -/
def Chip.qOverlap (c : Chip) (q a : Nat) : Bool :=
  c.qf.qs.any (fun e => e.1 != q && e.2.en &&
    (0x3000_0000 + 4 * e.2.base ≤ a && a < 0x3000_0000 + 4 * (e.2.base + e.2.size)))

/-- An error on queue `q` by endpoint `kind`, `id`: its sticky flag, the interrupt flag and the record (R101,
R110, R111, R119, R125). -/
def Chip.qError (c : Chip) (q kind id irq code : Nat) : Chip :=
  ((c.wrb (Reg.QF_QERR (q / 32)) (q % 32) true).irq pgQF irq).err pgQF code
    (word (q + kind * 0x1_0000 + id * 0x100_0000))

/-- What a push or a pop comes to. -/
inductive QStat where
  | served | refused | waits
deriving DecidableEq, Repr

/-- DROP or UNDER goes up by one unless FREEZE holds it (R110, R125). -/
def Chip.qStat (c : Chip) (w : Word) : Word := if c.freeze pgQF then w else satInc w

/-- A push of a word by endpoint `kind`, `id` (R101, R106, R109 to R111, R116); a word of an overlap is undefined (R121). -/
def Dev.push (d : Dev) (q kind id : Nat) (w : Word) : QStat × Dev :=
  let c := d.chip
  let x := c.queue q
  if x.pkind ≠ kind ∨ x.pid ≠ id then (.refused, d.chipOp (·.qError q kind id 2 0x05))
  else if !c.qEnabled q then (.refused, d.chipOp (·.qError q kind id 3 0x06))
  else if x.skip ≠ 0 then
    (.served, d.chipOp (·.setQueue q { x with skip := x.skip - 1, push := x.push + 1 }))
  else if x.pcred ≤ 0 then
    if waitingKind kind then (.waits, d.chipOp (·.setQueue q { x with pwait := true }))
    else (.refused, d.chipOp (fun c => (c.setQueue q { x with dropped := c.qStat x.dropped }).qError q kind id 0 0x03))
  else
    let d1 := d.chipOp (·.setQueue q { x with push := x.push + 1 })
    let a := x.addr x.push
    (.served,
      if c.qOverlap q a then { mem := d1.mem.setWord a (c.freeNow 32), chip := d1.chip.freeNext }
      else { d1 with mem := d1.mem.setWord a w })

/-- A pop by endpoint `kind`, `id` (R101, R106, R109 to R111, R121). A refused pop returns the word 0. -/
def Dev.pop (d : Dev) (q kind id : Nat) : QStat × Word × Dev :=
  let c := d.chip
  let x := c.queue q
  if x.ckind ≠ kind ∨ x.cid ≠ id then (.refused, 0, d.chipOp (·.qError q kind id 2 0x05))
  else if !c.qEnabled q then (.refused, 0, d.chipOp (·.qError q kind id 3 0x06))
  else if x.ccred ≤ 0 then
    if waitingKind kind then (.waits, 0, d.chipOp (·.setQueue q { x with cwait := true }))
    else (.refused, 0, d.chipOp (fun c => (c.setQueue q { x with under := c.qStat x.under }).qError q kind id 1 0x04))
  else
    let a := x.addr x.pop
    let d1 := d.chipOp (·.setQueue q { x with pop := x.pop + 1 })
    if c.qOverlap q a then (.served, c.freeNow 32, d1.chipOp Chip.freeNext) else (.served, d.mem.word a, d1)

/-- A push whose outcome its endpoint does not look at. -/
def Dev.pushed (d : Dev) (q kind id : Nat) (w : Word) : Dev := (d.push q kind id w).2

/-- The words of a list pushed in order, each served or refused on its own (R110). -/
def Dev.pushAll (d : Dev) (q kind id : Nat) (ws : List Word) : Dev :=
  ws.foldl (fun d w => d.pushed q kind id w) d

/-- The push of a waiting endpoint that is held keeps its word for the end of the wait (R109). -/
def Dev.endpointPush (d : Dev) (q kind id : Nat) (w : Word) : Dev :=
  match d.push q kind id w with
  | (.waits, d1) => d1.chipOp (fun c => c.setQueue q { c.queue q with pheld := some w })
  | (_, d1) => d1

def execEndpointPush (q : Fin 1024) (kind : BitVec 4) (id : BitVec 8) (w : Word) (s : State) :
    Host.Outcome State Fault Refusal :=
  s.onDev (fun d => d.endpointPush q kind.toNat id.toNat w)

/-- A pop as its own command: the word returns to the requester. -/
def Dev.endpointPop (d : Dev) (q kind id : Nat) : Dev :=
  match d.pop q kind id with
  | (.waits, _, d1) => d1
  | (_, w, d1) => d1.chipOp (·.ret w)

def execEndpointPop (q : Fin 1024) (kind : BitVec 4) (id : BitVec 8) (s : State) :
    Host.Outcome State Fault Refusal :=
  s.onDev (fun d => d.endpointPop q kind.toNat id.toNat)

/-! The bank mover (R118, R119). -/

/-- How many words the mover moves in one bank access at place `pos`: at most eight, within one 32-byte line, the work left
and its credit (R118). -/
def Queue.moverWords (_x : Queue) (pos work : Nat) (credit : Int) : Nat := min (min (8 - pos / 4 % 8) work) credit.toNat

/-- The place in the ring `n` words after `pos`. -/
def Queue.moverPos (x : Queue) (pos n : Nat) : Nat := (pos + 4 * n) % x.ringSize

/-- The Bank Memory address of a place. -/
def Queue.moverAddr (x : Queue) (pos : Nat) : Nat := 0x2000_0000 + x.ringBase + pos

/-- The fault of a mover access to a bank that is not On (R119). -/
def Dev.moverFault (d : Dev) (q a : Nat) : Dev :=
  if inBankMem a && d.chip.bankOn (bankOfAddr a) then d else d.chipOp (·.qError q 10 0 5 0x07)

/-- The mover as producer: it reads words of the ring and pushes them. -/
def Dev.moverProduce (d : Dev) (q : Nat) : Dev :=
  let x := d.chip.queue q
  let n := x.moverWords x.pos x.work x.pcred
  if n = 0 then (if x.work = 0 then d else d.chipOp (·.setQueue q { x with pwait := true }))
  else
    let a := x.moverAddr x.pos
    let (l, d1) := d.fixedRead 1 a (4 * n)
    let d2 := (d1.moverFault q a).pushAll q 10 0 (bytesWords n l)
    d2.chipOp (fun c => c.setQueue q
      { c.queue q with pos := x.moverPos x.pos n, work := x.work - n, pwait := false })

/-- `n` words popped by the mover, as bytes. -/
def Dev.moverPop : Nat → Nat → Dev → List Byte × Dev
  | 0, _, d => ([], d)
  | n + 1, q, d =>
    let (_, w, d1) := d.pop q 10 0
    let (l, d2) := Dev.moverPop n q d1
    (wordBytes w ++ l, d2)

/-- The mover as consumer: it pops words and writes them to the ring. -/
def Dev.moverConsume (d : Dev) (q : Nat) : Dev :=
  let x := d.chip.queue q
  let n := x.moverWords x.cpos x.cwork x.ccred
  if n = 0 then (if x.cwork = 0 then d else d.chipOp (·.setQueue q { x with cwait := true }))
  else
    let a := x.moverAddr x.cpos
    let (l, d1) := Dev.moverPop n q d
    let d2 := (d1.fixedWrite 1 a l).moverFault q a
    d2.chipOp (fun c => c.setQueue q
      { c.queue q with cpos := x.moverPos x.cpos n, cwork := x.cwork - n, cwait := false })

/-- Whether the Tick Unit runs: STAT.ENABLED of page TICK, kept in TICK_PHASE (R30, R38). -/
def Chip.tickRuns (c : Chip) : Bool := c.rdf Reg.TICK_PHASE 1 0 != 0

/-- One transfer of the bank mover for queue `q` (R118): scheduled and enabled queues with a mover endpoint,
while the Tick Unit runs (R124). Of a queue with the mover at both ends the producer side goes first while it has words to
move. -/
def Dev.bankMover (d : Dev) (q : Nat) : Dev :=
  let x := d.chip.queue q
  if d.chip.qEnabled q && x.sched && d.chip.tickRuns then
    if x.pkind = 10 ∧ !(x.ckind = 10 ∧ x.moverWords x.pos x.work x.pcred = 0) then d.moverProduce q
    else if x.ckind = 10 then
      let d1 := if x.pkind = 10 then d.moverProduce q else d
      d1.moverConsume q
    else d
  else d

/-- A tick's work of the bank mover begins (R118). -/
def Queue.moverTick (x : Queue) : Queue :=
  { x with
    work := if x.pkind = 10 then x.work + x.quota else x.work
    cwork := if x.ckind = 10 then x.cwork + x.quota else x.cwork }

/-- The engine boundary starts the work of every scheduled and enabled queue. -/
def Chip.moverTicks (c : Chip) : Chip :=
  if c.qfActive then c.mapQueues (fun _ x => if x.en && x.sched then x.moverTick else x) else c

def execBankMoverTransfer (q : Fin 1024) (s : State) : Host.Outcome State Fault Refusal :=
  s.onDev (fun d => d.bankMover q)

/-! Enabling and disabling. -/

/-- The kinds and IDs of R103. That the ASRC groups are taken on both sides, where the consumer column names the Transmitter
alone, is the model's choice (DESIGN CHOICE, log entry 127). -/
def endpointValid (kind id : Nat) : Bool :=
  match kind with
  | 1 => id < 32
  | 2 => id < 2
  | 3 => id < 32
  | 4 => id < 16
  | 5 => id < 4 || (0x10 ≤ id && id < 0x18)
  | 6 => id < 256
  | 7 => id < 4
  | 8 => id == 0
  | 9 => id < 128
  | 10 => id == 0
  | _ => false

/-- The conditions of R128. -/
def Queue.valid (x : Queue) : Bool :=
  decide (fld x.d0 19 16 ≤ 12) && x.base % x.size == 0 && decide (x.base + x.size ≤ 0x8_0000) &&
    endpointValid x.pkind x.pid && endpointValid x.ckind x.cid &&
    decide (x.quota ≤ x.size) && (!x.sched || x.quota != 0) &&
    (!x.committed || (x.sched && !x.chkPop)) && (x.chkPop || x.lag == 0) &&
    ((x.pkind != 10 && x.ckind != 10) ||
      (x.sched && x.ringBase % x.ringSize == 0 && decide (x.ringBase + x.ringSize ≤ 0x200_0000)))

/-- The counts of a queue zeroed and its place in the Ledger's windows restarted; the descriptor stays (R123,
R128). -/
def Queue.restart (x : Queue) (en : Bool) : Queue :=
  { queueReset with d0 := x.d0, d1 := x.d1, d2 := x.d2, d3 := x.d3, en := en, lagLeft := x.lag }

/-- QF_CMD.ENABLE on a queue (R128). The requester of a CFG_LOCKED or CFG_INVALID is a register write: that ERR_INFO shows
no endpoint then is the model's choice; so is that EN of the descriptor alone decides whether a queue is enabled here, while
the fabric is active or not (DESIGN CHOICE, log entry 127). -/
def Chip.qEnable (c : Chip) (q : Nat) : Chip :=
  let x := c.queue q
  if x.en then c.err pgQF 0x01 (word q)
  else if !x.valid then c.err pgQF 0x02 (word q)
  else c.setQueue q (x.restart true)

/-- The byte addresses from and to which the storage of two queues overlaps. -/
def Queue.shared (x y : Queue) : Nat × Nat :=
  (0x3000_0000 + 4 * max x.base y.base, 0x3000_0000 + 4 * min (x.base + x.size) (y.base + y.size))

/-- The words of every overlap of queue `q` with another enabled queue become undefined (R121). -/
def Dev.overlapLost (d : Dev) (q : Nat) : Dev :=
  d.chip.qf.qs.foldl (fun d e =>
    let (lo, hi) := (d.chip.queue q).shared e.2
    if e.1 ≠ q ∧ e.2.en ∧ lo < hi then d.undefine lo (hi - lo) else d) d

/-- An ENABLE with what it does to the storage. -/
def Dev.queueEnable (d : Dev) (q : Nat) : Dev :=
  let d1 := d.chipOp (·.qEnable q)
  if !(d.chip.queue q).en && (d1.chip.queue q).en then d1.overlapLost q else d1

/-- The selected queue (R126). -/
def Chip.qsel (c : Chip) : Nat := c.rdf Reg.QF_QSEL 9 0

def execQueueEnable (s : State) : Host.Outcome State Fault Refusal := s.onDev (fun d => d.queueEnable d.chip.qsel)

/-- QF_CMD.DISABLE on a queue (R111, R128): the counts stay. That a window which has sampled the queue still judges, commits
and realigns it is the model's choice (DESIGN CHOICE, log entry 127). -/
def Chip.qDisable (c : Chip) (q : Nat) : Chip :=
  let x := c.queue q
  if x.en then c.setQueue q { x with en := false } else c

/-- QF_CMD.FLUSH on a queue (R124, R128): an enabled one by its descriptor, as for ENABLE (log entry 127). -/
def Chip.qFlush (c : Chip) (q : Nat) : Chip :=
  let x := c.queue q
  if x.en then c.err pgQF 0x01 (word q) else c.setQueue q { x with pop := x.push }

def execQueueFlush (s : State) : Host.Outcome State Fault Refusal := s.onChip (fun c => c.qFlush c.qsel)

/-- QF_CMD.CLRSTAT on a queue (R126). -/
def Chip.qClrstat (c : Chip) (q : Nat) : Chip := c.setQueue q { c.queue q with dropped := 0, under := 0 }

def execQueueClrstat (s : State) : Host.Outcome State Fault Refusal := s.onChip (fun c => c.qClrstat c.qsel)

/-- A write of QF_DESC0 to QF_DESC3 of the selected queue (R128). -/
def Chip.qfDescWrite (c : Chip) (i : Nat) (v : Word) : Chip :=
  let q := c.qsel
  let x := c.queue q
  if x.en then c.err pgQF 0x01 (word q)
  else if i = 0 then c.setQueue q { x with d0 := v &&& 0xF7FFF }
  else if i = 1 then c.setQueue q { x with d1 := v &&& 0xFF0F_FF0F }
  else if i = 2 then c.setQueue q { x with d2 := v &&& 0x37F_FFFF }
  else c.setQueue q { x with d3 := v &&& 0x3DFF_FFE0 }

/-- While the fabric is inactive no window counts; the first one after it is W1 again (R112). -/
def Chip.qfDeactivated (c : Chip) : Chip :=
  if c.qfActive then c
  else c.mapQueues (fun _ x => { x with w1 := false, lagLeft := x.lag, checked := false })

/-- A reset that reaches page QF (R123): descriptors keep their configuration, everything else is zero. -/
def Chip.resetQf (c : Chip) : Chip := (c.mapQueues (fun _ x => x.restart false)).resetPage pgQF

/-- The queue registers of page QF that show the selected queue (R126). -/
def Chip.qfView (c : Chip) (o : Nat) : Option Word :=
  let x := c.queue c.qsel
  if o = 0x048 then some (word (b2n x.en + 2 * b2n x.pwait + 4 * b2n x.cwait + 8 * b2n (x.skip != 0)))
  else if o = 0x060 then some x.d0
  else if o = 0x064 then some x.d1
  else if o = 0x068 then some x.d2
  else if o = 0x06C then some x.d3
  else if o = 0x070 then some x.push
  else if o = 0x074 then some x.pop
  else if o = 0x078 then some x.commit
  else if o = 0x07C then some x.exp
  else if o = 0x080 then some (x.skip &&& 0x1_FFFF)
  else if o = 0x084 then some x.dropped
  else if o = 0x088 then some x.under
  else none

/-! What a fixed-function consumer plays (R217, R218). -/

/-- A sample scaled by `num` / `den`, rounded towards zero. -/
def scaleTrunc (x : Word) (num den : Nat) : Word := BitVec.ofInt 32 (Int.tdiv (x.toInt * num) den)

/-- Whether the block that endpoint `kind`, `id` would play from queue `q` is withheld (R217). -/
def Chip.blockWithheld (c : Chip) (q kind id : Nat) : Bool :=
  let x := c.queue q
  x.withheld && x.ckind == kind && x.cid == id

/-- The word of channel `ch` at sample `k` of a block of `n` for a fixed-function consumer: of a withheld block the Overrun
Fade, and nothing is popped (R217); else the popped word, with the gain of the first block after a fade (R218). None at an
underrun, which plays as zero. -/
def Dev.play (q kind id k n : Nat) (x : BlockFade) (ch : Nat) (d : Dev) : Option Word × BlockFade × Dev :=
  if d.chip.blockWithheld q kind id then
    let b := if k = 0 then put x.base ch (look 0 x.last ch) else x.base
    let v := scaleTrunc (look 0 b ch) (n - 1 - k) n
    (some v, { base := b, last := put x.last ch v, pend := true, fin := false }, d)
  else
    let (r, w, d1) := d.pop q kind id
    if r = .served then
      let fin := if k = 0 ∧ ch = 0 then x.pend else x.fin
      let v := if fin then scaleTrunc w (k + 1) n else w
      (some v, { x with last := put x.last ch v, fin := fin, pend := x.pend && !(k == 0 && ch == 0) }, d1)
    else (none, { x with last := put x.last ch 0, fin := x.fin && !(k == 0 && ch == 0) }, d1)

/-- The words of `nch` channels at a strobe, and whether one of them is missing. -/
def Dev.playStrobe (q kind id k n : Nat) (x : BlockFade) (nch : Nat) (d : Dev) : List Word × Bool × BlockFade × Dev :=
  (List.range nch).foldl (fun (s : List Word × Bool × BlockFade × Dev) ch =>
    let (l, u, x, d) := s
    let (w, y, d1) := Dev.play q kind id k n x ch d
    (l ++ [w.getD 0], u || w.isNone, y, d1)) ([], false, x, d)

/-- At an audio boundary a block withheld by the last verdict begins, and the withheld one ends (R217). -/
def Queue.atAudio (x : Queue) : Queue := { x with withheld := x.withhold, withhold := false }

end Sys2Proof.Machine
end

