-- ==== Sys2Proof/Machine/Ledger.lean ====
section
/-! DEFINITION. The Ledger (R112 to R117, R200 to R216): loading a schedule table, sampling, the verdict, the
commit and the realignment. -/

namespace Sys2Proof.Machine

/-! The table. -/

/-- A 32-byte line of a table: zero beyond Bank Memory or in a bank that is not On (R209), one access (R210). -/
def Dev.tableLine (d : Dev) (a : Nat) : List Byte × Dev := d.fixedRead 1 a 32

/-- `n` lines from address `a`. -/
def Dev.tableLines : Nat → Nat → Dev → List Byte × Dev
  | 0, _, d => ([], d)
  | n + 1, a, d =>
    let (l, d1) := d.tableLine a
    let (r, d2) := Dev.tableLines n (a + 32) d1
    (l ++ r, d2)

/-- The queues of a path record (R204): NQ of 29 to 31 act as 28. -/
def recordQueues (b : List Byte) : List Nat :=
  (List.range (min (leAt b 4 4 % 32) 28)).map (fun i => leAt b (8 + 2 * i) 2 % 1024)

/-- The paths of `n` records from byte `at` on; a record with CONT = 1 joins the path before it (R205). -/
def tablePaths (l : List Byte) (n : Nat) : List LedgerPath :=
  (List.range n).foldl (fun ps r =>
    let b := (l.drop (0xC0 + 0x40 * r)).take 0x40
    let mecs := word (leAt b 0 4)
    let qs := recordQueues b
    match (leAt b 4 4).testBit 8, ps.getLast? with
    | true, some p => ps.dropLast ++ [{ mecs := p.mecs ||| mecs, queues := p.queues ++ qs }]
    | _, _ => ps ++ [{ mecs := mecs, queues := qs }]) []

/-- The table that the bytes spell (R201 to R204). -/
def decodeTable (l : List Byte) : LedgerTable :=
  let mec (m : Nat) : Nat := leAt l (0x40 + 4 * m) 4
  { chk := bitsOf (fun m => (mec m).testBit 0)
    loads := (indices 32 (fun m => (mec m).testBit 1)).map (fun m => (m, mec m / 0x1_0000 % 0x1000))
    paths := tablePaths l (leAt l 0 4 / 0x1_0000 % 256) }

/-- The Ledger reads the table at `a` (R208); the table is empty where R209 says so. -/
def Dev.loadTable (d : Dev) (a : Word) : Dev :=
  let d0 := d.chipOp (fun c => { c with ledger := { c.ledger with addr := some a } })
  if !inBankMem a.toNat then d0.chipOp (fun c => { c with ledger := { c.ledger with next := some emptyTable } })
  else
    let (h, d1) := Dev.tableLines 6 a.toNat d0
    if leAt h 0 1 ≠ 1 then d1.chipOp (fun c => { c with ledger := { c.ledger with next := some emptyTable } })
    else
      let (r, d2) := Dev.tableLines (2 * (leAt h 0 4 / 0x1_0000 % 256)) (a.toNat + 0xC0) d1
      d2.chipOp (fun c => { c with ledger := { c.ledger with next := some (decodeTable (h ++ r)) } })

/-- At an engine boundary the Ledger samples TICK_SCHED_BASE and loads when it starts or the address differs from
the one last loaded (R208). -/
def Dev.sampleTable (d : Dev) (base : Word) : Dev :=
  if d.chip.ledger.addr = some base then d else d.loadTable base

/-- A loaded table governs from this boundary: MECm_ENTRY takes ENTRY where LOAD = 1 (R208, R211). -/
def Chip.tableGoverns (c : Chip) : Chip :=
  match c.ledger.next with
  | none => c
  | some t =>
    let c1 := { c with ledger := { c.ledger with gov := t, next := none } }
    t.loads.foldl (fun c e => c.wr (Reg.MEC_ENTRY e.1) (word e.2)) c1

/-- The loaded copy is discarded when the Tick Unit stops (R225). -/
def Chip.dropTable (c : Chip) : Chip := { c with ledger := ledgerReset }

/-! The Commit Window. -/

/-- STATE of MEC `m` (R159): 0 STOPPED, 1 RUNNING, 2 ENDED, 3 HELD, 4 HALTED. -/
def Chip.mecState (c : Chip) (m : Nat) : Nat := c.rdf (Reg.MEC_STATE m) 2 0

/-- A checked MEC is late unless it is ENDED in TICK mode (R212). -/
def Chip.mecLate (c : Chip) (m : Nat) : Bool := c.mecState m != 2 || c.rdb (Reg.MEC_RUNCTL m) 0

/-- A queue at CW+0 (R112, R113): its first window is W1, then LAG windows go unchecked, then each window adds
QUOTA to EXP and compares the check-side count with it. In the window of tick L nothing is checked (R33). -/
def Queue.sample (x : Queue) (firstTick : Bool) : Queue :=
  if !(x.en && x.sched) then { x with checked := false }
  else if !x.w1 then { x with w1 := true, checked := false }
  else if x.lagLeft ≠ 0 then { x with lagLeft := x.lagLeft - 1, checked := false }
  else if firstTick then { x with checked := false }
  else
    let e := x.exp + word x.quota
    { x with
      checked := true
      expOld := x.exp
      exp := e
      passed := decide (0 ≤ ((if x.chkPop then x.pop else x.push) - e).toInt)
      settled := true }

/-- The Ledger's samples at CW+0 (R23, R112, R212). -/
def Chip.ledgerSample (c : Chip) (firstTick : Bool) : Chip :=
  let c1 := if c.qfActive then c.mapQueues (fun _ x => x.sample firstTick)
    else c.mapQueues (fun _ x => { x with checked := false })
  let late := if firstTick then 0 else bitsOf (fun m => bit c.ledger.gov.chk m && c.mecLate m)
  let chk := !firstTick && (c.ledger.gov.chk != 0 || c1.qf.qs.any (fun e => e.2.checked))
  { c1 with ledger := { c1.ledger with late := late, chk := chk, ok := true, advanced := false } }

/-- Whether a queue on the list failed its check in this window. -/
def Chip.anyFailed (c : Chip) (qs : List Nat) : Bool :=
  qs.any (fun q => (c.queue q).checked && !(c.queue q).passed)

/-- Whether a path is unfinished in this window (R213). -/
def Chip.unfinished (c : Chip) (p : LedgerPath) : Bool :=
  (p.mecs &&& c.ledger.late) != 0 || c.anyFailed p.queues

/-- The queues that lie on an unfinished path. -/
def Chip.unfinishedQueues (c : Chip) : List Nat :=
  (c.ledger.gov.paths.filter c.unfinished).flatMap (·.queues)

/-- The verdict at CW+8 (R213, R214): which checked queues are unsettled (R114), and the record. `tick` is the
tick whose window it is. -/
def Chip.ledgerVerdict (c : Chip) (tick : Word) : Chip :=
  let fails := c.qf.qs.any (fun e => e.2.checked && !e.2.passed)
  let ok := c.ledger.late == 0 && !fails
  let lost := if ok then [] else c.unfinishedQueues
  let c1 := c.mapQueues (fun q x => { x with settled := x.passed && !lost.contains q })
  let c2 := { c1 with ledger := { c1.ledger with ok := ok } }
  let c3 := c2.wr Reg.TICK_LEDGER (word (b2n ok + 2 * b2n c2.ledger.chk))
  if ok then c3
  else (((c3.wr Reg.TICK_LATE_MEC c.ledger.late).wr Reg.TICK_OVR_TICK tick).wr Reg.TICK_OVR_COUNT
    (satInc (c.rd Reg.TICK_OVR_COUNT))).irq pgTICK 2

/-- A checked queue at CW+16 (R108, R115, R216). -/
def Queue.commitStep (x : Queue) : Queue :=
  if x.checked && x.committed then
    if x.settled then { x with commit := x.commit + word x.quota } else { x with exp := x.expOld }
  else x

/-- The output commit at CW+16 (R108): every settled committed queue advances by its quota. -/
def Chip.ledgerCommit (c : Chip) : Chip :=
  if c.qfActive then
    let adv := c.qf.qs.any (fun e => e.2.checked && e.2.committed && e.2.settled)
    let c1 := c.mapQueues (fun _ x => x.commitStep)
    { c1 with ledger := { c1.ledger with advanced := adv } }
  else c

/-- Whether a realignment changes an unsettled queue (R115, R116). -/
def Queue.misaligned (x : Queue) : Bool :=
  x.checked && !x.settled &&
    (x.committed || decide ((x.pop - x.exp).toInt < 0) || decide ((x.push - x.exp).toInt < 0))

/-- A queue at the engine boundary that ends its window (R108, R115, R116): an unsettled one is realigned, and committed
words become visible. Words that the mover was to pop and that are discarded are no work of its any more (R118). -/
def Queue.atBoundary (x : Queue) : Queue :=
  let y :=
    if x.checked && !x.settled then
      if x.committed then { x with push := x.commit, withhold := decide (4 ≤ x.ckind ∧ x.ckind ≤ 9) }
      else
        let x1 := if (x.pop - x.exp).toInt < 0 then
            { x with pop := x.exp, cwork := x.cwork - (x.exp - x.pop).toNat } else x
        if (x1.push - x1.exp).toInt < 0 then
          if x1.pkind = 1 ∨ x1.pkind = 2 then { x1 with push := x1.exp } else { x1 with skip := x1.exp - x1.push }
        else x1
    else x
  { y with vis := y.commit, checked := false }

/-- The realignment at an engine boundary (R115 to R117), counted once per queue realigned; words that were committed become
visible while the fabric is inactive too (R108, R112). -/
def Chip.ledgerRealign (c : Chip) : Chip :=
  if c.qfActive then
    let n := (c.qf.qs.filter (fun e => e.2.misaligned)).length
    let c1 := c.mapQueues (fun _ x => x.atBoundary)
    if n = 0 then c1 else (c1.countBy Reg.QF_REALIGN_COUNT n).irq pgQF 4
  else c.mapQueues (fun _ x => { x with vis := x.commit })

end Sys2Proof.Machine
end

