-- ==== Sys2Proof/Machine/Tick.lean ====
section
/-! DEFINITION. The Tick Unit's own registers (R12 to R41): configuration, start, stop and counts. What happens
at its events stands in Machine/Window.lean and Machine/Strobe.lean. -/

namespace Sys2Proof.Machine

/-- N, the samples of a tick (R12). -/
def Chip.tickN (c : Chip) : Nat := 2 ^ c.rdf Reg.TICK_CFG 6 4

/-- The tick period in ns, rounded down, of the rate and N that TICK_CFG holds (R12). -/
def Chip.tickPeriod (c : Chip) : Nat := c.tickN * 1000000000 / rateHz c.tick.rateNext

/-- A combination of RATE, NLOG and START that EN accepts (R12, R31, R32). -/
def tickCfgValid (v : Word) : Bool :=
  decide (fld v 2 0 ≤ 5) && decide (fld v 6 4 ≤ 5) && fld v 9 8 != 3 && !(decide (4 ≤ fld v 2 0) && fld v 6 4 == 0)

/-- The instant that START names when EN takes effect (R32); AT_FRAME's comes with the FRAME_OUT pulse. -/
def Chip.startInstant (c : Chip) : Option Word :=
  match c.rdf Reg.TICK_CFG 9 8 with
  | 1 => if before (c.rd Reg.TICK_START_TIME) c.now then some (c.now + word c.tickPeriod)
    else some (c.rd Reg.TICK_START_TIME)
  | 2 => none
  | _ => some (c.now + word c.tickPeriod)

/-- Setting TICK_CTRL.EN (R31, R32, R34): an invalid configuration is refused; before a pending stop it asks for a
restart; a start at a time already past is late. -/
def Chip.tickStart (c : Chip) : Chip :=
  let cfg := c.rd Reg.TICK_CFG
  if c.tick.on then
    if c.tick.stopping then
      ({ c with tick := { c.tick with restart := true } }).wrb (Reg.CTRL pgTICK) 0 true
    else c
  else if !tickCfgValid cfg then c.err pgTICK 0x02 0
  else
    let t := { c.tick with
      on := true, stopping := false, restart := false, enAt := c.now, named := c.startInstant, skipped := false }
    let c1 := ({ c with tick := t }).wrb (Reg.CTRL pgTICK) 0 true
    if fld cfg 9 8 = 1 ∧ before (c.rd Reg.TICK_START_TIME) c.now then (c1.irq pgTICK 3).err pgTICK 0x03 0 else c1

def execTickStart (s : State) : Host.Outcome State Fault Refusal := s.onChip Chip.tickStart

/-- A FRAME_OUT pulse names the instant of a start that waits for it (R32). -/
def Chip.startFrame (c : Chip) : Chip :=
  if c.tick.on && !c.tickRuns && c.rdf Reg.TICK_CFG 9 8 == 2 && c.tick.named.isNone then
    { c with tick := { c.tick with named := some c.now } }
  else c

/-- Whether an audio boundary `ahead` ns from now may be A(L) (R32): not before the named instant, nor before 64 ecyc
after EN. -/
def Chip.startDue (c : Chip) (ahead : Nat) : Bool :=
  let t := c.now + word ahead
  match c.tick.named with
  | none => false
  | some i => !before t i && !before t (c.tick.enAt + 64)

/-- A sample strobe at or after the named instant that only the bound of 64 ecyc keeps from being A(L) (R32). -/
def Chip.startSkip (c : Chip) : Chip :=
  let early := before c.now (c.tick.enAt + 64)
  let named := match c.tick.named with
    | none => false
    | some i => !before c.now i
  if c.tick.on && !c.tickRuns && named && early then { c with tick := { c.tick with skipped := true } } else c

/-- What a start or a stop leaves of the Tick Unit when it halts (R34): TICK_COUNT stays, PHASE is 0, STOPPED is
set. That ECYC_IN_TICK reads 0 too while stopped, of which the spec gives PHASE alone, is the model's choice (DESIGN
CHOICE, log entry 113). -/
def Chip.tickHalt (c : Chip) : Chip :=
  (({ c with tick := { c.tick with on := false, stopping := false, restart := false, firstTick := false } }).wr
    Reg.TICK_PHASE 0).irq pgTICK 4

/-- Whether clearing TICK_CTRL.EN stops the Tick Unit at once: it waits for its first boundary (R34). -/
def Chip.stopsAtOnce (c : Chip) : Bool := c.tick.on && !c.tickRuns

/-- Clearing TICK_CTRL.EN (R34), but for what a halt does to other blocks. -/
def Chip.tickStopReq (c : Chip) : Chip :=
  let c1 := c.wrb (Reg.CTRL pgTICK) 0 false
  if c.stopsAtOnce then c1.tickHalt
  else if c.tick.on then { c1 with tick := { c1.tick with stopping := true, restart := false } }
  else c1

/-- A write of TICK_ECYC_CLR (R39). -/
def Chip.ecycClr (c : Chip) (v : Word) : Chip :=
  if bit v 0 then (c.wr Reg.TICK_ECYC_MIN 0xF_FFFF).wr Reg.TICK_ECYC_MAX 0 else c

def execEcycClr (v : Word) (s : State) : Host.Outcome State Fault Refusal := s.onChip (fun c => c.ecycClr v)

/-- A read of TICK_COUNT_LO latches the upper bits into TICK_COUNT_HI (R41). -/
def Chip.readTickCountLo (c : Chip) : Chip :=
  (c.wr Reg.TICK_COUNT_HI ((c.tick.count >>> 32).setWidth 32)).ret (c.tick.count.setWidth 32)

def execTickCountLoRead (s : State) : Host.Outcome State Fault Refusal := s.onChip Chip.readTickCountLo

/-- TICK_OFS0 or TICK_OFS1 fires while the Tick Unit runs (R28), by the offset that the tick's boundary sampled: one
that the tick does not reach does not fire (R29). -/
def Chip.ofsEvent (c : Chip) (n : Nat) : Chip :=
  if c.tickRuns && decide ((if n = 0 then c.tick.ofs0 else c.tick.ofs1) < c.tick.len) then c.tickEvent (3 + n) else c

def execOfsEvent (n : Fin 2) (s : State) : Host.Outcome State Fault Refusal := s.onChip (fun c => c.ofsEvent n)

/-- The length of the engine tick that ends (R16, R39): LAST, MIN, MAX and the mean over the last 256 ticks. That the
mean of fewer than 256 completed ticks is the mean of those, and that its fraction is truncated, are the model's
choices (DESIGN CHOICE, log entry 113). -/
def Chip.tickLength (c : Chip) : Chip :=
  let n := c.tick.len
  let ls := (n :: c.tick.lengths).take 256
  let mean := ls.foldl (· + ·) 0 * 4096 / ls.length
  ((((({ c with tick := { c.tick with lengths := ls } }).wr Reg.TICK_ECYC (word n)).wr Reg.TICK_ECYC_AVG (word mean)).wr
    Reg.TICK_ECYC_MIN (word (min n (c.rd Reg.TICK_ECYC_MIN).toNat))).wr
    Reg.TICK_ECYC_MAX (word (max n (c.rd Reg.TICK_ECYC_MAX).toNat)))

/-- TICK_CFG, TICK_START_TIME and TICK_COUNT_LOAD are locked while the Tick Unit is on (R30); a valid RATE is
the strobes' rate from their next one (R671). -/
def Chip.tickCfgWrite (c : Chip) (k : Nat) (v : Word) : Chip :=
  if c.tick.on then c.err pgTICK 0x01 (word (k % 0x1000))
  else
    let c1 := c.wr k v
    if k = Reg.TICK_CFG ∧ fld v 2 0 ≤ 5 then { c1 with tick := { c1.tick with rateNext := fld v 2 0 } } else c1

/-- TICK_COUNT_LOAD (R33). -/
def Chip.tickLoad (c : Chip) : BitVec 48 :=
  BitVec.ofNat 48 (c.rdf Reg.TICK_COUNT_LOAD_HI 15 0 * 2 ^ 32 + (c.rd Reg.TICK_COUNT_LOAD_LO).toNat)

/-- What an engine boundary samples (R29, R670). -/
def Chip.sampleOfs (c : Chip) : Chip :=
  { c with tick := { c.tick with ofs0 := c.rdf Reg.TICK_OFS0 19 0, ofs1 := c.rdf Reg.TICK_OFS1 19 0 } }

end Sys2Proof.Machine
end

