-- ==== Sys2Proof/Machine/Snap.lean ====
section
/-! DEFINITION. Snapdragon and Glide (R226 to R246): the coefficient banks, flips, glides and the writes they
hold, drop or refuse. -/

namespace Sys2Proof.Machine

/-- A refused arm (R229, R235). -/
def Chip.armRefused (c : Chip) (code : Nat) (info : Word) : Chip := (c.irq pgSNAP 2).err pgSNAP code info

/-- Whether the Commit Window of the present tick has opened. -/
def Chip.windowOpen (c : Chip) : Bool := c.rdf Reg.TICK_PHASE 1 0 == 2

/-- The earliest tick whose Commit Window has not opened (R229). -/
def Chip.nextWindow (c : Chip) : BitVec 48 :=
  if !c.tickRuns then c.tickLoad else if c.windowOpen then c.tick.count + 1 else c.tick.count

/-- The refusal code of an arm for tick `t`, 0 when it is accepted (R229). -/
def Chip.armCode (c : Chip) (busy : Bool) (t : BitVec 48) : Nat :=
  if !c.tick.on then 0x03
  else if busy then 0x02
  else if 2 ^ 47 ≤ (t - c.tick.count).toNat ∨ (t = c.tick.count ∧ c.windowOpen) then 0x01
  else 0

/-- A 48-bit tick from its two registers. -/
def Chip.tickOf (c : Chip) (lo hi : Nat) : BitVec 48 :=
  BitVec.ofNat 48 (c.rdf hi 15 0 * 2 ^ 32 + (c.rd lo).toNat)

/-- SNAP_CMD.FLIP_ARM for tick `t` (R229). -/
def Chip.flipArmAt (c : Chip) (t : BitVec 48) : Chip :=
  let code := c.armCode c.snap.flip.isSome t
  if code ≠ 0 then c.armRefused code 0
  else { c with snap := { c.snap with
    flip := some { tick := t, mask := c.rd Reg.SNAP_FLIP_MASK, lag := c.rdb Reg.SNAP_CFG 1, begun := false } } }

/-- SNAP_CMD.FLIP_ARM (R229). -/
def Chip.flipArm (c : Chip) : Chip := c.flipArmAt (c.tickOf Reg.SNAP_FLIP_TICK_LO Reg.SNAP_FLIP_TICK_HI)

def execFlipArm (s : State) : Host.Outcome State Fault Refusal := s.onChip Chip.flipArm

/-- SNAP_CMD.FLIP_ARM_NEXT (R229). -/
def Chip.flipArmNext (c : Chip) : Chip := c.flipArmAt c.nextWindow

def execFlipArmNext (s : State) : Host.Outcome State Fault Refusal := s.onChip Chip.flipArmNext

/-- A flip cancelled (R232): CANCELLED is set and every lock ends. -/
def Chip.flipCancel (c : Chip) : Chip := ({ c with snap := { c.snap with flip := none } }).irq pgSNAP 3

/-- SNAP_CMD.FLIP_DISARM: only before CW+0 of the window in which the flip is due (R232). -/
def Chip.flipDisarm (c : Chip) : Chip :=
  match c.snap.flip with
  | none => c
  | some f => if f.begun || (f.tick == c.tick.count && c.windowOpen) then c else c.flipCancel

def execFlipDisarm (s : State) : Host.Outcome State Fault Refusal := s.onChip Chip.flipDisarm

/-- The Live and Shadow copies of the chosen pages exchange; `atAudio` puts the effect off to the next audio
boundary (R26, R230). -/
def Chip.exchangePages (c : Chip) (patch dmix atAudio : Bool) : Chip :=
  let c1 := if patch then
      { c with patch := { c.patch with live := c.patch.shadow, shadow := c.patch.live, flip := atAudio } }
    else c
  if dmix then
    { c1 with dmix := { c1.dmix with live := c1.dmix.shadow, shadow := c1.dmix.live, flip := atAudio } }
  else c1

/-- The flip is complete (R230). -/
def Chip.flipComplete (c : Chip) (t : BitVec 48) : Chip :=
  ((({ c with snap := { c.snap with flip := none, last := t } }).wr Reg.SNAP_FLIP_LAST_LO (t.setWidth 32)).count
    Reg.SNAP_FLIP_COUNT).irq pgSNAP 0

/-- CW+24 (R230): the armed flip of this tick exchanges the banks of its mask and, with PAGE_LAG = 0, the pages
sampled at CW+0; with PAGE_LAG = 1 the pages follow one tick later. -/
def Chip.snapdragonFlip (c : Chip) : Chip :=
  match c.snap.flip with
  | none => c
  | some f =>
    if !c.windowOpen then c
    else if f.begun then
      if c.tick.count = f.tick + 1 then
        (c.exchangePages c.tick.snapPatch c.tick.snapDmix true).flipComplete f.tick
      else c
    else if c.tick.count = f.tick then
      let c1 := c.wr Reg.SNAP_LIVE (c.rd Reg.SNAP_LIVE ^^^ f.mask)
      if f.lag then { c1 with snap := { c1.snap with flip := some { f with begun := true } } }
      else (c1.exchangePages c.tick.snapPatch c.tick.snapDmix true).flipComplete f.tick
    else c

def execSnapdragonFlip (s : State) : Host.Outcome State Fault Refusal := s.onChip Chip.snapdragonFlip

/-- SHADOW_CTL.SNAP of a page (R59). -/
def Chip.snapBit (c : Chip) (p : Nat) : Bool := c.rdb (Reg.SHADOW_CTL p) 0

/-- A read of SNAP_FLIP_LAST_LO latches the upper bits (R246). -/
def Chip.flipLastRead (c : Chip) : Chip :=
  (c.wr Reg.SNAP_FLIP_LAST_HI ((c.snap.last >>> 32).setWidth 32)).ret (c.snap.last.setWidth 32)

def execFlipLastRead (s : State) : Host.Outcome State Fault Refusal := s.onChip Chip.flipLastRead

/-! Glide. -/

/-- BASE and LEN of a MEC's Glide List (R245). -/
def Chip.glBase (c : Chip) (m : Nat) : Nat := c.rdf (Reg.SNAP_GL_LIST m) 12 0
def Chip.glLen (c : Chip) (m : Nat) : Nat := c.rdf (Reg.SNAP_GL_LIST m) 26 16

/-- REM of a MEC (R235). -/
def Chip.glRem (c : Chip) (m : Nat) : Nat := c.rdf (Reg.SNAP_GL_REM m) 12 0

/-- The first MEC of a mask whose list breaks the limits (R235). -/
def Chip.glBad (c : Chip) (mask : Word) : Option Nat :=
  (indices 32 (fun m => bit mask m &&
    (decide (1024 < c.glLen m) || decide (8192 < c.glBase m + ceilDiv (c.glLen m) 2)))).head?

/-- SNAP_CMD.GLIDE_ARM for tick `t` (R235). -/
def Chip.glideArmAt (c : Chip) (t : BitVec 48) : Chip :=
  let code := c.armCode c.snap.glide.isSome t
  let mask := c.rd Reg.SNAP_GLIDE_MASK
  if code ≠ 0 then c.armRefused code 0
  else match c.glBad mask with
    | some m => c.armRefused 0x06 (word (m * 0x1_0000))
    | none => { c with snap := { c.snap with
        glide := some { tick := t, mask := mask, g := c.rdf Reg.SNAP_GLIDE_G 11 0 + 1 } } }

def Chip.glideArm (c : Chip) : Chip := c.glideArmAt (c.tickOf Reg.SNAP_GLIDE_TICK_LO Reg.SNAP_GLIDE_TICK_HI)

def execGlideArm (s : State) : Host.Outcome State Fault Refusal := s.onChip Chip.glideArm

def Chip.glideArmNext (c : Chip) : Chip := c.glideArmAt c.nextWindow

def execGlideArmNext (s : State) : Host.Outcome State Fault Refusal := s.onChip Chip.glideArmNext

/-- SNAP_CMD.GLIDE_DISARM (R236, R232). -/
def Chip.glideDisarm (c : Chip) : Chip :=
  match c.snap.glide with
  | none => c
  | some g =>
    if g.tick == c.tick.count && c.windowOpen then c
    else ({ c with snap := { c.snap with glide := none } }).irq pgSNAP 3

def execGlideDisarm (s : State) : Host.Outcome State Fault Refusal := s.onChip Chip.glideDisarm

/-- The glides of a mask end where they are, and no step of theirs applies in the present window any more; CANCELLED is
set when one of them ran (R228, R236). -/
def Chip.glideStopMask (c : Chip) (mask : Word) : Chip :=
  let ran := (List.range 32).any (fun m => bit mask m && c.glRem m != 0)
  let c1 := { c with snap := { c.snap with steps := c.snap.steps &&& ~~~mask } }
  (forUpTo 32 (fun m c => if bit mask m then c.wr (Reg.SNAP_GL_REM m) 0 else c) c1).irqIf ran pgSNAP 3

/-- SNAP_CMD.GLIDE_STOP (R236). -/
def Chip.glideStop (c : Chip) : Chip := c.glideStopMask (c.rd Reg.SNAP_GLIDE_MASK)

def execGlideStop (s : State) : Host.Outcome State Fault Refusal := s.onChip Chip.glideStop

/-- At CW+0 of the window of the arm's tick REM of each masked MEC becomes G (R235). -/
def Chip.glideStart (c : Chip) : Chip :=
  match c.snap.glide with
  | none => c
  | some g =>
    if g.tick = c.tick.count then
      forUpTo 32 (fun m c => if bit g.mask m then c.wr (Reg.SNAP_GL_REM m) (word g.g) else c)
        { c with snap := { c.snap with glide := none } }
    else c

/-- The address of word `w` of the bank of MEC `m` that is Live, or its Shadow bank (R46, R226). -/
def Chip.bankWord (c : Chip) (m : Nat) (live : Bool) (w : Nat) : Nat :=
  let b := c.rdb Reg.SNAP_LIVE m == live
  0x4000_0000 + m * 0x10_0000 + 0x6_0000 + (if b then 0x8000 else 0) + 4 * (w % 8192)

/-- The redundant sign bits of a positive word, its EXP (R141). -/
def expPos (w : Nat) : Nat := 30 - Nat.log2 w

/-- The pseudo-logarithm ℓ of a positive word (R238). -/
def glideLog (w : Nat) : Int :=
  let e := expPos w
  ((30 - e) * 2 ^ 30 + (w <<< e) % 2 ^ 30 : Nat)

/-- The inverse of ℓ (R238). -/
def glideExp (x : Int) : Nat :=
  let n := x.toNat
  (2 ^ 30 + n % 2 ^ 30) >>> (30 - n >>> 30)

/-- |w|, with 0x8000_0000 taken as 0x7FFF_FFFF (R238). -/
def glideMag (w : Word) : Nat := min w.toInt.natAbs 0x7FFF_FFFF

/-- A linear step from `l` toward `t` with `r` steps left (R237). -/
def glideLinear (l t : Word) (r : Nat) : Word := BitVec.ofInt 32 (l.toInt + Int.tdiv (t.toInt - l.toInt) r)

/-- One entry's new Live word (R237, R238). -/
def glideEntry (mode : Nat) (l t : Word) (r : Nat) : Word :=
  if r = 1 then t
  else if mode = 0 then glideLinear l t r
  else if mode = 1 then
    if l = 0 ∨ t = 0 ∨ l.msb ≠ t.msb then glideLinear l t r
    else
      let la := glideLog (glideMag l)
      let m := glideExp (la + Int.tdiv (glideLog (glideMag t) - la) r)
      if l.msb then BitVec.ofInt 32 (-(m : Int)) else word m
  else l

/-- Entry `i` of a MEC's list (R234). -/
def Dev.glideEntryAt (d : Dev) (m i : Nat) : Nat :=
  let w := d.mem.word (d.chip.bankWord m false (d.chip.glBase m + i / 2))
  if i % 2 = 0 then fld w 15 0 else fld w 31 16

/-- One entry of one step: entries past 1,024 or whose list word lies past the bank are skipped (R246). -/
def Dev.glideOne (m r i : Nat) (d : Dev) : Dev :=
  if 1024 ≤ i ∨ 8192 ≤ d.chip.glBase m + i / 2 then d
  else
    let e := d.glideEntryAt m i
    let l := d.chip.bankWord m true (e % 8192)
    let t := d.mem.word (d.chip.bankWord m false (e % 8192))
    { d with mem := d.mem.setWord l (glideEntry (e / 0x4000) (d.mem.word l) t r) }

/-- The step of one MEC (R237): its entries in list order, then REM goes down and GLIDE_DONE is set at zero. -/
def Dev.glideMec (m : Nat) (d : Dev) : Dev :=
  let r := d.chip.glRem m
  if r = 0 then d
  else
    let n := d.chip.glLen m
    let d1 := forUpTo n (Dev.glideOne m r) d
    let bad := decide (1024 < n) || decide (8192 < d.chip.glBase m + ceilDiv n 2)
    d1.chipOp (fun c =>
      let c1 := if bad then c.err pgSNAP 0x06 (word (m * 0x1_0000)) else c
      (c1.wr (Reg.SNAP_GL_REM m) (word (r - 1))).irqIf (r == 1) pgSNAP 1)

/-- The Glide steps of a Commit Window (R237). -/
def Dev.glideStep (d : Dev) : Dev :=
  if d.chip.windowOpen then forUpTo 32 Dev.glideMec d else d

def execGlideStep (s : State) : Host.Outcome State Fault Refusal := s.onDev Dev.glideStep

/-! Flips outside windows, cancels. -/

/-- SNAP_CMD.FLIP_NOW (R233). -/
def Chip.flipNow (c : Chip) : Chip :=
  if c.tick.on then c.err pgSNAP 0x07 0
  else
    let c1 := c.wr Reg.SNAP_LIVE (c.rd Reg.SNAP_LIVE ^^^ c.rd Reg.SNAP_FLIP_MASK)
    ((c1.exchangePages (c.snapBit pgPATCH) (c.snapBit pgDMIX) false).count Reg.SNAP_FLIP_COUNT).irq pgSNAP 0

/-- When the Tick Unit stops, the flip, the glide arm and every running glide are cancelled (R232, R236). -/
def Chip.snapStop (c : Chip) : Chip :=
  let armed := c.snap.flip.isSome || c.snap.glide.isSome
  (({ c with snap := { c.snap with flip := none, glide := none } }).irqIf armed pgSNAP 3).glideStopMask 0xFFFF_FFFF

/-! External writes to a coefficient bank. -/

/-- The MECs to which a flip, and those to which a Glide step, of the window that opens applies (R228). -/
def Chip.flipMecs (c : Chip) : Word :=
  match c.snap.flip with
  | some f => if !f.begun && f.tick == c.tick.count then f.mask else 0
  | none => 0
def Chip.stepMecs (c : Chip) : Word := bitsOf (fun m => c.glRem m != 0)

/-- Whether an external write to a coefficient bank of MEC `m` is held (R228): before CW+544 of such a window, or behind
one that is held. -/
def Chip.coeffHeld (c : Chip) (m : Nat) : Bool :=
  (c.windowOpen && !c.snap.past && bit (c.snap.flips ||| c.snap.steps) m) || !(look [] c.snap.held m).isEmpty

/-- Whether the Shadow bank of MEC `m` is locked by an armed flip (R231). -/
def Chip.shadowLocked (c : Chip) (m : Nat) : Bool :=
  match c.snap.flip with
  | some f => !f.begun && bit f.mask m
  | none => false

/-- Bytes written one by one. -/
def Memory.setEach (m : Memory) (l : List (Nat × Byte)) : Memory := l.foldl (fun m e => m.set e.1 e.2) m

/-- An external write that reaches a coefficient bank outside the held times (R228): dropped on the Live bank
without LIVE_WE, dropped on a locked Shadow bank, else served. -/
def Dev.coeffServe (d : Dev) (m : Nat) (w : HeldWrite) : Dev :=
  let c := d.chip
  let bankB := decide (0x6_8000 ≤ w.ofs)
  let info := word ((w.ofs - 0x6_0000) % 0x8000 / 4 + m * 0x1_0000)
  if c.rdb Reg.SNAP_LIVE m == bankB && !c.rdb Reg.SNAP_CFG 0 then
    d.chipOp (fun c => (c.irq pgSNAP 4).err pgSNAP 0x05 info)
  else if c.rdb Reg.SNAP_LIVE m != bankB && c.shadowLocked m then
    d.chipOp (fun c => (c.irq pgSNAP 4).err pgSNAP 0x04 info)
  else { d with mem := d.mem.setEach (w.bytes.map (fun e => (0x4000_0000 + m * 0x10_0000 + e.1, e.2))) }

/-- An external write to a coefficient bank (R228). -/
def Dev.coeffWrite (d : Dev) (m : Nat) (w : HeldWrite) : Dev :=
  if d.chip.coeffHeld m then
    d.chipOp (fun c => { c with snap := { c.snap with held := put c.snap.held m (look [] c.snap.held m ++ [w]) } })
  else d.coeffServe m w

/-- At CW+544 the held writes of MEC `m` are evaluated again, in order (R228). -/
def Dev.heldCoeff (d : Dev) (m : Nat) : Dev :=
  let ws := look [] d.chip.snap.held m
  let d1 := d.chipOp (fun c => { c with snap := { c.snap with held := put c.snap.held m [], past := true } })
  ws.foldl (fun d w => d.coeffServe m w) d1

def execHeldCoeffWrite (m : Fin 32) (s : State) : Host.Outcome State Fault Refusal :=
  s.onDev (fun d => d.heldCoeff m)

/-- Whether a write to a page's Shadow copy is dropped (R231): a flip is armed whose page exchange has not come,
and the page's SNAP is 1. -/
def Chip.pageLocked (c : Chip) (p : Nat) : Bool := c.snap.flip.isSome && c.snapBit p

/-- A dropped write to a page's Shadow copy (R231, R244). -/
def Chip.pageRefused (c : Chip) (p ofs : Nat) : Chip :=
  (c.irq pgSNAP 4).err pgSNAP 0x04 (word (0x8000_0000 + ofs % 0x1000 * 0x1_0000 + p))

/-- SNAP_STAT and SNAP_GLIDE_BUSY (R245). -/
def Chip.snapStat (c : Chip) : Word :=
  word (b2n c.snap.flip.isSome + 2 * b2n (c.snap.flip.any (fun f => f.lag && f.begun)) + 4 * b2n c.snap.glide.isSome)

def Chip.glideBusy (c : Chip) : Word :=
  bitsOf (fun m => c.glRem m != 0 || c.snap.glide.any (fun g => bit g.mask m))

/-- A reset that reaches page SNAP (R242). A BLOCK reset leaves the writes that the window holds, and its time, as they
are: they are evaluated at CW+544 (R228). -/
def Chip.resetSnap (block : Bool) (c : Chip) : Chip :=
  { c.resetPage pgSNAP with
    snap := if block then { snapReset with held := c.snap.held, past := c.snap.past } else snapReset }

end Sys2Proof.Machine
end

