-- ==== Sys2Proof/Machine/Patch.lean ====
section
/-! DEFINITION. The Patch Matrix (R247 to R261): select tables, route fades, generators and engine ports. -/

namespace Sys2Proof.Machine

/-! Sources and sinks. -/

/-- Whether a sink ID has a sink (R248). -/
def sinkExists (k : Nat) : Bool :=
  (0x010 ≤ k && k ≤ 0x017) || (0x100 ≤ k && k ≤ 0x30F) || (0x400 ≤ k && k ≤ 0x7FF) || (0x800 ≤ k && k ≤ 0xFFF)

/-- Whether a source ID is silence or reserved (R247). -/
def sourceSilent (k : Nat) : Bool :=
  k < 0x008 || (0x018 ≤ k && k ≤ 0x01F) || (0x080 ≤ k && k ≤ 0x0FF) || (0x300 ≤ k && k ≤ 0x3FF)

/-- The word a source holds at the present strobe (R250). -/
def Chip.source (c : Chip) (k : Nat) : Word := if sourceSilent k then 0 else look 0 c.patch.src k

/-- A source takes a word. -/
def Chip.setSource (c : Chip) (k : Nat) (w : Word) : Chip :=
  { c with patch := { c.patch with src := put c.patch.src k w } }

/-- The word a sink plays at the present strobe; zero while the page is disabled (R271) and in Quiet (R270). -/
def Chip.sinkWord (c : Chip) (k : Nat) : Word := if c.en pgPATCH && !c.quiet then look 0 c.patch.sink k else 0

/-! The select tables. -/

/-- SHADOW_CTL: a page's copy for reads (RSEL) and for writes (WSEL); true is the Shadow copy (R59). -/
def Chip.rsel (c : Chip) (p : Nat) : Bool := c.rdb (Reg.SHADOW_CTL p) 2
def Chip.wsel (c : Chip) (p : Nat) : Bool := c.rdb (Reg.SHADOW_CTL p) 1

/-- The copy (true: Shadow) and the entry that an offset of a table region of `n` bytes a copy names, `sel` being
the copy of its first part (R252, R269). -/
def tableEntry (ofs n : Nat) (sel : Bool) : Option (Bool × Nat) :=
  if ofs < n then some (sel, ofs / 4)
  else if ofs < 2 * n then some (false, (ofs - n) / 4)
  else if ofs < 3 * n then some (true, (ofs - 2 * n) / 4)
  else none

/-- A write into the select tables (R252, R253); a Shadow write of a locked page is dropped (R231). -/
def Chip.selectWrite (c : Chip) (ofs : Nat) (v : Word) : Chip :=
  match tableEntry ofs 0x4000 (c.wsel pgPATCH) with
  | none => c
  | some (shadow, k) =>
    if !sinkExists k then c
    else
      let e := v &&& 0x3_0FFF
      if shadow then
        if c.pageLocked pgPATCH then c.pageRefused pgPATCH ofs
        else { c with patch := { c.patch with shadow := put c.patch.shadow k e } }
      else { c with patch := { c.patch with live := put c.patch.live k e } }

def execSelectTableWrite (ofs : BitVec 20) (v : Word) (s : State) : Host.Outcome State Fault Refusal :=
  s.onChip (fun c => c.selectWrite ofs.toNat v)

/-- An entry as it reads (R248, R252): zero for an ID without a sink, zero in its reserved bits. -/
def selectEntry (t : Tbl Word) (k : Nat) : Word := if sinkExists k then look 0 t k &&& 0x3_0FFF else 0

/-- A read of the select tables (R252). -/
def Chip.selectRead (c : Chip) (ofs : Nat) : Word :=
  match tableEntry ofs 0x4000 (c.rsel pgPATCH) with
  | none => 0
  | some (true, k) => selectEntry c.patch.shadow k
  | some (false, k) => selectEntry c.patch.live k

/-! The Route Fade. -/

/-- The terms of the sine series from `term` = x^(2n-1) / (2n-1)! on, scaled by 2^80. -/
def sineTerms : Nat → Nat → Int → Int → Int
  | 0, _, _, _ => 0
  | f + 1, n, x2, term => term - sineTerms f (n + 1) x2 (term * x2 / 2 ^ 80 / ((2 * n) * (2 * n + 1)))

/-- sin(π/2 × t / 2^30) for t up to 2^30, scaled by 2^80. -/
def sineQuarter (t : Nat) : Int :=
  let x : Int := 0x1_921F_B544_42D1_8469_898C * t / 2 ^ 30
  sineTerms 16 1 (x * x / 2 ^ 80) x

/-- sin(2π × phase / 2^32), scaled by 2^80. -/
def sineOf (phase : Word) : Int :=
  let r := phase.toNat % 2 ^ 30
  match phase.toNat / 2 ^ 30 with
  | 0 => sineQuarter r
  | 1 => sineQuarter (2 ^ 30 - r)
  | 2 => -sineQuarter r
  | _ => -sineQuarter (2 ^ 30 - r)

/-- The gain sin(π/2 × k / 512) of a Route Fade to 24 fractional bits (R254); which way the last bit is rounded is
open. -/
def fadeGain (k : Nat) : Int :=
  if k = 0 then 0
  else if 512 ≤ k then 2 ^ 24
  else sineQuarter (k * 2 ^ 21) / 2 ^ 56 + (b2n (Config.fadeUp k) : Int)

/-- FADE lengths (R252). -/
def fadeLength (code : Nat) : Nat :=
  match code with
  | 0 => 0
  | 1 => 32
  | 2 => 128
  | _ => 512

/-- Sample `j` of a fade of length `len` from word `a` to word `b` (R254). -/
def fadeSample (len j : Nat) (a b : Word) : Word :=
  let k := (j + 1) * (512 / len)
  satWord (roundHalfUp (fadeGain (512 - k) * a.toInt + fadeGain k * b.toInt) 24)

/-- A change to `src` with length `len` starts: the source heard so far fades out. -/
def SinkSt.start (x : SinkSt) (src len : Nat) : SinkSt :=
  { b := src, a := x.b, len := len, pos := 0, pend := none }

/-- The fade moves to its next sample; after its last one the pending change starts (R254, R255). -/
def SinkSt.advance (x : SinkSt) : SinkSt :=
  if x.pos + 1 < x.len then { x with pos := x.pos + 1 }
  else match x.pend with
    | some (src, len) => x.start src len
    | none => { x with a := 0, len := 0, pos := 0 }

/-- The source that the last change named. -/
def SinkSt.target (x : SinkSt) : Nat :=
  match x.pend with
  | some (src, _) => src
  | none => x.b

/-- A route change to `src` with FADE length `len` takes effect (R254, R255). -/
def SinkSt.change (x : SinkSt) (src len : Nat) : SinkSt :=
  if len = 0 then { b := src, a := 0, len := 0, pos := 0, pend := none }
  else if x.len = 0 then x.start src len
  else if src = x.b then { x with pend := none }
  else { x with pend := some (src, len) }

/-- A sink at a strobe: the fade advances, then an entry that names another source is a route change. -/
def SinkSt.strobe (x : SinkSt) (hold : Bool) (entry : Word) : SinkSt :=
  let y := x.advance
  let src := fld entry 11 0
  if hold || src == y.target then y else y.change src (fadeLength (fld entry 17 16))

/-- The word a sink plays (R250, R254). -/
def Chip.sinkPlays (c : Chip) (x : SinkSt) : Word :=
  if x.len = 0 then c.source x.b else fadeSample x.len x.pos (c.source x.a) (c.source x.b)

/-- The sinks that the Live copy names and that no strobe has met yet start in silence. -/
def Chip.sinksListed (c : Chip) : Tbl SinkSt :=
  c.patch.live.foldl (fun t e => put t e.1 (look sinkReset t e.1)) c.patch.sinks

/-- Every sink takes its route changes at a strobe. Between a flip and its audio boundary the exchanged copy does
not act yet (R26, R253). -/
def Chip.sinkChanges (c : Chip) : Chip :=
  let ks := c.sinksListed.map (fun e => (e.1, e.2.strobe c.patch.flip (look 0 c.patch.live e.1)))
  { c with patch := { c.patch with sinks := ks } }

/-- Every sink takes its word at a strobe (R250). -/
def Chip.sinkWords (c : Chip) : Chip :=
  { c with patch := { c.patch with sink := c.patch.sinks.map (fun e => (e.1, c.sinkPlays e.2)) } }

/-- PATCH_SINK_STAT and PATCH_FADE_POS of the selected sink (R272). -/
def Chip.sinkStat (c : Chip) : Word :=
  let x := look sinkReset c.patch.sinks (c.rdf Reg.PATCH_SINK_SEL 11 0)
  word (x.b + x.a * 0x1_0000 + b2n (x.len != 0) * 0x1000_0000 + b2n x.pend.isSome * 0x2000_0000)
def Chip.fadePos (c : Chip) : Word :=
  word (look sinkReset c.patch.sinks (c.rdf Reg.PATCH_SINK_SEL 11 0)).pos

/-! Generators. -/

/-- Generator `g`. -/
def Chip.gen (c : Chip) (g : Nat) : GenSt := look genReset c.patch.gens g

/-- Generator `g` becomes `x`. -/
def Chip.setGen (c : Chip) (g : Nat) (x : GenSt) : Chip :=
  { c with patch := { c.patch with gens := put c.patch.gens g x } }

/-- A write of PATCH_GENg_CFG (R261): the phase and the impulse count start again. -/
def Chip.genType (c : Chip) (g : Nat) (v : Word) : Chip :=
  (c.wr (Reg.PATCH_GEN_CFG g) (v &&& 7)).setGen g { c.gen g with phase := 0, count := 0 }

def execGenTypeWrite (g : Fin 8) (v : Word) (s : State) : Host.Outcome State Fault Refusal :=
  s.onChip (fun c => c.genType g v)

/-- A write of PATCH_GENg_SEED (R261): a SEED of zero loads 1. -/
def Chip.genSeed (c : Chip) (g : Nat) (v : Word) : Chip :=
  c.setGen g { c.gen g with lfsr := if v = 0 then 1 else v }

def execGenSeedWrite (g : Fin 8) (v : Word) (s : State) : Host.Outcome State Fault Refusal :=
  s.onChip (fun c => c.genSeed g v)

/-- One step of the Galois LFSR of x^32 + x^22 + x^2 + x + 1 (R261), shifting right (log entry 9). -/
def lfsrStep (x : Word) : Word := if bit x 0 then (x >>> 1) ^^^ 0x8020_0003 else x >>> 1

/-- `n` steps of the LFSR. -/
def lfsrSteps : Nat → Word → Word
  | 0, x => x
  | n + 1, x => lfsrSteps n (lfsrStep x)

/-- A Q1.31 product rounded half up. -/
def mulQ31 (a b : Word) : Word := satWord (roundHalfUp (a.toInt * b.toInt) 31)

/-- The sine of a generator (R261). -/
def sineWord (phase level : Word) : Word :=
  satWord (roundHalfUp (level.toInt * sineOf phase) 80 + clampInt (-128) 128 (Config.sineErr phase level).toInt)

/-- One strobe of generator `g` (R261). The filter of pink noise is given by its slope alone: what it makes of the white word,
and what it keeps of it, are functions that Config leaves open. -/
def Chip.genStrobe (g : Nat) (c : Chip) : Chip :=
  let x := c.gen g
  let level := c.rd (Reg.PATCH_GEN_LEVEL g)
  let inc := c.rd (Reg.PATCH_GEN_PHINC g)
  match c.rdf (Reg.PATCH_GEN_CFG g) 2 0 with
  | 1 => (c.setGen g { x with phase := x.phase + inc, count := x.count + 1 }).setSource (8 + g)
          (sineWord x.phase level)
  | 2 =>
    let l := lfsrSteps 32 x.lfsr
    (c.setGen g { x with lfsr := l, count := x.count + 1 }).setSource (8 + g) (mulQ31 l level)
  | 3 =>
    let l := lfsrSteps 32 x.lfsr
    (c.setGen g { x with lfsr := l, count := x.count + 1, pink := Config.pinkNext x.pink l }).setSource (8 + g)
      (mulQ31 (Config.pinkOut x.pink l) level)
  | 4 => (c.setGen g { x with count := x.count + 1 }).setSource (8 + g)
          (if x.count % (fld inc 19 0 + 1) = 0 then level else 0)
  | _ => c.setSource (8 + g) 0

/-- The generators at a strobe. -/
def Chip.genStrobes (c : Chip) : Chip := forUpTo 8 Chip.genStrobe c

/-! Engine ports. -/

/-- BASE, the channels and EN of an engine port's CFG (R256, R272). -/
def epBase (v : Word) : Nat := fld v 9 0
def epChannels (v : Word) : Nat := fld v 20 16 + 1
def epEn (v : Word) : Bool := bit v 31

/-- ERR_INFO of an engine port (R271). -/
def epInfo (out : Bool) (p : Nat) : Word := word (p + 0x100 * b2n out)

/-- A write of an engine port's CFG (R260). -/
def Chip.epCfgWrite (c : Chip) (out : Bool) (p : Nat) (v : Word) : Chip :=
  let k := if out then Reg.PATCH_EOP_CFG p else Reg.PATCH_EIP_CFG p
  let w := v &&& 0x801F_03FF
  if epEn (c.rd k) then
    if epEn v then c.err pgPATCH 0x03 (epInfo out p) else c.wrb k 31 false
  else if epEn v && decide (1024 < epBase v + epChannels v) then
    ((c.wr k (setBit w 31 false)).irq pgPATCH 1).err pgPATCH 0x01 (epInfo out p)
  else
    let c1 := c.wr k w
    if out && epEn v then { c1 with patch := { c1.patch with eops := put c1.patch.eops p eopReset } } else c1

/-- A write of an engine port's Q (R260). -/
def Chip.epQWrite (c : Chip) (out : Bool) (p : Nat) (v : Word) : Chip :=
  let cfg := if out then Reg.PATCH_EOP_CFG p else Reg.PATCH_EIP_CFG p
  if epEn (c.rd cfg) then c.err pgPATCH 0x03 (epInfo out p)
  else c.wr (if out then Reg.PATCH_EOP_Q p else Reg.PATCH_EIP_Q p) (v &&& 0x3FF)

/-- An engine input port pushes the words of its sinks (R257). -/
def Dev.eipStrobe (p : Nat) (d : Dev) : Dev :=
  let cfg := d.chip.rd (Reg.PATCH_EIP_CFG p)
  if epEn cfg then
    d.pushAll (d.chip.rdf (Reg.PATCH_EIP_Q p) 9 0) 9 p
      ((List.range (epChannels cfg)).map (fun i => d.chip.sinkWord (0x400 + epBase cfg + i)))
  else d

/-- The engine input ports at a strobe: they push from A(L) up to the audio boundary after the stop (R257). -/
def Dev.eipStrobes (d : Dev) : Dev := if d.chip.tick.feed then forUpTo 128 Dev.eipStrobe d else d

/-- Engine output port `p`. -/
def Chip.eop (c : Chip) (p : Nat) : EopSt := look eopReset c.patch.eops p

/-- Engine output port `p` becomes `x`. -/
def Chip.setEop (c : Chip) (p : Nat) (x : EopSt) : Chip :=
  { c with patch := { c.patch with eops := put c.patch.eops p x } }

/-- Whether the present block is one that no queue has words for: no block at all, or block L or L + 1 of a start
(R33, R34). -/
def Chip.blockless (c : Chip) : Bool := !c.tick.block || decide (c.tick.audios ≤ 2)

/-- The first strobe of a block at an output port (R217, R218, R258, R259). -/
def Chip.eopBlock (c : Chip) (p q : Nat) : Chip :=
  let x := c.queue q
  let e := c.eop p
  let withheld := c.blockWithheld q 9 p
  let found := c.tick.block && c.qEnabled q && x.ckind == 9 && x.cid == p && !withheld && decide (0 < x.ccred)
  let exempt := withheld || c.blockless
  let e1 : EopSt :=
    if found then { e with missing := false, pops := true, gap := false, fadeIn := e.gap }
    else { e with missing := true, pops := !exempt, gap := true, fade := !e.gap, fadeIn := false }
  let c1 := c.setEop p e1
  if found || exempt then c1
  else ((c1.count Reg.PATCH_EO_UNDER_COUNT).irq pgPATCH 0).err pgPATCH 0x02 (epInfo true p)

/-- Channel `ch` of sample `k` of a block of `n` at output port `p`: the popped word, faded in after a gap, else the
Overrun Fade, which ends in silence. The pops of a missing block are refused (R101, R110, R111); none is made of a block that
a verdict withholds (R217) or that a start or a stop leaves out (R33, R34). -/
def Dev.eopChannel (p q k n base : Nat) (d : Dev) (ch : Nat) : Dev :=
  let e := d.chip.eop p
  let give (d : Dev) (v : Word) (keep : Bool) : Dev := d.chipOp (fun c =>
    (if keep then c.setEop p { c.eop p with last := put (c.eop p).last ch v } else c).setSource
      (0x400 + (base + ch) % 1024) v)
  let (_, w, d1) := if e.pops then d.pop q 9 p else (.refused, 0, d)
  if e.missing then
    if e.fade then give d1 (scaleTrunc (look 0 e.last ch) (n - 1 - k) n) (k + 1 == n)
    else give d1 0 true
  else give d1 (if e.fadeIn then scaleTrunc w (k + 1) n else w) true

/-- An engine output port at a strobe: sample `k` of the block of `n` (R258, R259). -/
def Dev.eopStrobe (k n p : Nat) (d : Dev) : Dev :=
  let cfg := d.chip.rd (Reg.PATCH_EOP_CFG p)
  if epEn cfg then
    let q := d.chip.rdf (Reg.PATCH_EOP_Q p) 9 0
    let d1 := if k = 0 then d.chipOp (fun c => c.eopBlock p q) else d
    (List.range (epChannels cfg)).foldl (Dev.eopChannel p q k n (epBase cfg)) d1
  else d

/-- The engine output ports at a strobe, the highest first, so that the lowest of several ports provides a source;
a source of no enabled port reads zero (R258). -/
def Dev.eopStrobes (k n : Nat) (d : Dev) : Dev :=
  let d0 := d.chipOp (fun c =>
    { c with patch := { c.patch with src := drop (fun s => 0x400 ≤ s && s < 0x800) c.patch.src } })
  forUpTo 128 (fun i d => Dev.eopStrobe k n (127 - i) d) d0

/-! Resets. -/

/-- A reset that reaches page PATCH (R270): the Shadow table stays (R10), and the words of the port sources stay the
ports' own. -/
def Chip.resetPatch (c : Chip) : Chip :=
  { c.resetPage pgPATCH with
    patch := { patchReset with
      shadow := c.patch.shadow
      src := drop (fun s => s < 0x010 || (0x400 ≤ s && s < 0x800)) c.patch.src } }

end Sys2Proof.Machine
end

