-- ==== Sys2Proof/Machine/Dmix.lean ====
section
/-! DEFINITION. The Direct Mixer and zero-crossing gain stepping (R262 to R269). -/

namespace Sys2Proof.Machine

/-! Zero-crossing gain stepping (R267). -/

/-- The gain that was last asked for. -/
def ZcSt.target (x : ZcSt) : Word := x.pend.getD x.gain

/-- A new target: the timer starts with the first change after the last step. -/
def ZcSt.retarget (x : ZcSt) (v now : Word) : ZcSt :=
  if v = x.target then x
  else { x with pend := some v, since := if x.pend.isSome then x.since else now }

/-- The pending gain applies. -/
def ZcSt.apply (x : ZcSt) : ZcSt := { x with gain := x.target, pend := none }

/-- Whether a sample is a zero crossing. -/
def zeroCrossing (prev new : Word) : Bool := new == 0 || new.msb != prev.msb

/-- The gain that multiplies a sample: it steps at a zero crossing, at any sample while stepping is disabled, and
at the first sample after `ms` milliseconds. The second result says that the timeout stepped it. -/
def ZcSt.sample (x : ZcSt) (en : Bool) (ms : Nat) (now prev new : Word) : ZcSt × Bool :=
  if x.pend.isNone then (x, false)
  else if !en || zeroCrossing prev new then (x.apply, false)
  else if ms * 1000000 ≤ (now - x.since).toNat then (x.apply, true)
  else (x, false)

/-! The Direct Mixer. -/

/-- Crosspoint `k` = 64j + i. -/
def Chip.xp (c : Chip) (k : Nat) : ZcSt := look zcReset c.dmix.xp k

/-- ZCEN and TO of DMIX_ZC (R268). -/
def Chip.dmixZcEn (c : Chip) : Bool := c.rdb Reg.DMIX_ZC 0
def Chip.dmixZcMs (c : Chip) : Nat := c.rdf Reg.DMIX_ZC 13 8 + 1

/-- S_j (R262, R273); in Quiet every output presents zero (R270). -/
def Chip.dmixSum (c : Chip) (j : Nat) : Int := if c.en pgDMIX && !c.quiet then look 0 c.dmix.s j else 0

/-- The output word of DMj before the clamp (R262). -/
def Chip.dmixRound (c : Chip) (j : Nat) : Int := roundHalfUp (c.dmixSum j) 28

/-- The output word of DMj (R262). -/
def Chip.dmixOut (c : Chip) (j : Nat) : Word := satWord (c.dmixRound j)

/-- S_j without the parts that some inputs' last words have brought, rounded and clamped (R263). -/
def Chip.dmixOutLess (c : Chip) (j : Nat) (late : List Nat) : Word :=
  if c.en pgDMIX && !c.quiet then
    satWord (roundHalfUp (look 0 c.dmix.s j - (late.map (fun i => look 0 c.dmix.delta (64 * j + i))).sum) 28)
  else 0

/-- S_j changes by `delta`; a clamp of its output word sets DMIX_SAT (R262, R273). -/
def Chip.dmixAdd (c : Chip) (j : Nat) (delta : Int) : Chip :=
  let c1 := { c with dmix := { c.dmix with s := put c.dmix.s j (look 0 c.dmix.s j + delta) } }
  if (c1.dmixOut j).toInt = c1.dmixRound j then c1 else (c1.wrb Reg.DMIX_SAT j true).irq pgDMIX 0

/-- Crosspoint `k` becomes `z`, and x_i of its input goes from `old` to `new`: its part of S_j follows. -/
def Chip.xpUpdate (c : Chip) (k : Nat) (z : ZcSt) (old new : Word) : Chip :=
  let g := (c.xp k).gain
  let c1 := { c with dmix := { c.dmix with xp := put c.dmix.xp k z } }
  c1.dmixAdd (k / 64) (z.gain.toInt * new.toInt - g.toInt * old.toInt)

/-- A step by timeout counts (R268). -/
def Chip.dmixTimedOut (c : Chip) (b : Bool) : Chip := if b then c.count Reg.DMIX_ZC_TIMEOUTS else c

/-- A word of input `i` arrives (R262, R267); what it brings to each sum is kept, for loads that it comes too late for
(R263). -/
def Chip.dmixWord (i : Nat) (w : Word) (c : Chip) : Chip :=
  let old := look 0 c.dmix.x i
  let ks := (c.dmix.xp.filter (fun e => e.1 % 64 == i)).map (·.1)
  let c1 := ks.foldl (fun c k =>
    let (z, t) := (c.xp k).sample c.dmixZcEn c.dmixZcMs c.now old w
    let part := z.gain.toInt * w.toInt - (c.xp k).gain.toInt * old.toInt
    ({ c with dmix := { c.dmix with delta := put c.dmix.delta k part } }.xpUpdate k z old w).dmixTimedOut t) c
  { c1 with dmix := { c1.dmix with x := put c1.dmix.x i w } }

/-- x_i becomes zero and every S_j follows at once (R265). -/
def Chip.dmixZero (i : Nat) (c : Chip) : Chip :=
  let old := look 0 c.dmix.x i
  let ks := (c.dmix.xp.filter (fun e => e.1 % 64 == i)).map (·.1)
  let c1 := ks.foldl (fun c k => c.xpUpdate k (c.xp k) old 0) c
  { c1 with dmix := { c1.dmix with x := put c1.dmix.x i 0 } }

/-- EN or OVR, SLOT and PORT of a DMIX_INi or DMIX_OUTj (R274). -/
def dmSlot (v : Word) : Nat := fld v 8 4
def dmPort (v : Word) : Nat := fld v 15 12

/-- The word of slot `slot` of port `p` reaches the inputs in force that name it (R262), but for Quiet (R270). -/
def Chip.dmixPortWord (p slot : Nat) (w : Word) (c : Chip) : Chip :=
  if c.quiet then c
  else c.dmix.inCfg.foldl (fun c e =>
    if bit e.2 0 && dmPort e.2 == p && dmSlot e.2 == slot then c.dmixWord e.1 w else c) c

/-- The lowest output in force that drives slot `slot` of port `p` (R264). -/
def Chip.dmixDriver (c : Chip) (p slot : Nat) : Option Nat :=
  (c.dmix.outCfg.find? (fun e => bit e.2 0 && dmPort e.2 == p && dmSlot e.2 == slot)).map (·.1)

/-- The word that the Direct Mixer puts in place of a slot's sink (R264, R273). -/
def Chip.dmixOverride (c : Chip) (p slot : Nat) : Option Word :=
  if c.en pgDMIX then (c.dmixDriver p slot).map c.dmixOut else none

/-- DMIX_INi takes effect at a frame sync of the port it names (R265). -/
def Chip.dmixInSync (p i : Nat) (c : Chip) : Chip :=
  let v := c.rd (Reg.DMIX_IN i)
  if dmPort v = p ∧ v ≠ look 0 c.dmix.inCfg i then
    { c with dmix := { c.dmix with inCfg := put c.dmix.inCfg i v } }.dmixZero i
  else c

/-- DMIX_OUTj takes effect at a frame sync of the port it names (R265); an output whose slot a lower one drives
already loses (R264). -/
def Chip.dmixOutSync (p j : Nat) (c : Chip) : Chip :=
  let v := c.rd (Reg.DMIX_OUT j)
  if dmPort v = p ∧ v ≠ look 0 c.dmix.outCfg j then
    let c1 := { c with dmix := { c.dmix with outCfg := put c.dmix.outCfg j v } }
    let same := c1.dmix.outCfg.filter (fun e => bit e.2 0 && bit v 0 && dmPort e.2 == p && dmSlot e.2 == dmSlot v)
    match same.drop 1 with
    | [] => c1
    | e :: _ => (c1.irq pgDMIX 1).err pgDMIX 0x01 (word (if e.1 < j then j else e.1))
  else c

/-- A frame sync of SAP port `p` at the Direct Mixer, which is halted in Quiet (R270). -/
def Chip.dmixFrameSync (p : Nat) (c : Chip) : Chip :=
  if c.quiet then c else forUpTo 32 (Chip.dmixOutSync p) (forUpTo 64 (Chip.dmixInSync p) c)

/-! The gain tables. -/

/-- Crosspoint `k` takes the Live gain as its target (R268). -/
def Chip.dmixTarget (c : Chip) (k : Nat) : Chip :=
  { c with dmix := { c.dmix with xp := put c.dmix.xp k ((c.xp k).retarget (look 0 c.dmix.live k) c.now) } }

/-- Every crosspoint takes its Live gain as its target, after an exchange of the tables (R268). -/
def Chip.dmixTargets (c : Chip) : Chip :=
  let ks := (c.dmix.live ++ c.dmix.shadow).map (·.1)
  ks.foldl Chip.dmixTarget c

/-- A write into the gain tables (R268, R269); a Shadow write of a locked page is dropped (R231). -/
def Chip.gainWrite (c : Chip) (ofs : Nat) (v : Word) : Chip :=
  match tableEntry ofs 0x2000 (c.wsel pgDMIX) with
  | none => c
  | some (true, k) =>
    if c.pageLocked pgDMIX then c.pageRefused pgDMIX ofs
    else { c with dmix := { c.dmix with shadow := put c.dmix.shadow k v } }
  | some (false, k) => { c with dmix := { c.dmix with live := put c.dmix.live k v } }.dmixTarget k

def execDmixGainWrite (ofs : BitVec 20) (v : Word) (s : State) : Host.Outcome State Fault Refusal :=
  s.onChip (fun c => c.gainWrite ofs.toNat v)

/-- A read of the gain tables (R269). -/
def Chip.gainRead (c : Chip) (ofs : Nat) : Word :=
  match tableEntry ofs 0x2000 (c.rsel pgDMIX) with
  | none => 0
  | some (true, k) => look 0 c.dmix.shadow k
  | some (false, k) => look 0 c.dmix.live k

/-- The timeout of a crosspoint's pending step (R267, R268); none comes in Quiet (R270). -/
def Chip.dmixTimeout (c : Chip) (i j : Nat) : Chip :=
  let k := 64 * j + i
  if (c.xp k).pend.isSome && !c.quiet then
    let x := look 0 c.dmix.x i
    (c.xpUpdate k (c.xp k).apply x x).count Reg.DMIX_ZC_TIMEOUTS
  else c

/-- The crosspoint that DMIX_PROBE_SEL selects (R274). -/
def Chip.dmixProbe (c : Chip) : ZcSt := c.xp (64 * c.rdf Reg.DMIX_PROBE_SEL 12 8 + c.rdf Reg.DMIX_PROBE_SEL 5 0)

/-- What an audio boundary does to exchanged tables (R26, R253, R268). -/
def Chip.exchangeActs (c : Chip) : Chip :=
  let c1 := if c.dmix.flip then { c with dmix := { c.dmix with flip := false } }.dmixTargets else c
  { c1 with patch := { c1.patch with flip := false } }

/-- SNAP_CMD.FLIP_NOW (R233): the exchange acts at once. -/
def Chip.flipNowActs (c : Chip) : Chip :=
  let c1 := c.flipNow
  if !c.tick.on && c.snapBit pgDMIX then c1.dmixTargets else c1

def execFlipNow (s : State) : Host.Outcome State Fault Refusal := s.onChip Chip.flipNowActs

/-- A reset that reaches page DMIX (R270): the Shadow table stays (R10). -/
def Chip.resetDmix (c : Chip) : Chip :=
  { c.resetPage pgDMIX with dmix := { dmixReset with shadow := c.dmix.shadow } }

end Sys2Proof.Machine
end

