-- ==== Sys2Proof/Machine/MemMap.lean ====
section
/-! DEFINITION. The address map (R42 to R51): which region an address lies in, and what a core's address names. -/

namespace Sys2Proof.Machine

/-- A region of the physical map with the offset in it (R42). -/
inductive Region where
  | bootRom (ofs : Nat)
  | bank (ofs : Nat)
  | bitSet (ofs : Nat)
  | bitClear (ofs : Nat)
  | queueRam (ofs : Nat)
  | mec (m ofs : Nat)
  | steward (n ofs : Nat)
  | page (p ofs : Nat)
  | patch (ofs : Nat)
  | dmix (ofs : Nat)
  | packet (ofs : Nat)
  | dram (k ofs : Nat)
  | hole
deriving DecidableEq, Repr

/-- The target port of a region (R310); 15 for a hole. -/
def Region.target : Region → Nat
  | .bootRom _ => 12
  | .bank o | .bitSet o | .bitClear o => o / 0x40_0000
  | .queueRam _ | .page _ _ | .patch _ | .dmix _ | .packet _ => 10
  | .mec _ _ | .steward _ _ => 11
  | .dram k _ => 8 + k
  | .hole => 15

/-- A number for each kind of region, and for each MEC window (R313). -/
def Region.kind : Region → Nat
  | .bootRom _ => 0
  | .bank _ => 1
  | .bitSet _ => 2
  | .bitClear _ => 3
  | .queueRam _ => 4
  | .steward n _ => 5 + n
  | .page _ _ => 7
  | .patch _ => 8
  | .dmix _ => 9
  | .packet _ => 10
  | .dram k _ => 11 + k
  | .hole => 13
  | .mec m _ => 32 + m

/-- Whether an offset of a MEC's local window is named (R43, R46). -/
def mecOffset (o : Nat) : Bool :=
  o < 0x1_0000 || (0x2_0000 ≤ o && o < 0x3_8000) || (0x4_0000 ≤ o && o < 0x5_8000) ||
    (0x6_0000 ≤ o && o < 0x7_0000) || (0xF_0000 ≤ o && o < 0xF_1000)

/-- The bytes a DRAM channel holds: 2^(30 + DENSITY) (R594). -/
def Chip.dramLog (c : Chip) (k : Nat) : Nat := 30 + c.rdf (Reg.DRAM_CFG k) 1 0

/-- The region of a physical address, the zero window under REMAP (R42, R43, R46, R47). -/
def Chip.region (c : Chip) (a : Nat) : Region :=
  if a < 0x10_0000 then
    if c.rdb Reg.SYS_CTRL 0 then .bank a
    else if a < 0x2_0000 then .bootRom a
    else .hole
  else if 0x1000_0000 ≤ a ∧ a < 0x1002_0000 then .bootRom (a - 0x1000_0000)
  else if 0x2000_0000 ≤ a ∧ a < 0x2200_0000 then .bank (a - 0x2000_0000)
  else if 0x2400_0000 ≤ a ∧ a < 0x2600_0000 then .bitSet (a - 0x2400_0000)
  else if 0x2800_0000 ≤ a ∧ a < 0x2A00_0000 then .bitClear (a - 0x2800_0000)
  else if 0x3000_0000 ≤ a ∧ a < 0x3020_0000 then .queueRam (a - 0x3000_0000)
  else if 0x4000_0000 ≤ a ∧ a < 0x4200_0000 then
    if mecOffset (a % 0x10_0000) then .mec ((a - 0x4000_0000) / 0x10_0000) (a % 0x10_0000) else .hole
  else if 0x4200_0000 ≤ a ∧ a < 0x4204_0000 then .steward 0 (a - 0x4200_0000)
  else if 0x4210_0000 ≤ a ∧ a < 0x4214_0000 then .steward 1 (a - 0x4210_0000)
  else if 0x6000_0000 ≤ a ∧ a < 0x6010_0000 then .page ((a - 0x6000_0000) / 0x1000) (a % 0x1000)
  else if 0x6100_0000 ≤ a ∧ a < 0x6110_0000 then .patch (a - 0x6100_0000)
  else if 0x6110_0000 ≤ a ∧ a < 0x6120_0000 then .dmix (a - 0x6110_0000)
  else if 0x6200_0000 ≤ a ∧ a < 0x6240_0000 then .packet (a - 0x6200_0000)
  else if 0x1_0000_0000 ≤ a ∧ a < 0x2_0000_0000 then
    if a - 0x1_0000_0000 < 2 ^ c.dramLog 0 then .dram 0 (a - 0x1_0000_0000) else .hole
  else if 0x2_0000_0000 ≤ a ∧ a < 0x3_0000_0000 then
    if a - 0x2_0000_0000 < 2 ^ c.dramLog 1 then .dram 1 (a - 0x2_0000_0000) else .hole
  else .hole

/-- The address that an address names outside the zero window: there, what REMAP shows (R47). -/
def Chip.trueAddr (c : Chip) (a : Nat) : Nat :=
  if 0x10_0000 ≤ a then a
  else if c.rdb Reg.SYS_CTRL 0 then 0x2000_0000 + a
  else if a < 0x2_0000 then 0x1000_0000 + a
  else a

/-- The storage that channel offset `a` reaches under an address order, as row, bank and column in the places of
order 0 (R594). -/
def dramStorage (order d a : Nat) : Nat :=
  let bits (hi lo : Nat) : Nat := a / 2 ^ lo % 2 ^ (hi + 1 - lo)
  match order with
  | 1 => bits (d - 5) 12 * 2 ^ 16 + bits (d - 1) (d - 4) * 2 ^ 12 + bits 11 0
  | 2 => bits (d - 1) 16 * 2 ^ 16 + (bits 9 6 ^^^ bits 19 16 ^^^ bits 23 20) * 2 ^ 12 +
      bits 15 10 * 2 ^ 6 + bits 5 0
  | _ => a

/-- The address under which a byte of plain memory is kept. -/
def Chip.memKey (c : Chip) : Region → Option Nat
  | .bank o => some (0x2000_0000 + o)
  | .queueRam o => some (0x3000_0000 + o)
  | .mec m o => if o < 0xF_0000 then some (0x4000_0000 + m * 0x10_0000 + o) else none
  | .steward n o => some (0x4200_0000 + n * 0x10_0000 + o)
  | .packet o => some (0x6200_0000 + o)
  | .dram k o => some (0x1_0000_0000 * (k + 1) + dramStorage (c.rdf (Reg.DRAM_CFG k) 5 4) (c.dramLog k) o)
  | _ => none

/-- A byte of plain memory or of the Boot ROM; 0 elsewhere. -/
def Dev.regionByte (d : Dev) (r : Region) : Byte :=
  match r with
  | .bootRom o => Config.bootRom o
  | _ => match d.chip.memKey r with
    | some k => d.mem.get k
    | none => 0

/-- The byte at a physical address, outside the register fabric. -/
def Dev.physByte (d : Dev) (a : Nat) : Byte := d.regionByte (d.chip.region a)

/-! Grants and errors of the bus matrix. -/

/-- Whether a fixed path may present to some bank (R83): a mover's ring, the schedule table, Marigold's buffers. -/
def Chip.fixedPaths (c : Chip) : Bool :=
  c.tick.on || c.en pgMGLD || c.qf.qs.any (fun e => e.2.en && (e.2.pkind == 10 || e.2.ckind == 10))

/-- The stalls of a matrix access at Bank Memory group `g` under R82: how many a fixed path brings about, the timing that
the model does not hold decides (R84; a free value). -/
def Chip.bankStalls (c : Chip) (g : Nat) : Chip :=
  if g < 8 ∧ c.fixedPaths then (c.countBy (Reg.BANK_CONFLICT g) (c.freeNow 32).toNat).freeNext else c

/-- One more transaction granted at a target, to a master port (R314, R324). -/
def Chip.busGrant (c : Chip) (port t : Nat) : Chip :=
  if t < 13 then
    let c1 := c.count (Reg.MTX_TP_GRANTS t)
    ({ c1 with mtx := { c1.mtx with last := put c1.mtx.last t port } }).bankStalls t
  else c

/-- An error response (R319, R323): its count, its interrupt flag, and the record with its address. -/
def Chip.busError (c : Chip) (port t : Nat) (write : Bool) (a resp : Nat) : Chip :=
  if resp = 0 then c
  else
    let dec := resp == 2
    let c1 := (c.count (if dec then Reg.MTX_DECERR_COUNT else Reg.MTX_SLVERR_COUNT)).irq pgMTX (if dec then 0 else 1)
    let c2 := if c.rdf (Reg.ERR_CODE pgMTX) 7 0 = 0 then
      (c1.wr Reg.MTX_ERR_ADDR_LO (word a)).wr Reg.MTX_ERR_ADDR_HI (word (a / 2 ^ 32)) else c1
    c2.err pgMTX (if dec then 0x01 else 0x02)
      (word (port + (if dec then 0xF else t) * 0x100 + b2n write * 0x1_0000))

/-- The target port of a beat; 15 for what the matrix refuses itself (R43). -/
def Chip.beatTarget (c : Chip) (port : Nat) (write : Bool) (a : Nat) : Nat :=
  match c.region a with
  | .bootRom o => if write then 15 else (Region.bootRom o).target
  | .queueRam o => if port = 14 then (Region.queueRam o).target else 15
  | r => r.target

/-- Runs of equal numbers: the number, the index of the first, the length. -/
def runs : List Nat → Nat → List (Nat × Nat × Nat)
  | [], _ => []
  | k :: t, i =>
    match runs t (i + 1) with
    | (j, i', n) :: rest => if j = k then (k, i, n + 1) :: rest else (k, i, 1) :: (j, i', n) :: rest
    | [] => [(k, i, 1)]

/-- The parts into which beats at the given addresses are divided, by region and target (R313): target, first beat,
beats. -/
def Chip.beatParts (c : Chip) (port : Nat) (write : Bool) (addrs : List Nat) : List (Nat × Nat × Nat) :=
  (runs (addrs.map (fun a => (c.region a).kind * 16 + c.beatTarget port write a)) 0).map (fun e => (e.1 % 16, e.2.1, e.2.2))

/-- The grants of a transaction that completes within the command that issues it: one for each of its parts. -/
def Chip.grantBeats (port : Nat) (write : Bool) (addrs : List Nat) (c : Chip) : Chip :=
  (c.beatParts port write addrs).foldl (fun c p => c.busGrant port p.1) c

/-! Cores: MEC n is core n, Steward n is core 32 + n. -/

/-- Whether core `k` is a Steward. -/
def isSteward (k : Nat) : Bool := 32 ≤ k

/-- The page of core `k` (R52). -/
def pgCore (k : Nat) : Nat := if isSteward k then pgST (k - 32) else pgMEC k

/-- The number of a core. -/
def coreNum : CoreId → Nat
  | .mec n => n
  | .st n => 32 + n

/-- The master port of core `k` (R129, R309). -/
def corePort (k : Nat) : Nat := if isSteward k then k - 28 else k / 8

/-- The core's own local memory starts here (R46). -/
def localBase (k : Nat) : Nat := 0x4000_0000 + k * 0x10_0000

/-- APBASE of core `k` (R50). -/
def Chip.apBase (c : Chip) (k : Nat) : Nat :=
  c.rdf (if isSteward k then Reg.ST_APBASE (k - 32) else Reg.MEC_APBASE k) 19 0

/-- The physical address of a core address above its first MiB (R49). -/
def Chip.corePhys (c : Chip) (k a : Nat) : Nat :=
  if a < 0x8000_0000 then a else (c.apBase k * 2 ^ 20 + (a - 0x8000_0000)) % 2 ^ 40

/-- LZ of a Steward (R49). -/
def Chip.lz (c : Chip) (k : Nat) : Bool := c.rdb (Reg.ST_CFG (k - 32)) 0

/-- The physical address of a core's access that it does not serve itself (R49 to R51): a MEC's own window under its global
address, a Steward's zero window; none in the hole that LZ = 1 leaves. -/
def Chip.remoteAddr (c : Chip) (k a : Nat) : Option Nat :=
  if 0x10_0000 ≤ a then some (c.corePhys k a)
  else if isSteward k then (if c.lz k then none else some a)
  else some (localBase k + a)

/-- What a core address names without the bus matrix: the offset in the core's own local memory (R49, R51). -/
def Chip.coreLocal (c : Chip) (k a : Nat) : Option Nat :=
  if isSteward k then (if c.lz k && a < 0x4_0000 then some a else none)
  else if a < 0x10_0000 then some a
  else none

end Sys2Proof.Machine
end

