-- ==== Sys2Proof/Machine/Dram.lean ====
section
/-! DEFINITION. The DRAM controllers (R592 to R610): states, refresh, temperature regimes, retraining. The service of
transactions and the entry to self-refresh stand in Machine/Matrix.lean. -/

namespace Sys2Proof.Machine

/-- Controller `k`. -/
def Chip.dramSt (c : Chip) (k : Nat) : DramSt := look dramReset c.dram k

/-- Controller `k` becomes `x`. -/
def Chip.setDram (c : Chip) (k : Nat) (x : DramSt) : Chip := { c with dram := put c.dram k x }

/-- STATE (R605): 0 OFF, 1 INIT, 2 RUN, 3 PAUSE, 4 SELFREF, 5 FAILED. -/
def Chip.dramState (c : Chip) (k : Nat) : Nat := c.rdf (Reg.DRAM_STAT k) 2 0
def Chip.setDramState (c : Chip) (k v : Nat) : Chip := c.wrf (Reg.DRAM_STAT k) 2 0 v

/-- HOT and CRIT (R599). -/
def Chip.dramHot (c : Chip) (k : Nat) : Bool := c.rdb (Reg.DRAM_STAT k) 3
def Chip.dramCrit (c : Chip) (k : Nat) : Bool := c.rdb (Reg.DRAM_STAT k) 4

/-- STAT.POSTPONED (R598). -/
def Chip.postponed (c : Chip) (k : Nat) : Nat := c.rdf (Reg.DRAM_STAT k) 11 8
def Chip.setPostponed (c : Chip) (k n : Nat) : Chip := c.wrf (Reg.DRAM_STAT k) 11 8 n

/-- MAXPOST (R598). -/
def Chip.maxPost (c : Chip) (k : Nat) : Nat := min 8 (c.rdf (Reg.DRAM_CFG k) 19 16)

/-- A DRAM command that its state does not accept (R605). -/
def Chip.dramRefused (c : Chip) (k : Nat) : Chip := c.err (pgDRAM k) 0x05 0

/-- Where the storage of channel `k` begins in the model's memory. -/
def dramBase (k : Nat) : Nat := 0x1_0000_0000 * (k + 1)

/-- The contents of a channel become undefined (R605, R608). -/
def Dev.dramLose (d : Dev) (k : Nat) : Dev := d.undefine (dramBase k) 0x1_0000_0000

/-- The first register with a configuration that INIT refuses (R607). -/
def Chip.dramBadCfg (c : Chip) (k : Nat) : Option Nat :=
  if c.rdf (Reg.DRAM_CFG k) 1 0 = 3 ∨ c.rdf (Reg.DRAM_CFG k) 5 4 = 3 then some 0x40
  else if c.rdf (Reg.DRAM_TIM1 k) 12 0 = 0 then some 0x48
  else none

/-- DRAMk_CMD.INIT (R605, R607): the contents become undefined. -/
def Dev.dramInit (k : Nat) (d : Dev) : Dev :=
  let st := d.chip.dramState k
  if st = 0 ∨ st = 4 ∨ st = 5 then
    match d.chip.dramBadCfg k with
    | some o => d.chipOp (fun c => c.err (pgDRAM k) 0x02 (word o))
    | none => (d.dramLose k).chipOp (fun c =>
        (c.setDramState k 1).setDram k { dramReset with rot := (c.dramSt k).rot })
  else d.chipOp (·.dramRefused k)

def execDramInit (k : Fin 2) (s : State) : Host.Outcome State Fault Refusal := s.onDev (Dev.dramInit k)

/-- DRAMk_CMD.RESUME (R605): only in SELFREF after a reset or after Listen. -/
def Chip.dramResume (k : Nat) (c : Chip) : Chip :=
  let x := c.dramSt k
  if c.dramState k = 4 ∧ (x.cause = 3 ∨ x.cause = 4) ∧ x.resume = false then c.setDram k { x with resume := true }
  else c.dramRefused k

def execDramResume (k : Fin 2) (s : State) : Host.Outcome State Fault Refusal := s.onChip (Chip.dramResume k)

/-- The controller enters RUN: nothing postponed, no MR4 read yet, no row open (R605, R610). -/
def Chip.dramRun (c : Chip) (k : Nat) : Chip :=
  (((c.setDramState k 2).setPostponed k 0).wrb (Reg.DRAM_TEMP k) 16 false).setDram k
    { dramReset with rot := (c.dramSt k).rot }

/-- INIT or RESUME ends (R605): INIT in RUN, or in FAILED when training finds no setting; RESUME in RUN. -/
def Chip.dramInitDone (k : Nat) (ok : Bool) (c : Chip) : Chip :=
  if c.dramState k = 1 then
    if ok then (c.dramRun k).irq (pgDRAM k) 0 else ((c.setDramState k 5).irq (pgDRAM k) 0).irq (pgDRAM k) 1
  else if c.dramState k = 4 ∧ (c.dramSt k).resume then (c.dramRun k).irq (pgDRAM k) 0
  else c

def execDramInitDone (k : Fin 2) (ok : Bool) (s : State) : Host.Outcome State Fault Refusal :=
  s.onChip (Chip.dramInitDone k ok)

/-- Whether the controller serves: RUN or PAUSE. -/
def Chip.dramLive (c : Chip) (k : Nat) : Bool := c.dramState k == 2 || c.dramState k == 3

/-- A pause becomes due. -/
def Chip.setPauseDue (c : Chip) (k : Nat) (b : Bool) : Chip := c.wrb (Reg.DRAM_STAT k) 15 b

/-- DRAMk_CMD.RETRAIN (R602, R604). -/
def Chip.retrain (k : Nat) (c : Chip) : Chip := if c.dramLive k then c.setPauseDue k true else c.dramRefused k

def execRetrain (k : Fin 2) (s : State) : Host.Outcome State Fault Refusal := s.onChip (Chip.retrain k)

/-- DRAMk_CMD.RT_ARM (R604). -/
def Chip.rtArm (k : Nat) (c : Chip) : Chip :=
  if c.dramLive k then ((c.wrf (Reg.DRAM_STAT k) 13 12 0).wrb (Reg.DRAM_STAT k) 14 false).setPauseDue k true
  else c.dramRefused k

def execRtArm (k : Fin 2) (s : State) : Host.Outcome State Fault Refusal := s.onChip (Chip.rtArm k)

/-! Refresh (R598 to R601). -/

/-- Whether accepted transactions wait at the controller (R595). -/
def Chip.dramWaits (c : Chip) (k : Nat) : Bool := c.mtx.acc.any (fun p => p.target == 8 + k)

/-- Whether a refresh may be postponed (R599). -/
def Chip.mayPostpone (c : Chip) (k : Nat) : Bool := !c.dramHot k && !c.dramCrit k

/-- A refresh is issued: all-bank closes every row, per-bank the rows of its pair. -/
def Chip.refreshIssue (c : Chip) (k : Nat) : Chip :=
  let x := c.dramSt k
  if c.rdb (Reg.DRAM_CFG k) 8 then
    c.setDram k { x with rot := (x.rot + 1) % 8, rows := drop (fun b => b % 8 == x.rot) x.rows }
  else c.setDram k { x with rows := [] }

/-- One postponed refresh is repaid while no transaction waits (R598). -/
def Chip.refreshRepay (c : Chip) (k : Nat) : Chip :=
  if c.dramWaits k || c.postponed k == 0 then c else (c.setPostponed k (c.postponed k - 1)).refreshIssue k

/-- A refresh falls due (R598): postponed while transactions wait and the regime and MAXPOST allow it, else issued. -/
def Chip.refreshDue (k : Nat) (c : Chip) : Chip :=
  if !c.dramLive k then c
  else if c.dramWaits k && c.mayPostpone k && decide (c.postponed k < c.maxPost k) then
    c.setPostponed k (c.postponed k + 1)
  else (c.refreshIssue k).refreshRepay k

def execRefreshDue (k : Fin 2) (s : State) : Host.Outcome State Fault Refusal := s.onChip (Chip.refreshDue k)

/-- Every postponed refresh at once (R600). -/
def Chip.repayAll (c : Chip) (k : Nat) : Chip := forUpTo (c.postponed k) (fun _ c => c.refreshIssue k) (c.setPostponed k 0)

/-- HOT and CRIT after a reading of BAND `b` (R599). -/
def regime (b : Nat) (hot crit : Bool) : Bool × Bool :=
  match b with
  | 0 => (false, false)
  | 1 => (hot, crit)
  | 2 => (true, false)
  | _ => (hot, true)

/-- An MR4 reading (R599, R600): TEMP, the regime with its interrupt flags, and the payoff when it ends
postponement. -/
def Chip.mr4Apply (c : Chip) (k : Nat) (op : BitVec 5) (band : Nat) : Chip :=
  let hot := c.dramHot k
  let crit := c.dramCrit k
  let (hot', crit') := regime band hot crit
  let c1 := c.wr (Reg.DRAM_TEMP k) (word (op.toNat + band * 0x100 + 0x1_0000))
  let c2 := (c1.wrb (Reg.DRAM_STAT k) 3 hot').wrb (Reg.DRAM_STAT k) 4 crit'
  let c3 := ((c2.irqIf (!hot && hot') (pgDRAM k) 3).irqIf ((hot && !hot') || (crit && !crit')) (pgDRAM k) 4).irqIf
    (!crit && crit') (pgDRAM k) 5
  if c.mayPostpone k && !c3.mayPostpone k && c3.postponed k != 0 then
    ((c3.repayAll k).count (Reg.DRAM_PAYOFFS k)).irq (pgDRAM k) 6
  else c3

/-- MR4 is read; a read that falls due in a pause is issued when the pause ends (R601). -/
def Chip.mr4Read (k : Nat) (op : BitVec 5) (band : Nat) (c : Chip) : Chip :=
  if c.dramState k = 2 then c.mr4Apply k op band
  else if c.dramState k = 3 then c.setDram k { c.dramSt k with mr4 := some (op, band) }
  else c

def execMr4Read (k : Fin 2) (op : BitVec 5) (band : Fin 4) (s : State) : Host.Outcome State Fault Refusal :=
  s.onChip (Chip.mr4Read k op band)

/-! Retraining (R602 to R604). -/

/-- The retraining period expires (R602, R604). -/
def Chip.pauseDue (k : Nat) (c : Chip) : Chip :=
  if c.dramState k = 2 ∧ c.rdf (Reg.DRAM_RT_CFG k) 7 0 ≠ 0 ∧ c.rdb (Reg.DRAM_STAT k) 14 = false then c.setPauseDue k true
  else c

def execPauseDue (k : Fin 2) (s : State) : Host.Outcome State Fault Refusal := s.onChip (Chip.pauseDue k)

/-- A pause begins (R602). -/
def Chip.pauseBegin (c : Chip) (k : Nat) : Chip :=
  let c1 := (((c.setPauseDue k false).setDramState k 3).wr (Reg.DRAM_RT_LAST k) c.now).count (Reg.DRAM_PAUSES k)
  c1.setDram k { c1.dramSt k with slot := false, rows := [] }

/-- Whether pauses are placed in Commit Windows: the Tick Unit runs and TICK_DRAM_SLOT.DRAMk_OK = 1 (R27, R603). -/
def Chip.pauseSlots (c : Chip) (k : Nat) : Bool := c.tickRuns && c.rdb Reg.TICK_DRAM_SLOT k

/-- Whether a due pause may be placed at all (R603). -/
def Chip.pausePlaceable (c : Chip) (k : Nat) : Bool :=
  c.dramState k == 2 && c.rdb (Reg.DRAM_STAT k) 15 && !c.dramCrit k

/-- At CW+0 a due pause may start in this window (R603). -/
def Chip.pauseSlot (c : Chip) (k : Nat) : Chip :=
  c.setDram k { c.dramSt k with slot := c.pausePlaceable k && c.pauseSlots k }

/-- The instant CW+0 has passed. -/
def Chip.pauseSlotEnd (c : Chip) (k : Nat) : Chip := c.setDram k { c.dramSt k with slot := false }

/-- A due pause starts at CW+0, or, without slots, when no accepted transaction waits (R603). -/
def Chip.pauseStart (k : Nat) (c : Chip) : Chip :=
  if c.pausePlaceable k && (if c.pauseSlots k then (c.dramSt k).slot else !c.dramWaits k) then c.pauseBegin k else c

def execPauseStart (k : Fin 2) (s : State) : Host.Outcome State Fault Refusal := s.onChip (Chip.pauseStart k)

/-- GRACE ms have passed (R603): the pause is placed, counted as outside where slots exist; never past CW+0 of a
window. -/
def Chip.pauseGrace (k : Nat) (c : Chip) : Chip :=
  if c.pausePlaceable k then
    if c.pauseSlots k then
      if c.windowOpen then c else ((c.pauseBegin k).count (Reg.DRAM_PAUSE_OUT k)).irq (pgDRAM k) 7
    else c.pauseBegin k
  else c

def execPauseGrace (k : Fin 2) (s : State) : Host.Outcome State Fault Refusal := s.onChip (Chip.pauseGrace k)

/-- The training result of a pause (R604). -/
def Chip.trainResult (c : Chip) (k : Nat) (ok : Bool) : Chip :=
  if ok then c.wrf (Reg.DRAM_STAT k) 13 12 0
  else
    let fails := c.rdf (Reg.DRAM_STAT k) 13 12
    let n := min 3 (fails + 1)
    let c1 := ((c.count (Reg.DRAM_TRAIN_FAILS k)).wrf (Reg.DRAM_STAT k) 13 12 n).irq (pgDRAM k) 1
    if fails = 2 then (c1.wrb (Reg.DRAM_STAT k) 14 true).irq (pgDRAM k) 2 else c1

/-- A pause ends (R601, R604). -/
def Chip.pauseEnd (k : Nat) (ok : Bool) (c : Chip) : Chip :=
  if c.dramState k = 3 then
    let c1 := (c.setDramState k 2).trainResult k ok
    match (c1.dramSt k).mr4 with
    | some (op, band) => (c1.setDram k { c1.dramSt k with mr4 := none }).mr4Apply k op band
    | none => c1
  else c

def execPauseEnd (k : Fin 2) (ok : Bool) (s : State) : Host.Outcome State Fault Refusal :=
  s.onChip (Chip.pauseEnd k ok)

/-! Self-refresh (R606). -/

/-- An event asks the controller to enter self-refresh, for `cause`. -/
def Chip.dramSleep (c : Chip) (k cause : Nat) : Chip :=
  if c.dramLive k then c.setDram k { c.dramSt k with want := cause } else c

/-- Self-refresh is entered: postponed refreshes repaid, no row open (R601, R606). -/
def Chip.selfrefEnter (c : Chip) (k cause : Nat) : Chip :=
  let c1 := ((c.repayAll k).setDramState k 4).setPauseDue k false
  c1.setDram k { dramReset with rot := (c1.dramSt k).rot, cause := cause }

/-- The event that ends an automatic self-refresh: the return to Run, the release of the ENGINE reset, or the end of
an idle request. -/
def Chip.dramWake (c : Chip) (k cause : Nat) : Chip :=
  let x := c.dramSt k
  if x.cause = cause ∧ c.dramState k = 4 then c.setDram k { x with go := true }
  else if x.want = cause then c.setDram k { x with want := 0 }
  else c

/-- The controller restarts its clocks, runs one pause and enters RUN (R603, R606); whether the training of that pause
passes is a free value. -/
def Chip.selfrefExit (k : Nat) (c : Chip) : Chip :=
  let x := c.dramSt k
  if c.dramState k = 4 ∧ x.go then
    let ok := c.freeNow 1 == 1
    ((((((c.freeNext.setDramState k 2).wrb (Reg.DRAM_TEMP k) 16 false).wr (Reg.DRAM_RT_LAST k) c.now).count
      (Reg.DRAM_PAUSES k)).trainResult k ok).setDram k { dramReset with rot := x.rot })
  else c

def execSelfrefExit (k : Fin 2) (s : State) : Host.Outcome State Fault Refusal := s.onChip (Chip.selfrefExit k)

/-- DRAMk_STATS_CLR (R610). -/
def Chip.dramStatsClr (k : Nat) (v : Word) (c : Chip) : Chip :=
  if bit v 0 then
    (((c.wr (Reg.DRAM_PAUSES k) 0).wr (Reg.DRAM_PAUSE_OUT k) 0).wr (Reg.DRAM_TRAIN_FAILS k) 0).wr (Reg.DRAM_PAYOFFS k) 0
  else c

def execDramStatsClr (k : Fin 2) (v : Word) (s : State) : Host.Outcome State Fault Refusal :=
  s.onChip (Chip.dramStatsClr k v)

/-- A write of DRAMk_CMD, lowest bit first (R669). -/
def Dev.dramCmd (k : Nat) (v : Word) (d : Dev) : Dev :=
  let d1 := if bit v 0 then d.dramInit k else d
  d1.chipOp (fun c =>
    let c1 := if bit v 1 then c.dramResume k else c
    let c2 := if bit v 2 then c1.retrain k else c1
    if bit v 3 then c2.rtArm k else c2)

/-- A write of DRAMk_CFG, DRAMk_TIM0 or DRAMk_TIM1: only in OFF (R607). -/
def Chip.dramCfgWrite (k key : Nat) (v : Word) (c : Chip) : Chip :=
  if c.dramState k = 0 then c.wr key v else c.err (pgDRAM k) 0x01 (word (key % 0x1000))

/-- A reset that reaches page DRAMk, after the entry to self-refresh (R606, R608). -/
def Chip.resetDram (k : Nat) (c : Chip) : Chip :=
  let sr := c.dramState k == 2 || c.dramState k == 3 || c.dramState k == 4
  let c1 := c.resetPage (pgDRAM k)
  if sr then (c1.setDramState k 4).setDram k { dramReset with cause := 3 } else { c1 with dram := drop (· == k) c1.dram }

end Sys2Proof.Machine
end

