-- ==== Sys2Proof/Machine/MemBus.lean ====
section
/-! DEFINITION. Beats at the memory targets of the bus matrix (R42 to R45, R76, R81, R85, R228, R605), error records
(R319), and the bursts of the masters that reach memory alone. Outcomes: 0 OKAY, 1 SLVERR, 2 DECERR. -/

namespace Sys2Proof.Machine

/-- Whether a DRAM channel serves an access (R605); during an ENGINE reset an access waits and is then served (R606). -/
def Chip.dramServes (c : Chip) (k : Nat) : Bool := c.dramLive k || (c.dramState k == 4 && (c.dramSt k).cause == 2)

/-- Whether a DRAM channel keeps an access waiting: in a pause (R27), on its way into self-refresh and in that of an ENGINE
reset (R606). -/
def Chip.dramHolds (c : Chip) (k : Nat) : Bool :=
  let st := c.dramState k
  st == 3 || (st == 4 && (c.dramSt k).cause == 2) || (st == 2 && (c.dramSt k).want != 0)

/-- Whether a beat goes to X or Y data of a MEC (R46, R88). -/
def Region.xy : Region → Bool
  | .mec _ o => decide (0x2_0000 ≤ o ∧ o < 0x6_0000)
  | _ => false

/-- Whether an accepted access to X or Y data of MEC `m` waits (R88). -/
def Chip.localWaits (c : Chip) (m : Nat) : Bool :=
  c.mtx.acc.any (fun p => (c.partAddrs p).any (fun a =>
    match c.region a with
    | .mec n o => n == m && (Region.mec n o).xy
    | _ => false))

/-- Whether the target of an access keeps it waiting: a DRAM channel; a page, or a MEC's registers, whose BLOCK reset lasts
(R619); a MEC's window behind an access that waits (R88) or a held coefficient write, and a write in its held time
(R228). -/
def Chip.targetHolds (c : Chip) (write : Bool) (a : Nat) : Bool :=
  match c.region a with
  | .dram k _ => c.dramHolds k
  | .page p _ => look 0 c.pwr.blk p == 2
  | .mec m o =>
    (0xF_0000 ≤ o && look 0 c.pwr.blk (pgMEC m) == 2) || !(look [] c.snap.held m).isEmpty || c.localWaits m ||
      (write && decide (0x6_0000 ≤ o ∧ o < 0x7_0000) && c.coeffHeld m)
  | _ => false

/-- Whether a limit of R309 holds a transaction of this master (and channel) back. -/
def Chip.atLimit (c : Chip) (m chan : Nat) : Bool :=
  let out (p : Txn → Bool) : Nat := (c.mtx.opn.filter (fun o => p o.txn)).length
  if 6 ≤ m ∧ m ≤ 9 then
    256 ≤ out (fun t => 6 ≤ t.master.val && t.master.val ≤ 9) || 16 ≤ out (fun t => t.master.val == m && t.chan.val == chan)
  else
    let limit := if m < 6 then 8 else if m < 12 then 64 else if m = 12 then 32 else if m = 13 then 4 else 2
    limit ≤ out (fun t => t.master.val == m)

/-- Whether a transaction that completes within its command has to wait before it can be issued and served: a limit
(R311), an earlier access of its master at the same target (R318), or a target that holds it. -/
def Chip.mustWait (c : Chip) (port chan : Nat) (write : Bool) (addrs : List Nat) : Bool :=
  c.atLimit port chan || addrs.any (fun a =>
    c.targetHolds write a ||
      (c.mtx.wait ++ c.mtx.acc).any (fun p => p.master == port && p.target == c.beatTarget port write a))

/-- An access of the command has to wait. -/
def Dev.stallOn (wait : Bool) (d : Dev) : Dev := if wait then d.chipOp (fun c => { c with stall := true }) else d

/-- What a command of an engine does, once none of its accesses has to wait; until then nothing happens, and the command
comes again (log entry 125). -/
def Dev.orWait (f : Dev → Dev) (d : Dev) : Dev :=
  let d1 := f (d.chipOp (fun c => { c with stall := false }))
  if d1.chip.stall then d else d1.chipOp (fun c => { c with stall := d.chip.stall })

/-- An access that a DRAM channel refuses (R605). -/
def Chip.dramNo (c : Chip) (k o : Nat) : Chip := c.err (pgDRAM k) (if c.dramState k = 4 then 0x04 else 0x03) (word o)

/-- Bytes of plain memory from the address on, `n` of one region. -/
def Dev.regionBytes (d : Dev) (a n : Nat) : List Byte := (List.range n).map (fun i => d.physByte (a + i))

/-- What a beat at a memory target meets before it moves data: its outcome and the record of a refusal. A register, and
an alias with another width than 32 bits, answer SLVERR here (R44). -/
def Dev.memCheck (d : Dev) (port a n : Nat) (write : Bool) : Nat × Dev :=
  match d.chip.region a with
  | .hole => (2, d)
  | .bootRom _ => if write then (2, d) else (0, d)
  | .bank o => if d.chip.bankOn (o / 0x8_0000) then (0, d) else (1, d.chipOp (·.bankRefused (o / 0x8_0000)))
  | .bitSet o | .bitClear o =>
    if n ≠ 4 ∨ a % 4 ≠ 0 then (1, d)
    else if d.chip.bankOn (o / 0x8_0000) then (0, d) else (1, d.chipOp (·.bankRefused (o / 0x8_0000)))
  | .queueRam _ => if port ≠ 14 then (2, d) else if n ≠ 4 ∨ a % 4 ≠ 0 then (1, d) else (0, d)
  | .mec _ o => if 0xF_0000 ≤ o then (1, d) else (0, d)
  | .steward _ _ => (0, d)
  | .packet _ => (0, d)
  | .dram k o => if d.chip.dramServes k then (0, d) else (1, d.chipOp (·.dramNo k o))
  | .page _ _ | .patch _ | .dmix _ => (1, d)

/-- A read beat: zeros when it fails (R319); a read through an alias is a plain read (R85). -/
def Dev.memBeatRead (d : Dev) (port a n : Nat) : Nat × List Byte × Dev :=
  let (r, d1) := d.memCheck port a n false
  if r ≠ 0 then (r, List.replicate n 0, d1)
  else match d.chip.region a with
    | .bitSet o | .bitClear o => (0, d.regionBytes (0x2000_0000 + o) n, d1)
    | _ => (0, d.regionBytes a n, d1)

/-- The bytes that a write beat stores, each with its offset from the beat's address. -/
abbrev BeatBytes := List (Nat × Byte)

/-- Plain bytes stored at physical addresses. -/
def Dev.storeBytes (d : Dev) (a : Nat) (l : BeatBytes) : Dev :=
  { d with mem := d.mem.setEach (l.filterMap (fun e =>
      (d.chip.memKey (d.chip.region (a + e.1))).map (fun k => (k, e.2)))) }

/-- Bytes of a MEC's program memory are written (R89): a bundle written whole is new; one written in part is torn until every
byte of it has been rewritten (log entry 128). -/
def CoreSt.tear (x : CoreSt) (l : List Nat) : CoreSt :=
  let bundles := l.foldl (fun t o => if t.contains (o / 16) then t else o / 16 :: t) []
  { x with torn := bundles.foldl (fun t b =>
      let now := (l.filter (fun o => o / 16 == b)).map (· % 16)
      let all := now ++ (look [] t b).filter (fun o => !now.contains o)
      if 16 ≤ all.length then drop (· == b) t else put t b all) x.torn }

/-- The same of MEC `m`, which is out of STOPPED. -/
def Chip.tear (m : Nat) (l : List Nat) (c : Chip) : Chip :=
  if c.rdf (Reg.MEC_STATE m) 2 0 = 0 then c else c.setCore m ((c.core m).tear l)

/-- A write beat (R85, R228). -/
def Dev.memBeatWrite (d : Dev) (port a n : Nat) (l : BeatBytes) : Nat × Dev :=
  let (r, d1) := d.memCheck port a n true
  if r ≠ 0 then (r, d1)
  else match d.chip.region a with
    | .bitSet o => (0, d1.aliasWrite true o (word (bytesNat (l.map (·.2)))))
    | .bitClear o => (0, d1.aliasWrite false o (word (bytesNat (l.map (·.2)))))
    | .mec m o =>
      if 0x6_0000 ≤ o then (0, d1.coeffWrite m { ofs := o, bytes := l.map (fun e => (o + e.1, e.2)) })
      else if o < 0x1_0000 then (0, (d1.storeBytes a l).chipOp (Chip.tear m (l.map (fun e => o + e.1))))
      else (0, d1.storeBytes a l)
    | _ => (0, d1.storeBytes a l)

/-! Bursts of 256-bit masters: beats within 32-byte lines, sixteen to a transaction (R312). -/

/-- The lines that `n` bytes from `a` touch: (address, length). -/
def lineParts : Nat → Nat → Nat → List (Nat × Nat)
  | 0, _, _ => []
  | fuel + 1, a, n =>
    if n = 0 then []
    else
      let k := min n (32 - a % 32)
      (a, k) :: lineParts fuel (a + k) (n - k)

/-- A list cut into pieces of sixteen. -/
def sixteens {α : Type} : Nat → List α → List (List α)
  | 0, _ => []
  | fuel + 1, l => if l.isEmpty then [] else l.take 16 :: sixteens fuel (l.drop 16)

/-- The transactions that `n` bytes from `a` take. -/
def burstOf (a n : Nat) : List (List (Nat × Nat)) :=
  let p := lineParts (n / 32 + 2) a n
  sixteens (p.length / 16 + 1) p

/-- The outcome of a transaction with the address of its first beat of that outcome (R313). -/
abbrev Worst := Nat × Nat

/-- A further beat at `a` with outcome `r`. -/
def Worst.join (w : Worst) (r a : Nat) : Worst := if w.1 < r then (r, a) else w

/-- One transaction's read: its worst outcome, recorded, and its bytes. -/
def Dev.wideTxnRead (port : Nat) (x : Nat × List Byte × Dev) (parts : List (Nat × Nat)) : Nat × List Byte × Dev :=
  let (r0, l0, d0) := x
  let (w, l, d1) := parts.foldl (fun (y : Worst × List Byte × Dev) (p : Nat × Nat) =>
    let (w, l, d) := y
    let (q, b, d') := d.memBeatRead port p.1 p.2
    (w.join q p.1, l ++ b, d')) ((0, 0), [], d0)
  (max r0 w.1, l0 ++ l, d1.chipOp (fun c =>
    (c.grantBeats port false (parts.map (·.1))).busError port (c.region w.2).target false w.2 w.1))

/-- A read of `n` bytes by the master of `port`. -/
def Dev.wideRead (d : Dev) (port a n : Nat) : Nat × List Byte × Dev :=
  (burstOf a n).foldl (Dev.wideTxnRead port) (0, [], d)

/-- One transaction's write: its worst outcome, recorded, and the bytes left. -/
def Dev.wideTxnWrite (port : Nat) (x : Nat × List Byte × Dev) (parts : List (Nat × Nat)) : Nat × List Byte × Dev :=
  let (r0, l0, d0) := x
  let (w, l, d1) := parts.foldl (fun (y : Worst × List Byte × Dev) (p : Nat × Nat) =>
    let (w, l, d) := y
    let (q, d') := d.memBeatWrite port p.1 p.2 ((List.range p.2).zip (l.take p.2))
    (w.join q p.1, l.drop p.2, d')) ((0, 0), l0, d0)
  (max r0 w.1, l, d1.chipOp (fun c =>
    (c.grantBeats port true (parts.map (·.1))).busError port (c.region w.2).target true w.2 w.1))

/-- A write of bytes by the master of `port`: the outcome and the device. -/
def Dev.wideWrite (d : Dev) (port a : Nat) (l : List Byte) : Nat × Dev :=
  let (r, _, d1) := (burstOf a l.length).foldl (Dev.wideTxnWrite port) (0, l, d)
  (r, d1)

end Sys2Proof.Machine
end

