-- ==== Sys2Proof/Machine/Flags.lean ====
section
/-! DEFINITION. The arithmetic of the cores (R135 to R142, R179, R191, R192): rounding, clamps, and the SSTAT flag
that each clamp sets. -/

namespace Sys2Proof.Machine

/-- `x / 2^n` under MODE.RND (R137): truncated towards minus infinity, rounded half up, or half to even. -/
def roundMode (rnd : Nat) (x : Int) (n : Nat) : Int :=
  if n = 0 then x
  else
    let q := x / 2 ^ n
    let r := x % 2 ^ n
    let half : Int := 2 ^ (n - 1)
    if rnd = 1 then (if half ≤ r then q + 1 else q)
    else if rnd = 2 then (if half < r ∨ (r = half ∧ q % 2 ≠ 0) then q + 1 else q)
    else q

/-- An exact result narrowed to `w` bits: clamped with S = 1, else modulo 2^w; the flag says that it was clamped
(R138). -/
def narrow (w : Nat) (sat : Bool) (x : Int) : BitVec w × Bool :=
  if sat then (BitVec.ofInt w (satSigned w x), satSigned w x != x) else (BitVec.ofInt w x, false)

/-- The product term p of two words (R136, R179): exact, aligned by FRAC, shifted by PSH, negated by N. -/
def macTerm (frac : Bool) (psh : Nat) (neg : Bool) (u v : Word) : Int :=
  let p := u.toInt * v.toInt * (if frac then 2 ^ 9 else 1) * 2 ^ (if psh = 3 then 0 else psh)
  if neg then -p else p

/-- The term a(X) of ADA (R179). -/
def adaTerm (frac neg : Bool) (x : Word) : Int :=
  let a := if frac then x.toInt * 2 ^ 40 else x.toInt
  if neg then -a else a

/-- Extraction of an accumulator (R139, R192). -/
def extract (frac sat : Bool) (rnd part : Nat) (v : BitVec 80) : Word × Bool :=
  match part with
  | 0 => if frac then narrow 32 sat (roundMode rnd v.toInt 40) else narrow 32 sat v.toInt
  | 1 => (v.extractLsb' 48 32, false)
  | 2 => (v.extractLsb' 16 32, false)
  | _ => (v.extractLsb' 0 32, false)

/-- EXP of a data register (R141). -/
def expD (w : Word) : Nat :=
  let v := if w.msb then (~~~w).toNat else w.toNat
  if v = 0 then 31 else 30 - Nat.log2 v

/-- EXP of an accumulator (R141): a signed count. -/
def expA (w : BitVec 80) : Int :=
  let v := if w.msb then (~~~w).toNat else w.toNat
  if v = 0 then 71 else 70 - (Nat.log2 v : Int)

/-- NORM of a `w`-bit value by a count held in its range (R142). -/
def norm (w : Nat) (lo hi : Int) (sat : Bool) (rnd : Nat) (x : BitVec w) (count : Int) : BitVec w × Bool :=
  let n := clampInt lo hi count
  if 0 ≤ n then narrow w sat (x.toInt * 2 ^ n.toNat)
  else (BitVec.ofInt w (roundMode rnd x.toInt (-n).toNat), false)

/-- The shift count of R192. -/
def shiftCount (w : Word) : Nat := min (w.toNat % 64) 32

/-- What an ALU operation of the CT slot delivers, by opcode, from DA and DB or IMM, with the SSTAT bit that it
sets (R191, R192). -/
def alu (op : Nat) (sat : Bool) (rnd : Nat) (a b : Word) : Word × Option Nat :=
  let ar (x : Int) (bitNo : Nat) : Word × Option Nat :=
    let (v, f) := narrow 32 sat x
    (v, if f then some bitNo else none)
  match op with
  | 0x01 => ar (a.toInt + b.toInt) 2
  | 0x02 => ar (a.toInt - b.toInt) 2
  | 0x03 => ar (-a.toInt) 2
  | 0x04 => ar a.toInt.natAbs 2
  | 0x05 => ar (a.toInt * 2 ^ shiftCount b) 2
  | 0x06 => (BitVec.ofInt 32 (roundMode rnd a.toInt (shiftCount b)), none)
  | 0x07 => (a >>> shiftCount b, none)
  | 0x08 => (a &&& b, none)
  | 0x09 => (a ||| b, none)
  | 0x0A => (a ^^^ b, none)
  | 0x0B => (~~~a, none)
  | 0x0C => (if a.toInt ≤ b.toInt then a else b, none)
  | 0x0D => (if a.toInt ≤ b.toInt then b else a, none)
  | 0x0E => (if a.toInt < b.toInt then 0xFFFF_FFFF else 0, none)
  | 0x0F => (if a = b then 0xFFFF_FFFF else 0, none)
  | 0x13 => (word (expD a), none)
  | _ =>
    let (v, f) := norm 32 (-32) 31 sat rnd a b.toInt
    (v, if f then some 4 else none)

end Sys2Proof.Machine
end

