-- ==== Sys2Proof/Machine/Operands.lean ====
section
/-! DEFINITION. Bundles and their operands (R148 to R151, R174 to R190): the fields of each slot, the registers they
name, results in flight, and the addresses of the LS slot. -/

namespace Sys2Proof.Machine

/-- The four slots of a bundle (R174). -/
structure Bundle where
  ma : Word
  mb : Word
  ls : Word
  ct : Word
deriving DecidableEq, Repr

/-! Registers. -/

/-- The physical register of a logical data register (R132). -/
def physReg (rrb n : Nat) : Nat := if n < 32 then n else 32 + (n - rrb) % 32

/-- Whether a result for a register is still in flight: a read meets an undefined value (R145). -/
def CoreSt.early (x : CoreSt) (t : Dest) : Bool := x.flight.any (fun f => f.dest == t)

/-- The delivered content of a register, zero-extended. -/
def CoreSt.peek (x : CoreSt) : Dest → BitVec 80
  | .d i => (look 0 x.d i).setWidth 80
  | .a i => look 0 x.a i
  | .p i => (look 0 x.p i).setWidth 80
  | .m i => (look 0 x.m i).setWidth 80
  | .b i => (look 0 x.b i).setWidth 80
  | .l i => (look 0 x.l i).setWidth 80
  | .lc i => (look loopReset x.loops i).count.setWidth 80
  | .mode => x.mode.setWidth 80
  | .sstat => x.sstat.setWidth 80
  | .rrb => BitVec.ofNat 80 x.rrb
  | .flag i => BitVec.ofNat 80 (b2n (bit x.sstat i))

/-- A register takes a value, as far as its width reaches (R161, R189). -/
def CoreSt.poke (x : CoreSt) (t : Dest) (v : BitVec 80) : CoreSt :=
  match t with
  | .d i => { x with d := put x.d i (v.setWidth 32) }
  | .a i => { x with a := put x.a i v }
  | .p i => { x with p := put x.p i (v.setWidth 32) }
  | .m i => { x with m := put x.m i (v.setWidth 32) }
  | .b i => { x with b := put x.b i (v.setWidth 32) }
  | .l i => { x with l := put x.l i (v.setWidth 32) }
  | .lc i => { x with loops := put x.loops i { look loopReset x.loops i with count := v.setWidth 16 } }
  | .mode => { x with mode := v.setWidth 32 &&& 0x103 }
  | .sstat => { x with sstat := v.setWidth 32 &&& 0x1F }
  | .rrb => { x with rrb := v.toNat % 32 }
  | .flag i => { x with sstat := setBit x.sstat i true }

/-- A register as operand number `tag` of a bundle reads it: the undefined value of R145 while a result is in
flight, else its content. -/
def CoreSt.read (x : CoreSt) (ctr tag : Nat) (t : Dest) : BitVec 80 :=
  if x.early t then Config.freeBits 80 (ctr + tag) else x.peek t

/-- A logical data register as an operand. -/
def CoreSt.readD (x : CoreSt) (ctr tag n : Nat) : Word := (x.read ctr tag (.d (physReg x.rrb n))).setWidth 32

/-- A pointer-side register as an operand. -/
def CoreSt.readW (x : CoreSt) (ctr tag : Nat) (t : Dest) : Word := (x.read ctr tag t).setWidth 32

/-- The base of an accumulation: the last result issued into the accumulator (R144). -/
def CoreSt.base (x : CoreSt) (k : Nat) : BitVec 80 :=
  match (x.flight.filter (fun f => f.dest == .a k)).getLast? with
  | some f => f.val
  | none => look 0 x.a k

/-- FRAC and RND of MODE (R137). -/
def CoreSt.frac (x : CoreSt) : Bool := bit x.mode 8
def CoreSt.rnd (x : CoreSt) : Nat := fld x.mode 1 0

/-! The MAC slots. -/

def macOp (w : Word) : Nat := fld w 31 28

/-- An accumulate (R178, R179): the sum of the base and the terms, narrowed once, and its flag. -/
def CoreSt.accumulate (x : CoreSt) (w : Word) (k : Nat) (terms : Int) : BitVec 80 × Bool :=
  let base : Int := if bit w 26 then 0 else (x.base k).toInt
  narrow 80 (bit w 27) (base + terms)

/-- What a MAC slot writes (R178 to R180), in order: an accumulator, its value, whether it was clamped. `tag` is the
number of its first operand. -/
def CoreSt.macResults (x : CoreSt) (ctr tag : Nat) (w : Word) : List (Nat × BitVec 80 × Bool) :=
  let aa := fld w 23 21
  let ab := fld w 20 18
  let fx := fld w 17 12
  let fy := fld w 11 6
  let ex := fx / 2 * 2
  let ey := fy / 2 * 2
  let rd (i n : Nat) : Word := x.readD ctr (tag + i) n
  let p (neg : Nat) (u v : Word) : Int := macTerm x.frac (fld w 5 4) (bit w neg) u v
  let both (t0 t1 : Int) : List (Nat × BitVec 80 × Bool) :=
    if aa = ab then [(ab, x.accumulate w ab t1)] else [(aa, x.accumulate w aa t0), (ab, x.accumulate w ab t1)]
  match macOp w with
  | 0x1 => [(aa, x.accumulate w aa (p 24 (rd 0 ex) (rd 1 ey) + p 25 (rd 2 (ex + 1)) (rd 3 (ey + 1))))]
  | 0x2 => both (p 24 (rd 0 ex) (rd 1 ey)) (p 25 (rd 2 (ex + 1)) (rd 3 (ey + 1)))
  | 0x3 => both (p 24 (rd 0 ex) (rd 1 fy)) (p 25 (rd 2 (ex + 1)) (rd 1 fy))
  | 0x4 => both (p 24 (rd 0 fx) (rd 1 ey)) (p 25 (rd 0 fx) (rd 3 (ey + 1)))
  | 0x5 => [(aa, x.accumulate w aa (p 24 (rd 0 fx) (rd 1 fy)))]
  | 0x6 =>
    let v := (x.read ctr (tag + 4) (.a ab)).toInt
    [(aa, x.accumulate w aa (if bit w 24 then -v else v))]
  | 0x7 => [(aa, x.accumulate w aa (adaTerm x.frac (bit w 24) (rd 0 fx)))]
  | _ => []

/-- The results of a MAC slot in flight (R143): latency 4; `flag` is the slot's SSTAT bit. -/
def CoreSt.macFlights (x : CoreSt) (ctr tag flag : Nat) (w : Word) : List Flight :=
  (x.macResults ctr tag w).flatMap (fun r =>
    { due := x.issued + 4, dest := .a r.1, val := r.2.1 } ::
      (if r.2.2 then [{ due := x.issued + 4, dest := .flag flag, val := 1 }] else []))

/-! The LS slot. -/

/-- FMT of the LS slot (R181). -/
def lsFmt (w : Word) : Nat := fld w 31 30

/-- An access of the LS slot (R182): store or load, pair, data register, pointer, address mode, the modifier
register and the immediate in bytes. -/
structure LsAccess where
  st   : Bool
  pair : Bool
  dreg : Nat
  p    : Nat
  am   : Nat
  m    : Nat
  imm  : Int
deriving DecidableEq, Repr

/-- A half of a PAIR bundle from its 15 bits at `lo` (R182). -/
def halfAccess (w : Word) (lo : Nat) : Option LsAccess :=
  if bit w (lo + 14) then
    let p := fld w (lo + 5) (lo + 2)
    let pair := bit w (lo + 12)
    some { st := bit w (lo + 13), pair := pair, dreg := fld w (lo + 11) (lo + 6), p := p
           am := fld w (lo + 1) lo, m := p, imm := if pair then 8 else 4 }
  else none

/-- The access of a SINGLE bundle (R181, R182, R184). -/
def singleAccess (w : Word) : LsAccess :=
  { st := bit w 28, pair := bit w 27, dreg := fld w 26 21, p := fld w 20 17, am := fld w 16 15
    m := fld w 14 11, imm := fldS w 14 0 * 4 }

/-- The accesses of an LS word: X half or SINGLE, and Y half. -/
def lsAccesses (w : Word) : Option LsAccess × Option LsAccess :=
  if lsFmt w = 0 then (halfAccess w 15, halfAccess w 0)
  else if lsFmt w = 2 then (some (singleAccess w), none)
  else (none, none)

/-- Pointer `p` moved by `delta`, with the circular wrap of P0 to P7 (R150). -/
def CoreSt.wrapPtr (x : CoreSt) (ctr tag p : Nat) (ptr : Word) (delta : Int) : Word :=
  let q : Int := ptr.toNat + delta
  let b := (x.readW ctr (tag + 1) (.b p)).toNat
  let l := (x.readW ctr (tag + 2) (.l p)).toNat
  if 8 ≤ p ∨ l = 0 then BitVec.ofInt 32 q
  else if (b + l : Nat) ≤ q then BitVec.ofInt 32 (q - l)
  else if q < b then BitVec.ofInt 32 (q + l)
  else BitVec.ofInt 32 q

/-- The address of an access and what its pointer becomes (R148 to R150, R182). -/
def CoreSt.addressOf (x : CoreSt) (ctr tag : Nat) (a : LsAccess) : Word × Option Word :=
  let ptr := x.readW ctr tag (.p a.p)
  let m := (x.readW ctr (tag + 3) (.m a.m)).toInt
  let align (w : Word) : Word := w - word (w.toNat % (if a.pair then 8 else 4))
  match a.am with
  | 0 => (align ptr, none)
  | 1 => (align ptr, some (x.wrapPtr ctr tag a.p ptr m))
  | 2 => (align (x.wrapPtr ctr tag a.p ptr m), none)
  | _ => (align ptr, some (x.wrapPtr ctr tag a.p ptr a.imm))

/-- The logical registers an access moves, the lower first (R148). -/
def LsAccess.regs (a : LsAccess) : List Nat := if a.pair then [a.dreg / 2 * 2, a.dreg / 2 * 2 + 1] else [a.dreg]

/-- Whether core `k` serves address `a` locally: X data from an X half or SINGLE, Y data and coefficients from a Y
half or SINGLE (R151, R183); on a Steward its local memory from either (R162). -/
def Chip.servedLocally (c : Chip) (k : Nat) (xside yside : Bool) (a : Nat) : Option Nat :=
  match c.coreLocal k a with
  | none => none
  | some o =>
    if isSteward k || (xside && decide (0x2_0000 ≤ o ∧ o < 0x3_8000)) ||
        (yside && (decide (0x4_0000 ≤ o ∧ o < 0x5_8000) || decide (0x6_0000 ≤ o ∧ o < 0x7_0000))) then some o
    else none

/-- Whether a local offset lies in the coefficient region of core `k` (R151). -/
def coeffOffset (k o : Nat) : Bool := !isSteward k && decide (0x6_0000 ≤ o)

/-- A local word of core `k`: in the coefficient region, the word of the Live bank (R151). -/
def Dev.localWord (d : Dev) (k o : Nat) : Word :=
  if coeffOffset k o then d.mem.word (d.chip.bankWord k true (o % 0x8000 / 4)) else d.mem.word (localBase k + o)

/-- What an LS slot brings about at issue: results in flight, words stored locally, remote accesses. -/
structure LsOut where
  flights : List Flight
  stores  : List (Nat × Word)
  remote  : List RemoteAccess
deriving DecidableEq, Repr

/-- One access of core `k` at issue (R148 to R152, R182, R183). -/
def Dev.lsAccess (d : Dev) (k : Nat) (x : CoreSt) (tag : Nat) (xside yside : Bool) (acc : LsAccess) : LsOut :=
  let ctr := d.chip.freeCtr
  let (addr, post) := x.addressOf ctr tag acc
  let fp : List Flight := match post with
    | some q => [{ due := x.issued + 1, dest := .p acc.p, val := q.setWidth 80 }]
    | none => []
  let dests := acc.regs.map (fun n => Dest.d (physReg x.rrb n))
  let data := acc.regs.zipIdx.map (fun r => x.readD ctr (tag + 4 + r.2) r.1)
  match d.chip.servedLocally k xside yside addr.toNat with
  | some o =>
    if acc.st then
      let ws := if coeffOffset k o then [] else data.zipIdx.map (fun r => (localBase k + o + 4 * r.2, r.1))
      { flights := fp, stores := ws, remote := [] }
    else
      let fl := dests.zipIdx.map (fun r =>
        ({ due := x.issued + 3, dest := r.1, val := (d.localWord k (o + 4 * r.2)).setWidth 80 } : Flight))
      { flights := fl ++ fp, stores := [], remote := [] }
  | none =>
    { flights := fp, stores := []
      remote := [{ pc := x.pc, addr := addr, write := acc.st, data := if acc.st then data else []
                   dests := if acc.st then [] else dests.map some, due := x.issued + 3 }] }

/-- The X half without the loads and the pointer that the Y half writes as well (R185). -/
def LsOut.under (o y : LsOut) : LsOut :=
  let ys := y.flights.map (·.dest) ++ y.remote.flatMap (fun r => r.dests.filterMap id)
  { o with
    flights := o.flights.filter (fun f => !ys.contains f.dest)
    remote := o.remote.map (fun r => { r with dests := r.dests.map (fun t => t.filter (fun t => !ys.contains t)) }) }

/-- What the PAIR or SINGLE accesses of an LS word bring about, the X half first (R152, R185). -/
def Dev.lsOut (d : Dev) (k : Nat) (x : CoreSt) (w : Word) : LsOut :=
  match lsAccesses w with
  | (none, none) => { flights := [], stores := [], remote := [] }
  | (some a, none) => if lsFmt w = 2 then d.lsAccess k x 16 true true a else d.lsAccess k x 16 true false a
  | (none, some b) => d.lsAccess k x 24 false true b
  | (some a, some b) =>
    let y := d.lsAccess k x 24 false true b
    let o := (d.lsAccess k x 16 true false a).under y
    { flights := o.flights ++ y.flights, stores := o.stores ++ y.stores, remote := o.remote ++ y.remote }

/-- MODP (R187). -/
def CoreSt.modpFlights (x : CoreSt) (ctr : Nat) (w : Word) : List Flight :=
  if lsFmt w = 3 then
    let p := fld w 29 26
    let delta : Int := if bit w 25 then fldS w 20 0 else (x.readW ctr 19 (.m (fld w 24 21))).toInt
    [{ due := x.issued + 1, dest := .p p
       val := (x.wrapPtr ctr 16 p (x.readW ctr 16 (.p p)) delta).setWidth 80 }]
  else []

/-- The queue, the direction and the registers of a QUEUE operation (R181, R186). -/
def lsQueue (w : Word) : Nat := fld w 21 12
def lsPushes (w : Word) : Bool := bit w 29
def lsQueueRegs (w : Word) : List Nat :=
  let n := fld w 27 22
  if bit w 28 then [n / 2 * 2, n / 2 * 2 + 1] else [n]

/-! The CT slot. -/

def ctOp (w : Word) : Nat := fld w 31 26

/-- The register that a 7-bit code names (R188). -/
def codeDest (rrb code : Nat) : Option Dest :=
  if code < 0x40 then some (.d (physReg rrb code))
  else if code < 0x50 then some (.p (code - 0x40))
  else if code < 0x60 then some (.m (code - 0x50))
  else if code < 0x68 then some (.b (code - 0x60))
  else if code < 0x70 then some (.l (code - 0x68))
  else if code < 0x72 then some (.lc (code - 0x70))
  else if code = 0x72 then some .mode
  else if code = 0x73 then some .sstat
  else if code = 0x74 then some .rrb
  else none

/-- What a MOV from a code reads: EVPEND under 0x75, zero under a reserved code (R188). -/
def CoreSt.readCode (x : CoreSt) (ctr : Nat) (evpend : Word) (code : Nat) : Word :=
  match codeDest x.rrb code with
  | some t => x.readW ctr 32 t
  | none => if code = 0x75 then evpend else 0

/-- DB or the immediate of formats A and N (R190). -/
def CoreSt.operandB (x : CoreSt) (ctr : Nat) (w : Word) : Word :=
  if bit w 12 then BitVec.ofInt 32 (fldS w 11 0) else x.readD ctr 33 (fld w 5 0)

/-- The value LDI writes (R190); none for HF = 0b11. -/
def ldiValue (old w : Word) : Option Word :=
  let imm := fld w 15 0
  match fld w 17 16 with
  | 0 => some (BitVec.ofInt 32 (fldS w 15 0))
  | 1 => some (word imm)
  | 2 => some (setFld old 31 16 imm)
  | _ => none

/-- A result of the CT slot and its flag in flight. -/
def ctFlights (due : Nat) (t : Dest) (v : BitVec 80) (flag : Option Nat) : List Flight :=
  { due := due, dest := t, val := v } :: (match flag with
    | some i => [{ due := due, dest := .flag i, val := 1 }]
    | none => [])

/-- The results of the CT slot but for its control operations, all of latency 1 (R143, R191). -/
def CoreSt.ctResults (x : CoreSt) (ctr : Nat) (evpend w : Word) : List Flight :=
  let due := x.issued + 1
  let op := ctOp w
  let s := bit w 25
  let dd := Dest.d (physReg x.rrb (fld w 24 19))
  if (0x01 ≤ op ∧ op ≤ 0x0F) ∨ op = 0x13 ∨ op = 0x15 then
    let (v, f) := alu op s x.rnd (x.readD ctr 32 (fld w 18 13)) (x.operandB ctr w)
    ctFlights due dd (v.setWidth 80) f
  else if op = 0x10 then
    match codeDest x.rrb (fld w 24 18) with
    | some t => ctFlights due t ((x.readCode ctr evpend (fld w 17 11)).setWidth 80) none
    | none => []
  else if op = 0x11 then
    match codeDest x.rrb (fld w 24 18) with
    | some t => match ldiValue (x.readW ctr 32 t) w with
      | some v => ctFlights due t (v.setWidth 80) none
      | none => []
    | none => []
  else if op = 0x12 then
    let (v, f) := extract x.frac s x.rnd (fld w 15 14) (x.read ctr 34 (.a (fld w 18 16)))
    ctFlights due dd (v.setWidth 80) (if f then some 3 else none)
  else if op = 0x14 then
    ctFlights due dd ((BitVec.ofInt 32 (expA (x.read ctr 34 (.a (fld w 18 16))))).setWidth 80) none
  else if op = 0x16 then
    let (v, f) := norm 80 (-80) 79 s x.rnd (x.read ctr 34 (.a (fld w 21 19))) (x.operandB ctr w).toInt
    ctFlights due (.a (fld w 24 22)) v (if f then some 4 else none)
  else []

/-- Whether COND holds of DC (R193). -/
def condHolds (cond : Nat) (v : Word) : Bool :=
  match cond with
  | 0 => true
  | 1 => v == 0
  | 2 => v != 0
  | 3 => decide (v.toInt < 0)
  | 4 => decide (0 ≤ v.toInt)
  | 5 => decide (0 < v.toInt)
  | 6 => decide (v.toInt ≤ 0)
  | _ => false

/-! What a bundle holds. -/

/-- A reserved opcode or format of the CT slot (R175, R188, R190, R191, R193, R194). -/
def ctReserved (w : Word) : Bool :=
  let op := ctOp w
  let codeBad (n : Nat) : Bool := decide (0x76 ≤ n)
  if op = 0x10 then codeBad (fld w 24 18) || codeBad (fld w 17 11)
  else if op = 0x11 then codeBad (fld w 24 18) || fld w 17 16 == 3
  else if op = 0x18 ∨ op = 0x19 then fld w 24 22 == 7
  else if op = 0x1C ∨ op = 0x1D then fld w 21 12 == 0
  else if op = 0x30 ∨ op = 0x31 then decide (6 ≤ fld w 2 0)
  else op == 0x17 || op == 0x1E || op == 0x1F || (0x22 ≤ op && op ≤ 0x2F) || 0x35 ≤ op

/-- Whether a slot of the bundle holds an operation (R174, R177, R181, R191). -/
def Bundle.empty (b : Bundle) : Bool :=
  macOp b.ma == 0 && macOp b.mb == 0 && ctOp b.ct == 0 && lsFmt b.ls == 0 && !bit b.ls 29 && !bit b.ls 14

/-- Whether a slot of the bundle makes a Steward raise ILLEGAL (R162, R175). -/
def Bundle.illegal (b : Bundle) : Bool :=
  8 ≤ macOp b.ma || macOp b.mb != 0 || ctReserved b.ct || ctOp b.ct == 0x20 || ctOp b.ct == 0x21

end Sys2Proof.Machine
end

