-- ==== Sys2Proof/Machine/Issue.lean ====
section
/-! DEFINITION. How a core issues a bundle (R130, R143 to R147, R152 to R156, R162 to R166, R186, R193 to R199):
delivery of results, holds, branches and loops, and the entry into a Steward's exception. -/

namespace Sys2Proof.Machine

/-! Core states. -/

/-- The register that holds STATE of core `k`. -/
def stateKey (k : Nat) : Nat := if isSteward k then Reg.ST_STATE (k - 32) else Reg.MEC_STATE k

/-- STATE of core `k` (R159): 0 STOPPED, 1 RUNNING, 2 ENDED, 3 HELD, 4 HALTED. -/
def Chip.coreState (c : Chip) (k : Nat) : Nat := c.rdf (stateKey k) 2 0

/-- STATE of core `k` becomes `v`. -/
def Chip.setCoreState (c : Chip) (k v : Nat) : Chip := c.wrf (stateKey k) 2 0 v

/-- How many bundle indices core `k` has: 4,096, or a Steward's 2^28 bundle addresses. -/
def bundleCount (k : Nat) : Nat := if isSteward k then 2 ^ 28 else 4096

/-- Bits of EVPEND of core `k`; a Steward has none (R158). -/
def Chip.evpend (c : Chip) (k : Nat) : Word := if isSteward k then 0 else c.rd (Reg.MEC_EVPEND k) &&& 0xFFFF

/-! Delivery. -/

/-- The results due by bundle `n` reach their registers: of one moment the later-issued bundle and the later slot
win (R143, R146), and a clamp wins over a clear of its flag (R140). -/
def CoreSt.deliverAt (x : CoreSt) (n : Nat) : CoreSt :=
  let isFlag (f : Flight) : Bool := match f.dest with | .flag _ => true | _ => false
  let now := x.flight.filter (fun f => f.due ≤ n)
  let y := (now.filter (fun f => !isFlag f) ++ now.filter isFlag).foldl (fun x f => x.poke f.dest f.val) x
  { y with
    flight := x.flight.filter (fun f => !(decide (f.due ≤ n)))
    dirty := now.foldl (fun l f => if l.contains f.dest then l else f.dest :: l) x.dirty }

/-- The results that the next bundle can read are delivered. -/
def CoreSt.deliver (x : CoreSt) : CoreSt := x.deliverAt x.issued

/-- Every result in flight is delivered, in the order of their bundles. -/
def CoreSt.deliverAll (x : CoreSt) : CoreSt :=
  let n := x.issued
  ((((x.deliverAt n).deliverAt (n + 1)).deliverAt (n + 2)).deliverAt (n + 3)).deliverAt (n + 4)

/-! Holds. -/

/-- The ecyc of the present tick (R39). -/
def Chip.ecyc (c : Chip) : Nat := c.rdf Reg.TICK_PHASE 21 2

/-- Core `k` is held (R147, R159). -/
def Chip.coreHold (c : Chip) (k : Nat) (h : CoreHold) : Chip :=
  (c.setCore k { c.core k with hold := h, holdAt := c.ecyc }).setCoreState k 3

/-- Core `k` is held by the remote accesses of its bundle (R152); a wait of the same bundle follows them (R158, R197, R198). -/
def Chip.remoteHold (c : Chip) (k : Nat) (l : List RemoteAccess) : Chip :=
  (c.setCore k { c.core k with next := (c.core k).hold }).coreHold k (.remote l none)

/-- The hold of core `k` ends: it runs on, or is back in HALTED after a STEP (R159, R160). -/
def Chip.coreUnhold (c : Chip) (k : Nat) : Chip :=
  let x := c.core k
  let y := { x with hold := .none, held := x.held + (c.ecyc - x.holdAt) }
  if x.step then (c.setCore k { y.deliverAll with step := false }).setCoreState k 4
  else (c.setCore k y).setCoreState k 1

/-- The last remote access of the bundle has completed: its wait begins, or the core goes on. -/
def Chip.remoteEnd (c : Chip) (k : Nat) : Chip :=
  let x := c.core k
  if x.next = .none then c.coreUnhold k else c.setCore k { x with hold := x.next, next := .none }

/-- The access that stands in the bus matrix: of a bundle's accesses the first (R152). -/
def CoreHold.outstanding : CoreHold → List RemoteAccess
  | .remote (a :: _) _ => [a]
  | _ => []

/-- What the core gives up when its work is abandoned: an access in the bus matrix goes on without it (R170, R220). -/
def CoreSt.abandon (x : CoreSt) : CoreSt := { x with orphans := x.orphans ++ x.hold.outstanding }

/-! A Steward's exceptions. -/

/-- Exception entry (R166, R172): results are delivered, EPC takes bundle `pc`, ESTAT takes STATUS, SUP is 1 and IE
0, CAUSE takes the cause and fetch goes on at SVBASE + 0x40 × cause. -/
def Chip.exceptionEntry (c : Chip) (k cause pc : Nat) : Chip :=
  let x := (c.core k).deliverAll
  let y := { x with
    epc := word (16 * pc)
    estat := x.status
    status := 1
    cause := word cause
    pc := (x.svbase.toNat + 0x40 * cause) % 2 ^ 32 / 16
    branch := none
    hold := .none
    next := .none }
  let c1 := (c.setCore k y).irq (pgCore k) 6
  if x.step then (c1.setCore k { y with step := false }).setCoreState k 4 else c1.setCoreState k 1

/-- BADADDR takes an address. -/
def Chip.setBadaddr (c : Chip) (k : Nat) (a : Word) : Chip := c.setCore k { c.core k with badaddr := a }

/-! Fetch. -/

/-- The word at a physical address, as a fetch reads it. -/
def Dev.physWord (d : Dev) (a : Nat) : Word :=
  d.physByte (a + 3) ++ d.physByte (a + 2) ++ d.physByte (a + 1) ++ d.physByte a

/-- The bundle that four words make. -/
def bundleOf (f : Nat → Word) : Bundle := { ma := f 0, mb := f 1, ls := f 2, ct := f 3 }

/-- ICEN of a Steward (R163). -/
def Chip.icen (c : Chip) (k : Nat) : Bool := c.rdb (Reg.ST_CFG (k - 32)) 1

/-- Where the bundle at a core's PC comes from (R129, R163, R174): its own memory, a bundle that narrow writes have torn
(R89), a Steward's cache, the bus matrix, or the hole of LZ = 1. -/
inductive FetchFrom where
  | own (a : Nat)
  | torn
  | cached (ws : List Word)
  | bus (p : Nat)
  | hole
deriving DecidableEq, Repr

/-- Where the bundle at the PC of core `k` comes from. A Steward's cache may still hold what an earlier fetch brought, or may
have given it up: which is a free value. -/
def Chip.fetchFrom (c : Chip) (k : Nat) : FetchFrom :=
  let x := c.core k
  let a := 16 * x.pc
  if !isSteward k then (if x.torn.any (fun e => e.1 == x.pc) then .torn else .own (localBase k + a))
  else match c.coreLocal k a with
    | some o => .own (localBase k + o)
    | none =>
      match c.remoteAddr k a with
      | none => .hole
      | some p =>
        match x.icache.find? (fun e => e.1 == x.pc) with
        | some e => if c.icen k && Config.freeBits 1 (c.freeCtr + 63) == 1 then .cached e.2 else .bus p
        | none => .bus p

/-- The bundle at the PC of core `k`; none where the fetch fails. A torn bundle is undefined: a free value. -/
def Dev.fetch (d : Dev) (k : Nat) : Option Bundle :=
  match d.chip.fetchFrom k with
  | .own a => some (bundleOf (fun i => d.mem.word (a + 4 * i)))
  | .torn => some (bundleOf (fun i => Config.freeBits 32 (d.chip.freeCtr + 48 + i)))
  | .cached ws => some (bundleOf (fun i => ws[i]?.getD 0))
  | .bus p => if (d.memCheck (corePort k) p 16 false).1 = 0 then some (bundleOf (fun i => d.physWord (p + 4 * i))) else none
  | .hole => none

/-- A fetch through the bus matrix has to wait (log entry 125). -/
def Chip.fetchWaits (c : Chip) (k : Nat) : Bool :=
  match c.fetchFrom k with
  | .bus p => c.mustWait (corePort k) 0 false [p]
  | _ => false

/-- What a fetch leaves in the bus matrix: its grant, or the record of its error (R163, R319). -/
def Dev.fetchBus (k : Nat) (d : Dev) : Dev :=
  let port := corePort k
  match d.chip.fetchFrom k with
  | .bus p =>
    let (r, d1) := d.memCheck port p 16 false
    d1.chipOp (fun c => (c.grantBeats port false [p]).busError port (c.beatTarget port false p) false p r)
  | .hole => d.chipOp (fun c => c.busError port 15 false (16 * (c.core k).pc) 2)
  | _ => d

/-- How many bundles of 16 bytes the instruction cache holds (R163): 8 KiB. -/
def cacheBundles : Nat := 512

/-- With ICEN = 1 the cache takes what was fetched from outside the local memory (R163); which bundle a full cache gives up
is a free value. -/
def Chip.cacheFill (c : Chip) (k : Nat) (b : Bundle) : Chip :=
  let x := c.core k
  if isSteward k && c.icen k && (c.coreLocal k (16 * x.pc)).isNone then
    let l := drop (· == x.pc) x.icache
    let room := if l.length < cacheBundles then l else l.eraseIdx ((Config.freeBits 32 (c.freeCtr + 55)).toNat % cacheBundles)
    c.setCore k { x with icache := put room x.pc [b.ma, b.mb, b.ls, b.ct] }
  else c

/-- A write of STn_CFG.ICINV, or of SYS_CTRL.REMAP (R163). -/
def Chip.icacheInvalidate (c : Chip) (k : Nat) : Chip := c.setCore k { c.core k with icache := [] }

/-! Privilege. -/

/-- SUP and IE (R164). -/
def CoreSt.sup (x : CoreSt) : Bool := bit x.status 0
def CoreSt.ie (x : CoreSt) : Bool := bit x.status 1

/-- Whether user mode may not access a core address (R165): the register pages, the MECs' core control registers, a
write through the zero window. -/
def Chip.userForbidden (c : Chip) (k : Nat) (write : Bool) (a : Nat) : Bool :=
  (0x6000_0000 ≤ a && a < 0x6010_0000) ||
    (0x4000_0000 ≤ a && a < 0x4200_0000 && 0xF_0000 ≤ a % 0x10_0000 && a % 0x10_0000 < 0xF_1000) ||
    (write && a < 0x10_0000 && !c.lz k)

/-- The address at which a Steward's bundle breaks R165 in user mode. -/
def Dev.forbiddenAddr (d : Dev) (k : Nat) (x : CoreSt) (w : Word) : Option Word :=
  let at' (tag : Nat) (a : Option LsAccess) : List (Bool × Word) :=
    match a with
    | some acc => [(acc.st, (x.addressOf d.chip.freeCtr tag acc).1)]
    | none => []
  let l := at' 16 (lsAccesses w).1 ++ at' 24 (lsAccesses w).2
  (l.find? (fun e => d.chip.userForbidden k e.1 e.2.toNat)).map (·.2)

/-- The exception that a Steward's bundle raises before it has any effect (R162, R165, R175, R198, R199): its cause
and, where the rule gives one, BADADDR. -/
def Dev.preException (d : Dev) (k : Nat) (x : CoreSt) (b : Bundle) : Option (Nat × Option Word) :=
  let op := ctOp b.ct
  if b.illegal then some (0x01, none)
  else if !x.sup && (op == 0x30 || op == 0x31 || op == 0x33 || op == 0x34) then some (0x02, none)
  else match (if x.sup then none else d.forbiddenAddr k x b.ls) with
    | some a => some (0x02, some a)
    | none => if op = 0x32 then some (0x04, some (word (fld b.ct 15 0))) else none

/-! Loops and branches. -/

/-- A loop level. -/
def CoreSt.loop (x : CoreSt) (i : Nat) : LoopLevel := look loopReset x.loops i

/-- A loop level becomes `v`. -/
def CoreSt.setLoop (x : CoreSt) (i : Nat) (v : LoopLevel) : CoreSt := { x with loops := put x.loops i v }

/-- Whether bundle `n` lies in the body of a level. -/
def LoopLevel.holds (v : LoopLevel) (n : Nat) : Bool := v.start ≤ n && n ≤ v.stop

/-- The end bundle of level `i` issues (R153, R154): rotation, then the start again, or the end of the level. -/
def CoreSt.loopEnd (x : CoreSt) (i : Nat) : Option Nat × CoreSt :=
  let v := x.loop i
  let y := { x with rrb := (x.rrb + v.step) % 32 }
  if 1 < v.count.toNat then (some v.start, y.setLoop i { v with count := v.count - 1 })
  else (none, y.setLoop i { v with active := false })

/-- The loops at the issue of the bundle at PC: level 1 first, then level 0 unless level 1 goes round (R195). The
first result is where issue returns to. -/
def CoreSt.loopEnds (x : CoreSt) : Option Nat × CoreSt :=
  let (r1, y) := if (x.loop 1).active && (x.loop 1).stop == x.pc then x.loopEnd 1 else (none, x)
  match r1 with
  | some n => (some n, y)
  | none =>
    if (y.loop 0).active && (y.loop 0).stop == x.pc then
      let (r0, z) := y.loopEnd 0
      match r0 with
      | some n =>
        if (z.loop 1).active && !(z.loop 1).holds n then (some n, z.setLoop 1 { z.loop 1 with active := false })
        else (some n, z)
      | none => (none, z)
    else (none, y)

/-- Whether the bundle at PC is one of the last two of an active level's body (R146, R196). -/
def CoreSt.nearEnd (x : CoreSt) : Bool :=
  [0, 1].any (fun i =>
    let v := x.loop i
    v.active && v.holds x.pc && (x.pc == v.stop || x.pc + 1 == v.stop))

/-- A level whose body a taken branch leaves ends, with every level nested in it (R155). -/
def CoreSt.leaveLoops (x : CoreSt) (target : Nat) : CoreSt :=
  let out (v : LoopLevel) : Bool := v.active && !v.holds target
  let inside (a b : LoopLevel) : Bool := b.start ≤ a.start && a.stop ≤ b.stop
  let v0 := x.loop 0
  let v1 := x.loop 1
  let off0 := out v0 || (out v1 && inside v0 v1)
  let off1 := out v1 || (out v0 && inside v1 v0)
  let y := if off0 && v0.active then x.setLoop 0 { v0 with active := false } else x
  if off1 && v1.active then y.setLoop 1 { v1 with active := false } else y

/-- The target of a taken branch of the CT slot, as a bundle (R193). -/
def CoreSt.branchTarget (x : CoreSt) (k ctr : Nat) (w : Word) : Option Nat :=
  let n := bundleCount k
  let rel : Nat := ((((x.pc : Int) + fldS w 15 0) % n).toNat)
  match ctOp w with
  | 0x18 => if condHolds (fld w 24 22) (x.readD ctr 33 (fld w 21 16)) then some rel else none
  | 0x19 => if condHolds (fld w 24 22) (x.readD ctr 33 (fld w 21 16)) then some rel else none
  | 0x1A => some ((x.readW ctr 35 (.p (fld w 19 16))).toNat / 16 % n)
  | 0x1B => some ((x.readW ctr 35 (.p 15)).toNat / 16 % n)
  | _ => none

/-- LOOP or LOOPR (R153, R194): the bundle issue goes on to, the level it sets, and whether both levels were
active. A count of 0 sets the level too, which is over at once. -/
def CoreSt.loopStart (x : CoreSt) (k ctr : Nat) (w : Word) : Option Nat × CoreSt × Bool :=
  let n := bundleCount k
  let len := fld w 21 12
  let count : BitVec 16 :=
    if bit w 25 then (x.readD ctr 33 (fld w 5 0)).setWidth 16 else BitVec.ofNat 16 (fld w 11 0)
  let step := if ctOp w = 0x1D then fld w 24 22 + 1 else 0
  let lvl : LoopLevel :=
    { active := true, start := (x.pc + 1) % n, stop := (x.pc + len) % n, step := step, count := count }
  if (x.loop 0).active && (x.loop 1).active then (none, x, true)
  else if count = 0 then (some ((x.pc + len + 1) % n), x.setLoop (b2n (x.loop 0).active) { lvl with active := false }, false)
  else if (x.loop 0).active then (none, x.setLoop 1 lvl, false)
  else (none, x.setLoop 0 lvl, false)

/-- Whether the CT slot starts a loop: END = 0 is reserved (R194). -/
def startsLoop (w : Word) : Bool := (ctOp w == 0x1C || ctOp w == 0x1D) && fld w 21 12 != 0

/-- What an undefined sequence of bundles leaves of the sequencer (R146, R196): PC, RRB and the loop levels are free
values. -/
def CoreSt.strayed (x : CoreSt) (k ctr : Nat) : CoreSt :=
  let level (i : Nat) : LoopLevel :=
    let v := Config.freeBits 80 (ctr + 60 + i)
    { active := v.getLsbD 0, start := (v.extractLsb' 1 28).toNat % bundleCount k
      stop := (v.extractLsb' 29 28).toNat % bundleCount k, step := (v.extractLsb' 57 4).toNat % 9, count := v.extractLsb' 61 16 }
  { (x.setLoop 0 (level 0)).setLoop 1 (level 1) with
    lost := true, branch := none, pc := (Config.freeBits 32 (ctr + 62)).toNat % bundleCount k
    rrb := (Config.freeBits 5 (ctr + 59)).toNat }

/-- PC, loops and branches after the issue of the bundle at PC with CT word `w` (R146, R153 to R155, R193 to R196).
`x` is the core as its operands see it; the result has PC moved on, and says whether a loop was nested too deep. -/
def CoreSt.nextPc (x : CoreSt) (k ctr : Nat) (w : Word) : CoreSt × Bool :=
  let n := bundleCount k
  let taken := x.branchTarget k ctr w
  let bad := (taken.isSome || startsLoop w) && (x.branch.isSome || x.nearEnd)
  if x.lost || bad then (x.strayed k ctr, false)
  else
    let (back, y) := x.loopEnds
    let plain := back.getD ((x.pc + 1) % n)
    match taken, x.branch with
    | some t, _ => ({ y.leaveLoops t with branch := some (2, t), pc := plain }, false)
    | none, some (m + 2, t) => ({ y with branch := some (m + 1, t), pc := plain }, false)
    | none, some (_, t) => ({ y with branch := none, pc := t }, false)
    | none, none =>
      if startsLoop w then
        let (skip, z, nest) := y.loopStart k ctr w
        ({ z with pc := skip.getD plain }, nest)
      else ({ y with pc := plain }, false)

/-- The loop counters that differ from those of `y` count among the registers written since the last release (R221). -/
def CoreSt.touched (x y : CoreSt) : List Dest :=
  ([0, 1].filter (fun i => x.loop i != y.loop i && !x.dirty.contains (.lc i))).map Dest.lc ++ x.dirty

/-! Issue. -/

/-- The kind and ID of core `k` as a queue endpoint (R103). -/
def coreKind (k : Nat) : Nat := if isSteward k then 2 else 1
def coreEndpoint (k : Nat) : Nat := if isSteward k then k - 32 else k

/-- Whether the queue of a QUEUE bundle lacks the credit for its words (R186): only an enabled queue whose endpoint
is the core can hold it. -/
def Chip.creditShort (c : Chip) (k : Nat) (w : Word) : Bool :=
  let x := c.queue (lsQueue w)
  let n : Int := (lsQueueRegs w).length
  if lsPushes w then
    x.pkind == coreKind k && x.pid == coreEndpoint k && c.qEnabled (lsQueue w) &&
      decide (x.pcred + (x.skip.toNat : Int) < n)
  else
    x.ckind == coreKind k && x.cid == coreEndpoint k && c.qEnabled (lsQueue w) && decide (x.ccred < n)

/-- Core `k` waits for credit of a queue (R109). -/
def Chip.creditHold (c : Chip) (k : Nat) (w : Word) : Chip :=
  let q := lsQueue w
  let x := c.queue q
  let c1 := if lsPushes w then c.setQueue q { x with pwait := true } else c.setQueue q { x with cwait := true }
  c1.coreHold k (.credit q (lsPushes w))

/-- `n` words popped by core `k`; a refused pop delivers zero (R186). -/
def Dev.corePop (k q : Nat) : Nat → Dev → List Word × Dev
  | 0, d => ([], d)
  | n + 1, d =>
    let (_, w, d1) := d.pop q (coreKind k) (coreEndpoint k)
    let (l, d2) := Dev.corePop k q n d1
    (w :: l, d2)

/-- The QUEUE operation of a bundle with its credit (R186): the results in flight. -/
def Dev.queueOp (d : Dev) (k : Nat) (x : CoreSt) (w : Word) : List Flight × Dev :=
  let q := lsQueue w
  let rs := lsQueueRegs w
  if lsPushes w then
    ([], d.pushAll q (coreKind k) (coreEndpoint k) (rs.zipIdx.map (fun r => x.readD d.chip.freeCtr (20 + r.2) r.1)))
  else
    let (ws, d1) := Dev.corePop k q rs.length d
    ((rs.zip ws).map (fun r =>
      ({ due := x.issued + 3, dest := .d (physReg x.rrb r.1), val := r.2.setWidth 80 } : Flight)), d1)

/-- ERR_INFO of a MEC page (R170): the PC, and for a bus error the low 20 bits of the address. For BUS_ERR and LOOP_NEST the
model's PC is that of the bundle that made the access or holds the loop (DESIGN CHOICE, log entry 127). -/
def mecInfo (pc a : Nat) : Word := word (pc % 4096 + a % 2 ^ 20 * 4096)

/-- The link that a taken CALL writes to P15 (R193). -/
def CoreSt.linkFlights (x : CoreSt) (k ctr : Nat) (w : Word) : List Flight :=
  if ctOp w = 0x19 ∧ (x.branchTarget k ctr w).isSome then
    [{ due := x.issued + 1, dest := .p 15, val := BitVec.ofNat 80 (16 * ((x.pc + 3) % bundleCount k)) }]
  else []

/-- The supervisor register `i` (R164). -/
def CoreSt.supReg (x : CoreSt) (i : Nat) : Word :=
  match i with
  | 0 => x.status
  | 1 => x.estat
  | 2 => x.epc
  | 3 => x.cause
  | 4 => x.badaddr
  | 5 => x.svbase
  | _ => 0

/-- The supervisor register `i` takes `v` (R164). -/
def CoreSt.setSupReg (x : CoreSt) (i : Nat) (v : Word) : CoreSt :=
  match i with
  | 0 => { x with status := v &&& 3 }
  | 1 => { x with estat := v &&& 3 }
  | 2 => { x with epc := v }
  | 3 => { x with cause := v &&& 0xFF }
  | 4 => { x with badaddr := v }
  | 5 => { x with svbase := v &&& 0xFFFF_FE00 }
  | _ => x

/-- Whether the Hub asserts the interrupt input of Steward `k - 32` (R63). -/
def Chip.stewardIrq (c : Chip) (k : Nat) : Bool := isSteward k && c.hubIrq (k - 32)

/-- The control operations of the CT slot after the bundle has issued, `y` being the core as its operands saw it:
ENDT, WAITEV on a MEC (R197), MTS, MFS, RETE and WAITI on a Steward (R198). -/
def Chip.control (c : Chip) (k ctr : Nat) (y : CoreSt) (w : Word) : Chip :=
  let x := c.core k
  if isSteward k then
    match ctOp w with
    | 0x30 => c.setCore k (x.setSupReg (fld w 2 0) (y.readD ctr 33 (fld w 24 19)))
    | 0x31 => c.setCore k { x with flight := x.flight ++
        [{ due := y.issued + 1, dest := .d (physReg y.rrb (fld w 24 19)), val := (y.supReg (fld w 2 0)).setWidth 80 }] }
    | 0x33 =>
      let z := x.deliverAll
      c.setCore k { z with status := z.estat, pc := z.epc.toNat / 16, branch := none }
    | 0x34 => if c.stewardIrq k then c else c.coreHold k .interrupt
    | _ => c
  else
    match ctOp w with
    | 0x20 => c.setCore k { x with drain := .endt }
    | 0x21 =>
      let e := fld w 3 0
      if c.rdb (Reg.MEC_EVPEND k) e then c.wrb (Reg.MEC_EVPEND k) e false else c.coreHold k (.event e)
    | _ => c

/-- A stepped core that no hold keeps delivers its results and is back in HALTED (R160). -/
def Chip.stepEnd (c : Chip) (k : Nat) : Chip :=
  let x := c.core k
  if x.step ∧ c.coreState k ≠ 3 then (c.setCore k { x.deliverAll with step := false }).setCoreState k 4 else c

/-- The words stored locally, remembered as written since the last release (R221). -/
def Dev.localStores (d : Dev) (k : Nat) (ws : List (Nat × Word)) : Dev :=
  let m := ws.foldl (fun m e => m.setWord e.1 e.2) d.mem
  { mem := m
    chip := d.chip.setCore k { d.chip.core k with
      dirtyM := ws.foldl (fun l e => if l.contains e.1 then l else e.1 :: l) (d.chip.core k).dirtyM } }

/-- A loop issued with both levels active (R153): a MEC records it. The page of a Steward has neither the flag nor the code
(R172), so a Steward records nothing (DESIGN CHOICE, log entry 127). -/
def Chip.loopNested (c : Chip) (k pc : Nat) : Chip :=
  if isSteward k then c else (c.irq (pgCore k) 3).err (pgCore k) 0x03 (mecInfo pc 0)

/-- The bundle at PC issues with all its slots, its credit given: every operand is read before any result is written
(R130), results go in flight, local stores and queue words take effect, PC moves on, and the bundle's control
operation and its remote accesses follow. -/
def Dev.issueBundle (d : Dev) (k : Nat) (b : Bundle) : Dev :=
  let c := d.chip
  let ctr := c.freeCtr
  let x := c.core k
  let ls := d.lsOut k x b.ls
  let fm := x.macFlights ctr 0 0 b.ma ++ (if isSteward k then [] else x.macFlights ctr 8 1 b.mb)
  let fc := x.ctResults ctr (c.evpend k) b.ct ++ x.linkFlights k ctr b.ct
  let (fq, d1) := if lsFmt b.ls = 1 then d.queueOp k x b.ls else ([], d)
  let fl := ls.flights ++ fq ++ x.modpFlights ctr b.ls
  let (y, nest) := x.nextPc k ctr b.ct
  let y1 := { y with
    flight := x.flight ++ fm ++ fl ++ fc, issued := x.issued + 1, dirty := y.touched x, past := false }
  let d2 := (d1.chipOp (fun c => { c.setCore k y1 with freeCtr := c.freeCtr + 64 })).localStores k ls.stores
  d2.chipOp (fun c =>
    let c1 := if nest then c.loopNested k x.pc else c
    let c2 := c1.control k ctr x b.ct
    (if ls.remote.isEmpty then c2 else c2.remoteHold k ls.remote).stepEnd k)

/-- The bundle at PC of core `k`, fetched, as it comes to issue: a Steward's exception, a hold for credit, or the issue. -/
def Dev.issueFetched (k : Nat) (b : Bundle) (d0 : Dev) : Dev :=
  let x := d0.chip.core k
  match (if isSteward k then d0.preException k x b else none) with
  | some (cause, bad) =>
    d0.chipOp (fun c => ((match bad with
      | some a => c.setBadaddr k a
      | none => c).exceptionEntry k cause x.pc))
  | none =>
    if lsFmt b.ls = 1 && d0.chip.creditShort k b.ls then d0.chipOp (fun c => c.creditHold k b.ls)
    else (d0.chipOp (fun c => c.cacheFill k b)).issueBundle k b

/-- The results that the bundle at PC can read reach their registers. -/
def Dev.coreDeliver (k : Nat) (d : Dev) : Dev := d.chipOp (fun c => c.setCore k (c.core k).deliver)

/-- The bundle at PC of core `k` is fetched and comes to issue; a fetch that fails raises BUS_ERR (R162, R163). -/
def Dev.issue (d : Dev) (k : Nat) : Dev :=
  let d0 := d.coreDeliver k
  match d0.fetch k with
  | none =>
    let pc := (d0.chip.core k).pc
    (d0.fetchBus k).chipOp (fun c => (c.setBadaddr k (word (16 * pc))).exceptionEntry k 0x03 pc)
  | some b => (d0.fetchBus k).issueFetched k b

/-- A bundle that a hold for credit kept back comes to issue (R109); it has been fetched before. -/
def Dev.reissue (d : Dev) (k : Nat) : Dev :=
  let d0 := d.coreDeliver k
  match d0.fetch k with
  | none => d.issue k
  | some b => d0.issueFetched k b

/-- Whether the breakpoint of core `k` names the bundle at PC (R160, R171, R173), which has not halted the core already: a
RESUME issues that bundle (DESIGN CHOICE, log entry 31). -/
def Chip.atBreak (c : Chip) (k : Nat) : Bool :=
  let pc := (c.core k).pc
  !(c.core k).past &&
    (if isSteward k then c.rdb (Reg.ST_BRK (k - 32)) 0 && c.rdf (Reg.ST_BRK (k - 32)) 31 4 == pc
     else c.rdb (Reg.MEC_BRK k) 31 && c.rdf (Reg.MEC_BRK k) 11 0 == pc)

/-- Whether the clock of core `k` runs: a MEC's is gated in Quiet (R169). -/
def Chip.coreClocked (c : Chip) (k : Nat) : Bool := isSteward k || !c.quiet

/-- Whether core `k` can issue: RUNNING with nothing to drain (R156, R159, R160), or held by a WAITI whose interrupt input is
asserted, where no interrupt is taken: with IE = 0, or in a delay bundle (R166, R198). A STEP's WAITI only ends. -/
def Chip.canIssue (c : Chip) (k : Nat) : Bool :=
  let x := c.core k
  c.coreClocked k && x.drain == .none &&
    (c.coreState k == 1 ||
      (c.coreState k == 3 && x.hold == .interrupt && c.stewardIrq k && !x.step && (!x.ie || x.branch.isSome)))

/-- A WAITI that has met its interrupt input goes on (R198). -/
def Chip.endWaiti (c : Chip) (k : Nat) : Chip :=
  if c.coreState k = 3 ∧ (c.core k).hold = .interrupt then c.coreUnhold k else c

/-- The bundle that core `k` issues next, if it can issue one and no breakpoint stops it. -/
def Dev.nextBundle (d : Dev) (k : Nat) : Option Bundle :=
  if d.chip.canIssue k && !d.chip.atBreak k && !d.chip.fetchWaits k then d.fetch k else none

/-- A bundle without an operation issues; bundles of four NOPs have no command of their own, and issue ahead of the
next one (log entry 10). -/
def Dev.skipEmpty (k : Nat) : Nat → Dev → Dev
  | 0, d => d
  | f + 1, d =>
    match d.nextBundle k with
    | some b => if b.empty then Dev.skipEmpty k f (((d.chipOp (fun c => c.endWaiti k))).issue k) else d
    | none => d

/-- The issue of the bundle at PC of core `k`, given that it holds the operation `has` asks for; nothing happens where
the core does not issue such a bundle next. -/
def Dev.issueOp (d : Dev) (k : Nat) (has : Bundle → Bool) : Dev :=
  let d1 := Dev.skipEmpty k 64 d
  match d1.nextBundle k with
  | some b => if has b then (d1.chipOp (fun c => c.endWaiti k)).issue k else d
  | none => d

end Sys2Proof.Machine
end

