-- ==== Sys2Proof/Machine/Cores.lean ====
section
/-! DEFINITION. The cores' commands (R152, R156 to R173): results, holds, run commands, releases, the register window,
exceptions and interrupts. The operations of the slots stand in Machine/MacOps.lean, LsOps.lean and CtOps.lean. -/

namespace Sys2Proof.Machine

/-! Results and holds. -/

/-- Results reach their destinations (R143): those the next bundle can read; else, while the core drains, those of
one bundle more; else those that a bundle of four NOPs brings nearer. -/
def Dev.resultDelivery (k : Nat) (d : Dev) : Dev :=
  let x := d.chip.core k
  let y := x.deliver
  if y.flight.length < x.flight.length then d.chipOp (fun c => c.setCore k y)
  else if x.drain ≠ .none then d.chipOp (fun c => c.setCore k { x with issued := x.issued + 1 }.deliver)
  else match d.nextBundle k with
    | some b =>
      if b.empty then
        ((d.chipOp (fun c => c.endWaiti k)).issue k).chipOp (fun c => c.setCore k (c.core k).deliver)
      else d
    | none => d

def execResultDelivery (c : CoreId) (s : State) : Host.Outcome State Fault Refusal :=
  s.onDev (Dev.resultDelivery (coreNum c))

/-- The awaited event bit is set: it is cleared and the core goes on (R158). -/
def Chip.eventWaitEnd (k : Nat) (c : Chip) : Chip :=
  match (c.core k).hold with
  | .event e => if c.rdb (Reg.MEC_EVPEND k) e then (c.wrb (Reg.MEC_EVPEND k) e false).coreUnhold k else c
  | _ => c

def execEventWaitEnd (c : CoreId) (s : State) : Host.Outcome State Fault Refusal :=
  s.onChip (Chip.eventWaitEnd (coreNum c))

/-! End of tick, halts, steps. -/

/-- MECn_CYCLES and MECn_CYC_MAX at the end of the tick program (R171): 20 bits, the lower ones of a count that has more
(DESIGN CHOICE, log entry 129). -/
def Chip.mecCycles (c : Chip) (k : Nat) : Chip :=
  let n := ((c.core k).age + c.ecyc) % 2 ^ 20
  (c.stat (Reg.MEC_CYCLES k) (word n)).stat (Reg.MEC_CYC_MAX k) (word (max (c.rd (Reg.MEC_CYC_MAX k)).toNat n))

/-- ENDT completes (R156, R160): ENDED in TICK mode, STOPPED with END in FREE mode. -/
def Chip.endtComplete (k : Nat) (c : Chip) : Chip :=
  let x := c.core k
  if x.drain = .endt ∧ c.coreState k = 1 then
    let c1 := (c.setCore k { x.deliverAll with drain := .none }).mecCycles k
    if c1.rdb (Reg.MEC_RUNCTL k) 0 then (c1.setCoreState k 0).irq (pgCore k) 0 else c1.setCoreState k 2
  else c

def execEndtComplete (c : CoreId) (s : State) : Host.Outcome State Fault Refusal :=
  s.onChip (Chip.endtComplete (coreNum c))

/-- A bundle at the breakpoint halts the core before it issues (R160). -/
def Chip.breakpoint (k : Nat) (c : Chip) : Chip :=
  if c.canIssue k && c.atBreak k then
    let c1 := c.endWaiti k
    ((c1.setCore k { (c1.core k).deliverAll with past := true }).setCoreState k 4).irq (pgCore k) 1
  else c

def execBreakpoint (c : CoreId) (s : State) : Host.Outcome State Fault Refusal :=
  s.onChip (Chip.breakpoint (coreNum c))

/-- The key of ENTRY and the bundle it names (R171, R173). -/
def Chip.entry (c : Chip) (k : Nat) : Nat :=
  if isSteward k then c.rdf (Reg.ST_ENTRY (k - 32)) 31 4 else c.rdf (Reg.MEC_ENTRY k) 11 0

/-- What a core begins with at a bundle. -/
def CoreSt.begin (x : CoreSt) (pc : Nat) : CoreSt :=
  { x with
    pc := pc, flight := [], branch := none, lost := false, hold := .none, next := .none, drain := .none, step := false
    past := false }

/-- RUNCTL.START (R55, R160, R169, R172): only in STOPPED with CTRL.EN = 1, a clock and no idle request; a MEC in TICK mode
waits for its release. -/
def Chip.coreStart (k : Nat) (c : Chip) : Chip :=
  if c.coreState k ≠ 0 ∨ c.en (pgCore k) = false ∨ c.idleReq (pgCore k) ∨ c.coreClocked k = false then c
  else
    let c1 := c.setCore k { (c.core k).begin (c.entry k) with torn := [] }
    c1.setCoreState k (if isSteward k || c.rdb (Reg.MEC_RUNCTL k) 0 then 1 else 2)

def execCoreStart (c : CoreId) (s : State) : Host.Outcome State Fault Refusal :=
  s.onChip (Chip.coreStart (coreNum c))

/-- RUNCTL.HALT (R160): issue stops at the next bundle boundary. -/
def Chip.coreHalt (k : Nat) (c : Chip) : Chip :=
  let x := c.core k
  if (c.coreState k = 1 ∨ c.coreState k = 3) ∧ x.drain = .none ∧ x.step = false then
    c.setCore k { x with drain := .halt }
  else c

def execCoreHalt (c : CoreId) (s : State) : Host.Outcome State Fault Refusal :=
  s.onChip (Chip.coreHalt (coreNum c))

/-- The results in flight are delivered and the core is HALTED (R160). -/
def Chip.haltDone (k : Nat) (c : Chip) : Chip :=
  let x := c.core k
  if x.drain = .halt ∧ c.coreState k = 1 then (c.setCore k { x.deliverAll with drain := .none }).setCoreState k 4
  else c

def execHaltDone (c : CoreId) (s : State) : Host.Outcome State Fault Refusal :=
  s.onChip (Chip.haltDone (coreNum c))

/-- RUNCTL.STEP (R160): one bundle issues, its results are delivered, and the core is HALTED again unless a hold
keeps it. After a STEP of ENDT the core stays HALTED, no bundle left to issue; ENDT completes after RESUME (DESIGN CHOICE,
log entry 127). -/
def Dev.coreStep (k : Nat) (d : Dev) : Dev :=
  let x := d.chip.core k
  if d.chip.coreState k = 4 ∧ x.drain = .none ∧ d.chip.coreClocked k ∧ d.chip.fetchWaits k = false then
    (d.chipOp (fun c => (c.setCore k { x with step := true }).setCoreState k 1)).issue k
  else d

def execCoreStep (c : CoreId) (s : State) : Host.Outcome State Fault Refusal := s.onDev (Dev.coreStep (coreNum c))

/-- RUNCTL.RESUME (R160). -/
def Chip.coreResume (k : Nat) (c : Chip) : Chip :=
  if c.coreState k = 4 ∧ c.coreClocked k then c.setCoreState k 1 else c

def execCoreResume (c : CoreId) (s : State) : Host.Outcome State Fault Refusal :=
  s.onChip (Chip.coreResume (coreNum c))

/-- A write of RUNCTL: MODE, then the commands in ascending bit order (R171, R173, R669). -/
def Dev.runctl (k : Nat) (v : Word) (d : Dev) : Dev :=
  let d0 := if isSteward k then d else d.chipOp (fun c => c.wr (Reg.MEC_RUNCTL k) (v &&& 1))
  let d1 := if bit v 8 then d0.chipOp (Chip.coreStart k) else d0
  let d2 := if bit v 9 then d1.chipOp (Chip.coreHalt k) else d1
  let d3 := if bit v 10 then d2.coreStep k else d2
  if bit v 11 then d3.chipOp (Chip.coreResume k) else d3

/-- A push or pop that held the core is abandoned (R220). -/
def Chip.abandonWait (c : Chip) (k : Nat) : Chip :=
  match (c.core k).hold with
  | .credit q push =>
    let x := c.queue q
    c.setQueue q (if push then { x with pwait := false } else { x with cwait := false })
  | _ => c

/-- The core is STOPPED with its work abandoned: with CTRL.EN = 0 (R170, R172), a MEC in Quiet (R169). -/
def Chip.coreDisabled (k : Nat) (c : Chip) : Chip :=
  let c1 := c.abandonWait k
  (c1.setCore k ((c1.core k).abandon.begin (c1.core k).pc)).setCoreState k 0

/-- In Quiet every MEC is ENDED or STOPPED (R169); one that debug has HALTED stays so (DEDUCED, log entry 129). -/
def Chip.mecsQuiet (c : Chip) : Chip :=
  forUpTo 32 (fun k c => if c.coreState k = 1 ∨ c.coreState k = 3 then c.coreDisabled k else c) c

/-! Releases and force-backs. -/

/-- What a release or a force-back sets (R157): PC, RRB and the loop levels; results in flight are discarded. -/
def CoreSt.released (x : CoreSt) (pc : Nat) : CoreSt :=
  { x.begin pc with
    rrb := 0
    loops := x.loops.map (fun e => (e.1, { e.2 with active := false }))
    dirty := []
    dirtyM := []
    age := 0 }

/-- The tick of MEC `k` ends (R171): MECn_HOLD, of 20 bits, and the ecyc gone since its release. -/
def Chip.mecTickEnd (k : Nat) (c : Chip) : Chip :=
  let x := c.core k
  let here := if c.coreState k = 3 then c.ecyc - x.holdAt else 0
  (c.stat (Reg.MEC_HOLD k) (word ((x.held + here) % 2 ^ 20))).setCore k { x with held := 0, holdAt := 0, age := x.age + c.ecyc }

/-- MEC `k` is released to its entry point (R157). -/
def Chip.mecRelease (c : Chip) (k : Nat) : Chip := (c.setCore k ((c.core k).released (c.entry k))).setCoreState k 1

/-- A register whose content is undefined takes a free value; a loop counter with the bundles and the step that were set with
it. -/
def CoreSt.loosen (x : CoreSt) (t : Dest) (v : BitVec 80) : CoreSt :=
  match t with
  | .lc i => x.setLoop i { x.loop i with
      count := v.extractLsb' 0 16, start := (v.extractLsb' 16 12).toNat, stop := (v.extractLsb' 28 12).toNat
      step := (v.extractLsb' 40 4).toNat % 9 }
  | _ => x.poke t v

/-- The registers written since the last release hold free values: which of the abandoned block's effects took place
is undefined (R221). -/
def CoreSt.scramble (x : CoreSt) (ctr : Nat) : CoreSt :=
  x.dirty.zipIdx.foldl (fun x e => x.loosen e.1 (Config.freeBits 80 (ctr + e.2))) x

/-- The words of memory written since the last release, locally or remotely, hold free values (R221). -/
def Memory.scramble (m : Memory) (l : List Nat) (ctr : Nat) : Memory :=
  l.zipIdx.foldl (fun m e => m.setWord e.1 (Config.freeBits 32 (ctr + e.2))) m

/-- MEC `k` is forced back (R157, R220, R221), to ENDED when the Tick Unit stops (R34). A HALT asked for while it was held
halts it at its entry point (R160). -/
def Dev.forceBack (ended : Bool) (k : Nat) (d : Dev) : Dev :=
  let c := d.chip.abandonWait k
  let x := c.core k
  let n := c.freeCtr
  let y := (x.scramble n).abandon.released (c.entry k)
  let c1 := c.setCore k (if x.drain = .halt ∧ !ended then { y with drain := .halt } else y)
  let c2 := { c1.setCoreState k (if ended then 2 else 1) with freeCtr := n + x.dirty.length + x.dirtyM.length }
  { mem := d.mem.scramble x.dirtyM (n + x.dirty.length), chip := c2.irq (pgCore k) 4 }

/-- MEC `k` at an engine boundary (R23, R157, R220): TICK mode only; a HALTED one, or one held in a STEP, is left
alone. -/
def Dev.mecBoundary (k : Nat) (d0 : Dev) : Dev :=
  let d := d0.chipOp (Chip.mecTickEnd k)
  let st := d.chip.coreState k
  if d.chip.rdb (Reg.MEC_RUNCTL k) 0 || (d.chip.core k).step then d
  else if st = 2 then d.chipOp (fun c => c.mecRelease k)
  else if st = 1 ∨ st = 3 then d.forceBack false k
  else d

/-- MEC `k` at the boundary at which the Tick Unit stops (R34). -/
def Dev.mecStopBoundary (k : Nat) (d0 : Dev) : Dev :=
  let d := d0.chipOp (Chip.mecTickEnd k)
  let st := d.chip.coreState k
  if d.chip.rdb (Reg.MEC_RUNCTL k) 0 || (d.chip.core k).step then d
  else if st = 1 ∨ st = 3 then d.forceBack true k
  else d

/-- An undefined sequence of bundles ends at the engine boundary (R146, R196). -/
def Chip.sequencesEnd (c : Chip) : Chip :=
  { c with cores := c.cores.map (fun e => (e.1, { e.2 with lost := false })) }

/-! The register window. -/

/-- REGSEL of core `k` (R161, R173). -/
def Chip.regSel (c : Chip) (k : Nat) : Nat :=
  c.rdf (if isSteward k then Reg.ST_REGSEL (k - 32) else Reg.MEC_REGSEL k) 7 0

/-- A loop level as the window shows it (R161). -/
def LoopLevel.word (v : LoopLevel) : Word :=
  Machine.word (v.start % 4096 + v.stop % 4096 * 2 ^ 12 + v.step % 16 * 2 ^ 24 + b2n v.active * 2 ^ 31)

/-- A loop level as the window writes it (R161). -/
def LoopLevel.ofWord (v : LoopLevel) (w : Word) : LoopLevel :=
  { v with start := fld w 11 0, stop := fld w 23 12, step := min 8 (fld w 27 24), active := bit w 31 }

/-- The register that REGSEL names, where a plain register does (R161). -/
def selDest (sel : Nat) : Option Dest :=
  if sel < 0x40 then some (.d sel)
  else if sel < 0x48 then some (.a (sel - 0x40))
  else if 0x50 ≤ sel ∧ sel < 0x60 then some (.p (sel - 0x50))
  else if 0x60 ≤ sel ∧ sel < 0x70 then some (.m (sel - 0x60))
  else if 0x70 ≤ sel ∧ sel < 0x78 then some (.b (sel - 0x70))
  else if 0x78 ≤ sel ∧ sel < 0x80 then some (.l (sel - 0x78))
  else if sel = 0x80 ∨ sel = 0x81 then some (.lc (sel - 0x80))
  else if sel = 0x88 then some .mode
  else if sel = 0x89 then some .sstat
  else if sel = 0x8A then some .rrb
  else none

/-- The selected register (R161, R173). -/
def Chip.windowValue (c : Chip) (k : Nat) : BitVec 80 :=
  let x := c.core k
  let sel := c.regSel k
  match selDest sel with
  | some t => x.peek t
  | none =>
    if sel = 0x82 then ((x.loop 0).word).setWidth 80
    else if sel = 0x84 then ((x.loop 1).word).setWidth 80
    else if sel = 0x8B then BitVec.ofNat 80 (if isSteward k then 16 * x.pc else x.pc)
    else if sel = 0x8C then (c.evpend k).setWidth 80
    else if isSteward k ∧ 0x90 ≤ sel ∧ sel ≤ 0x95 then (x.supReg (sel - 0x90)).setWidth 80
    else 0

/-- Whether the window works: STOPPED or HALTED (R161). -/
def Chip.windowOpenFor (c : Chip) (k : Nat) : Bool := c.coreState k == 0 || c.coreState k == 4

/-- The error of a window access in another state (R161). -/
def Chip.notHalted (c : Chip) (k : Nat) : Chip :=
  c.err (pgCore k) 0x01 (if isSteward k then 0 else mecInfo (c.core k).pc 0)

/-- A read of REGDATA0, 1 or 2 (R161). -/
def Chip.windowRead (c : Chip) (k i : Nat) : Chip :=
  if c.windowOpenFor k then
    c.ret (if i = 2 then ((c.windowValue k).extractLsb' 64 16).setWidth 32 else (c.windowValue k).extractLsb' (32 * i) 32)
  else (c.notHalted k).ret 0

/-- A write of REGDATA1 or REGDATA2 stages its bits (R161). -/
def Chip.regStage (k : Nat) (hi : Bool) (v : Word) (c : Chip) : Chip :=
  if c.windowOpenFor k then
    let x := c.core k
    c.setCore k (if hi then { x with stage2 := v &&& 0xFFFF } else { x with stage1 := v })
  else c.notHalted k

def execRegdataStage (c : CoreId) (hi : Bool) (v : Word) (s : State) : Host.Outcome State Fault Refusal :=
  s.onChip (Chip.regStage (coreNum c) hi v)

/-- A write of REGDATA0 writes the selected register (R161). -/
def Chip.regCommit (k : Nat) (v : Word) (c : Chip) : Chip :=
  if c.windowOpenFor k then
    let x := c.core k
    let sel := c.regSel k
    let w : BitVec 80 := x.stage2.setWidth 16 ++ x.stage1 ++ v
    match selDest sel with
    | some t => c.setCore k (x.poke t w)
    | none =>
      if sel = 0x82 then c.setCore k (x.setLoop 0 ((x.loop 0).ofWord v))
      else if sel = 0x84 then c.setCore k (x.setLoop 1 ((x.loop 1).ofWord v))
      else if sel = 0x8B then c.setCore k { x with
        pc := if isSteward k then v.toNat / 16 else v.toNat % 4096, past := false }
      else if sel = 0x8C ∧ !isSteward k then c.wr (Reg.MEC_EVPEND k) (v &&& 0xFFFF)
      else if isSteward k ∧ 0x90 ≤ sel ∧ sel ≤ 0x95 then c.setCore k (x.setSupReg (sel - 0x90) v)
      else c
  else c.notHalted k

def execRegdataCommit (c : CoreId) (v : Word) (s : State) : Host.Outcome State Fault Refusal :=
  s.onChip (Chip.regCommit (coreNum c) v)

/-- MECn_STATE, STn_STATE and STn_PC as they read (R171, R173). -/
def Chip.coreStateView (c : Chip) (k : Nat) : Word :=
  if isSteward k then word (c.coreState k + 8 * b2n (c.core k).sup)
  else word (c.coreState k + (c.core k).pc % 4096 * 4096)
def Chip.stPcView (c : Chip) (k : Nat) : Word := word (16 * (c.core k).pc)

/-- A write of 1 to bits of MECn_SSTAT (R140). -/
def Chip.sstatClear (c : Chip) (k : Nat) (v : Word) : Chip :=
  let x := c.core k
  c.setCore k { x with sstat := x.sstat &&& ~~~v }

/-- A write of MECn_STATS_CLR (R171). -/
def Chip.mecStatsClr (m : Nat) (v : Word) (c : Chip) : Chip := if bit v 0 then c.wr (Reg.MEC_CYC_MAX m) 0 else c

def execMecStatsClr (m : Fin 32) (v : Word) (s : State) : Host.Outcome State Fault Refusal :=
  s.onChip (Chip.mecStatsClr m v)

/-! Stewards. -/

def execIcacheInvalidate (st : Fin 2) (s : State) : Host.Outcome State Fault Refusal :=
  s.onChip (fun c => c.icacheInvalidate (32 + st))

/-- A Steward takes an interrupt between bundles (R166, R198): IE = 1, the Hub asserts its input, and no branch is
pending; EPC takes the next bundle. A WAITI with IE = 0, in a delay bundle or ahead of a HALT only goes on. -/
def Chip.interruptTaken (k : Nat) (c : Chip) : Chip :=
  let x := c.core k
  let waits := x.hold == .interrupt && c.coreState k == 3
  if !c.stewardIrq k then c
  else if x.ie && x.branch.isNone && x.drain == .none && (waits || c.coreState k == 1) then c.exceptionEntry k 0x08 x.pc
  else if waits then c.endWaiti k
  else c

def execInterruptTaken (st : Fin 2) (s : State) : Host.Outcome State Fault Refusal :=
  s.onChip (Chip.interruptTaken (32 + st))

/-- The watchdog of Steward `n` has `cycles` Steward cycles left (R167); STn_WDOG_LEFT shows the whole units of 1,024 cycles
(DESIGN CHOICE, log entry 96). -/
def Chip.wdogSet (c : Chip) (n cycles : Nat) : Chip :=
  (c.setCore (32 + n) { c.core (32 + n) with wdog := cycles }).stat (Reg.ST_WDOG_LEFT n) (word (cycles / 1024))

/-- The count is loaded from PERIOD. -/
def Chip.wdogLoad (c : Chip) (n : Nat) : Chip := c.wdogSet n (c.rdf (Reg.ST_WDOG_CFG n) 23 0 * 1024)

/-- Setting STn_WDOG_CFG.EN, which only a reset clears, starts the count (R167). -/
def Chip.wdogCfgWrite (c : Chip) (n : Nat) (v : Word) : Chip :=
  let on := c.rdb (Reg.ST_WDOG_CFG n) 31
  let c1 := c.wr (Reg.ST_WDOG_CFG n) (setBit (v &&& 0xFF_FFFF) 31 (on || bit v 31))
  if !on && bit v 31 then c1.wdogLoad n else c1

/-- One Steward cycle of the watchdogs (R167): a HALTED Steward's does not count. -/
def Chip.wdogCycle (c : Chip) : Chip :=
  forUpTo 2 (fun n c =>
    let left := (c.core (32 + n)).wdog
    if c.rdb (Reg.ST_WDOG_CFG n) 31 && left != 0 && c.coreState (32 + n) != 4 then c.wdogSet n (left - 1) else c) c

/-- One idle cycle of CLK_TB, which is one Steward cycle as well (R162, R387): what a step does when no command waits (log
entry 6). -/
def idle (s : State) : State := { s with dev := { s.dev with chip := (s.dev.chip.tbAdvance 1).wdogCycle } }

/-- A reset of core `k` (R168): its page, MODE, SSTAT, RRB, PC and the loop levels, results in flight and remote
accesses, and a Steward's STATUS and SVBASE; no reset changes the rest (R10, R131). -/
def Chip.resetCore (c : Chip) (k : Nat) : Chip :=
  let x := c.core k
  (c.resetPage (pgCore k)).setCore k
    { coreReset with
      d := x.d, a := x.a, p := x.p, m := x.m, b := x.b, l := x.l
      estat := x.estat, epc := x.epc, cause := x.cause, badaddr := x.badaddr
      loops := x.loops.map (fun e => (e.1, { loopReset with count := e.2.count })) }

end Sys2Proof.Machine
end

