-- ==== Sys2Proof/Machine/Courier.lean ====
section
/-! DEFINITION. The Courier channels (R275 to R278, R289 to R308) but for the instructions that move data, which
stand in Machine/CourierRun.lean. -/

namespace Sys2Proof.Machine

/-- A field of an instruction. -/
def ifld (w : BitVec 64) (hi lo : Nat) : Nat := w.toNat >>> lo % 2 ^ (hi + 1 - lo)

/-- Channel `n` beside its registers. -/
def Chip.chan (c : Chip) (n : Nat) : CurChan := look curChanReset c.cur.chans n

/-- Channel `n` becomes `x`. -/
def Chip.setChan (c : Chip) (n : Nat) (x : CurChan) : Chip :=
  { c with cur := { c.cur with chans := put c.cur.chans n x } }

/-- STATE of a channel (R276): 0 IDLE, 1 RUN, 2 WAIT, 3 DONE, 4 ERROR, 5 ABORTING. -/
def Chip.chanState (c : Chip) (n : Nat) : Nat := c.rdf (Reg.CUR_CH_STAT n) 2 0
def Chip.setChanState (c : Chip) (n v : Nat) : Chip := c.wrf (Reg.CUR_CH_STAT n) 2 0 v

/-- The page and the slot of a channel (R275). -/
def chanPage (n : Nat) : Nat := pgCUR (n / 8)
def chanSlot (n : Nat) : Nat := n % 8

/-- A channel sets bit `b` (0 DONE, 1 SIG, 2 ERR, 3 ABORTED) of its interrupt flags (R306). -/
def Chip.chanIrq (c : Chip) (n b : Nat) : Chip := c.irq (chanPage n) (4 * chanSlot n + b)

/-- A pointer register, 40 bits (R275, R307). -/
def Chip.curPtr (c : Chip) (n k : Nat) : Nat :=
  c.rdf (Reg.CUR_CH_PTR_HI n k) 7 0 * 2 ^ 32 + (c.rd (Reg.CUR_CH_PTR_LO n k)).toNat

/-- A pointer register takes a value modulo 2^40 (R281). -/
def Chip.setCurPtr (c : Chip) (n k v : Nat) : Chip :=
  (c.wr (Reg.CUR_CH_PTR_LO n k) (word v)).wr (Reg.CUR_CH_PTR_HI n k) (word (v / 2 ^ 32 % 256))

/-- The ring (R296): RL and RB. -/
def Chip.ringLen (c : Chip) (n : Nat) : Nat := 2 ^ (min 24 (c.rdf (Reg.CUR_CH_RLOG n) 4 0) + 8)
def Chip.ringBase (c : Chip) (n : Nat) : Nat :=
  let b := c.rdf (Reg.CUR_CH_RBASE_HI n) 7 0 * 2 ^ 32 + (c.rd (Reg.CUR_CH_RBASE_LO n)).toNat
  b / c.ringLen n * c.ringLen n

/-- An address taken into the ring (R287, R295). -/
def Chip.inRing (c : Chip) (n : Nat) (a : Int) : Nat :=
  (c.ringBase n + ((a - c.ringBase n) % c.ringLen n).toNat) % 2 ^ 40

/-- Forced Plain Mode and Plain Mode (R299). -/
def Chip.plainForced (c : Chip) (n : Nat) : Bool :=
  c.cur.boot || look false c.cur.block (n / 8) || ((c.chan n).bist)
def Chip.plainEff (c : Chip) (n : Nat) : Bool := c.rdb (Reg.CUR_CH_CFG n) 0 || c.plainForced n

/-- The open transactions of a channel, and of a master port or the whole Courier (R298). -/
def Chip.chanOpen (c : Chip) (n : Nat) : List MtxOpen :=
  c.mtx.opn.filter (fun o => o.txn.master.val == 6 + n / 8 && o.txn.chan.val == n)
def Chip.curOpen (c : Chip) (p : Nat → Bool) : Nat := (c.mtx.opn.filter (fun o => p o.txn.master.val)).length

/-- Whether a write of the channel has no response yet, or is held before it is issued (R293). -/
def Chip.chanWrites (c : Chip) (n : Nat) : Bool :=
  (c.chanOpen n).any (fun o => o.txn.write) ||
    c.mtx.held.any (fun t => t.write && t.master.val == 6 + n / 8 && t.chan.val == n)

/-- CURn_CHi_STAT as it reads (R308). -/
def Chip.chanStatView (c : Chip) (n : Nat) : Word :=
  setFld (setBit (setBit (c.rd (Reg.CUR_CH_STAT n)) 3 (c.plainEff n)) 4 (c.plainForced n)) 12 8 (c.chanOpen n).length

/-- CURn_OUTSTANDING (R307). -/
def Chip.curOutstanding (c : Chip) (n : Nat) : Word :=
  word (c.curOpen (· == 6 + n) + 0x1_0000 * c.curOpen (fun m => 6 ≤ m && m ≤ 9))

/-- OP of the instruction in execution. -/
def Chip.chanOp (c : Chip) (n : Nat) : Nat := ifld (c.chan n).instr 63 60

/-! Errors. -/

/-- CHAN_BUSY (R277, R301): recorded, nothing else. -/
def Chip.chanBusy (c : Chip) (n op : Nat) : Chip :=
  c.err (chanPage n) 0x01 (word (chanSlot n + op * 0x100))

/-- A channel stops in ERROR (R301). -/
def Chip.chanError (c : Chip) (n op code addr : Nat) : Chip :=
  let c1 := (c.err (chanPage n) code (word (chanSlot n + op * 0x100))).chanIrq n 2
  let c2 := ((c1.wr (Reg.CUR_CH_ERRADDR_LO n) (word addr)).wr (Reg.CUR_CH_ERRADDR_HI n) (word (addr / 2 ^ 32 % 256)))
  ((c2.setChan n { c.chan n with started := false, done := 0, popped := [], stop := false, fence := false }).wrf
    (Reg.CUR_CH_STAT n) 7 5 0).setChanState n 4

/-! Start, abort, locked registers. -/

/-- Whether a channel takes START and register writes (R277). -/
def Chip.chanStopped (c : Chip) (n : Nat) : Bool :=
  let s := c.chanState n
  s == 0 || s == 3 || s == 4

/-- CURn_CHi_CMD.START (R277, R306); an idle request takes no new run (R55). -/
def Chip.chanStart (n : Nat) (c : Chip) : Chip :=
  if !c.chanStopped n then c.chanBusy n 0
  else if !c.en (chanPage n) || c.idleReq (chanPage n) then c
  else
    let c1 := c.setChan n { curChanReset with bist := (c.chan n).bist }
    let c2 := (((c1.wr (Reg.CUR_CH_PC n) (c.rd (Reg.CUR_CH_PROG n) &&& 0x1FF_FFF8)).stat (Reg.CUR_CH_MOVED n) 0).wr
      (Reg.CUR_CH_STAT n) 0)
    c2.setChanState n 1

def execChannelStart (c : Fin 32) (s : State) : Host.Outcome State Fault Refusal :=
  s.onChip (Chip.chanStart c)

/-- CURn_CHi_CMD.ABORT (R302): what the instruction has done stays done; popped words are lost. -/
def Chip.chanAbort (n : Nat) (c : Chip) : Chip :=
  if c.chanState n = 1 ∨ c.chanState n = 2 then
    ((c.setChan n { c.chan n with started := false, done := 0, popped := [], stop := false, fence := false }).wrf
      (Reg.CUR_CH_STAT n) 7 5 0).setChanState n 5
  else c

/-- The queues a channel of the Courier waits at stop counting it as waiting. -/
def Chip.chanUnwait (c : Chip) (n : Nat) : Chip :=
  c.mapQueues (fun _ x =>
    { x with
      pwait := x.pwait && !(x.pkind == 3 && x.pid == n)
      cwait := x.cwait && !(x.ckind == 3 && x.cid == n) })

def execChannelAbort (c : Fin 32) (s : State) : Host.Outcome State Fault Refusal :=
  s.onChip (fun h => (h.chanAbort c).chanUnwait c)

/-- The last response returns: IDLE with ABORTED (R302). -/
def Chip.abortDone (n : Nat) (c : Chip) : Chip :=
  if c.chanState n = 5 ∧ (c.chanOpen n).isEmpty then ((c.setChanState n 0).wrb (Reg.CUR_CH_STAT n) 16 true).chanIrq n 3 else c

def execAbortDone (c : Fin 32) (s : State) : Host.Outcome State Fault Refusal := s.onChip (Chip.abortDone c)

/-- A write of CURn_CHi_CMD: START, then ABORT (R669). -/
def Chip.chanCmd (n : Nat) (v : Word) (c : Chip) : Chip :=
  let c1 := if bit v 0 then c.chanStart n else c
  if bit v 1 then (c1.chanAbort n).chanUnwait n else c1

/-- A write of PROG, a pointer or a ring register (R277). -/
def Chip.chanLocked (c : Chip) (n k : Nat) (v : Word) : Chip :=
  if c.chanStopped n then c.wr k v else c.chanBusy n 0

/-! Flags. -/

/-- The flags CF0 to CF31, one set for all four pages (R291). -/
def Chip.curFlags (c : Chip) : Word := c.rd (Reg.CUR_FLAGS 0)

/-- Flags set through CURn_FLAG_SET. -/
def Chip.flagSet (v : Word) (c : Chip) : Chip := c.wr (Reg.CUR_FLAGS 0) (c.curFlags ||| v)

def execFlagSet (_n : Fin 4) (v : Word) (s : State) : Host.Outcome State Fault Refusal :=
  s.onChip (Chip.flagSet v)

/-- Flags cleared through CURn_FLAGS. -/
def Chip.flagClear (v : Word) (c : Chip) : Chip := c.wr (Reg.CUR_FLAGS 0) (c.curFlags &&& ~~~v)

/-- A write of CURn_PLAIN_REL (R299). -/
def Chip.plainRelease (n : Nat) (v : Word) (c : Chip) : Chip :=
  if bit v 0 then { c with cur := { c.cur with block := put c.cur.block n false } } else c

def execPlainRelease (n : Fin 4) (v : Word) (s : State) : Host.Outcome State Fault Refusal :=
  s.onChip (Chip.plainRelease n v)

/-! Resets. -/

/-- What a reset of page CURn returns (R304): the registers of its channels and the channels; `blk` for a BLOCK reset,
which leaves the shared flags and forces Plain Mode until PLAIN_REL is written, whatever other reset comes between (R299). -/
def Chip.resetCur (blk : Bool) (n : Nat) (c : Chip) : Chip :=
  let f := c.curFlags
  let c1 := (c.resetPage (pgCUR n))
  let c2 := { c1 with cur := { c1.cur with
    chans := drop (fun k => k / 8 == n) c1.cur.chans
    block := if blk then put c1.cur.block n true else c1.cur.block } }
  if blk then c2.wr (Reg.CUR_FLAGS 0) f else c2.wr (Reg.CUR_FLAGS 0) 0

/-- A CHIP or SYSTEM reset forces Plain Mode until REMAP is written to 1 (R299). -/
def Chip.curBoot (c : Chip) (b : Bool) : Chip := { c with cur := { c.cur with boot := b } }

end Sys2Proof.Machine
end

