-- ==== Sys2Proof/Machine/Sap.lean ====
section
/-! DEFINITION. The inputs of the serial audio ports (R325 to R342) and what the ports share with AES3 and ASRC:
fades, feeds and trims. Their outputs stand in Machine/Output.lean. -/

namespace Sys2Proof.Machine

/-! Fades (R339). -/

/-- Sample `k` of the fade to silence from `s`. -/
def fadeOut (s : Word) (k : Nat) : Word := if k < 32 then scaleTrunc s (31 - k) 32 else 0

/-- Sample `k` of a fade-in; unchanged from sample 32 on. -/
def fadeIn (w : Word) (k : Nat) : Word := if k < 32 then scaleTrunc w (k + 1) 32 else w

/-! Input feeds (R337). -/

/-- EN, HDR and the queue of an input feed's register. -/
def feedEn (v : Word) : Bool := bit v 16
def feedHdr (v : Word) : Bool := bit v 17
def feedQueue (v : Word) : Nat := fld v 9 0

/-- Whether the frame captured at the last strobe is the first of its block, and whether the one before it was: a frame
follows its strobe, so sample 0 is index 1. -/
def Chip.firstFrame (c : Chip) : Bool := c.tick.idx == 1
def Chip.firstBefore (c : Chip) : Bool := c.tick.idx == 2 || (c.tick.idx == 1 && c.tickN == 1)

/-- An input feed pushes the words of a frame; the first frame of a block brings its header first. While the Tick
Unit is stopped it pushes nothing. -/
def Dev.inputFeed (d : Dev) (kind id : Nat) (reg : Word) (first : Bool) (time : Word) (ws : List Word) : Dev :=
  if feedEn reg && d.chip.tickRuns then
    d.pushAll (feedQueue reg) kind id ((if feedHdr reg && first then [time] else []) ++ ws)
  else d

/-! Format. -/

/-- Port `p` beside its registers. -/
def Chip.sapSt (c : Chip) (p : Nat) : SapSt := look sapReset c.sap p
def Chip.setSap (c : Chip) (p : Nat) (x : SapSt) : Chip := { c with sap := put c.sap p x }

/-- Bits of a width code (R328). -/
def widthBits (code : Nat) : Nat :=
  match code with
  | 0 => 16
  | 1 => 24
  | _ => 32

/-- The slots of a frame (R327). -/
def Chip.sapSlots (c : Chip) (p : Nat) : Nat :=
  if c.rdf (Reg.SAP_FMT p) 1 0 = 2 then c.rdf (Reg.SAP_FMT p) 6 2 + 1 else 2
def Chip.sapSlotW (c : Chip) (p : Nat) : Nat := widthBits (c.rdf (Reg.SAP_FMT p) 9 8)
def Chip.sapDataW (c : Chip) (p : Nat) : Nat := widthBits (c.rdf (Reg.SAP_FMT p) 11 10)
def Chip.sapMaster (c : Chip) (p : Nat) : Bool := c.rdb (Reg.SAP_FMT p) 12
def Chip.sapAsync (c : Chip) (p : Nat) : Bool := c.rdb (Reg.SAP_FMT p) 18

/-- The limit of the bit clock in Hz (R329). -/
def bclkLimit (master : Bool) (rate : Nat) : Nat :=
  if !master then 50000000 else if rate % 2 = 1 then 49152000 else 45158400

/-- Whether EN is accepted (R331, R357). -/
def Chip.sapValid (c : Chip) (p : Nat) : Bool :=
  let f := c.rd (Reg.SAP_FMT p)
  let rate := c.rdf Reg.TICK_CFG 2 0
  fld f 1 0 != 3 && fld f 9 8 != 3 && fld f 11 10 != 3 && decide (fld f 11 10 ≤ fld f 9 8) &&
    !(fld f 1 0 == 2 && fld f 6 2 == 0) && decide (rate ≤ 5) &&
    decide (rateHz rate * c.sapSlots p * c.sapSlotW p ≤ bclkLimit (c.sapMaster p) rate) &&
    !(c.sapAsync p && (c.sapMaster p || feedEn (c.rd (Reg.SAP_QIN p)) || feedEn (c.rd (Reg.SAP_QOUT p))))

/-- BCLK of a port at its latched rate, in Hz (R329). -/
def Chip.sapBclk (c : Chip) (p : Nat) : Nat := rateHz (c.sapSt p).rate * c.sapSlots p * c.sapSlotW p

/-- A write of a mask (R336): its time and the value before it. -/
def Chip.sapMaskWrite (out : Bool) (p : Nat) (v : Word) (c : Chip) : Chip :=
  let k := if out then Reg.SAP_OUTMASK p else Reg.SAP_INMASK p
  let x := c.sapSt p
  let e := (c.now, c.rd k)
  (c.setSap p (if out then { x with outWr := x.outWr ++ [e] } else { x with inWr := x.inWr ++ [e] })).wr k v

/-- What a mask latches as: a write within the last two BCLK periods comes too late for this edge (R336). -/
def Chip.sapMaskNow (c : Chip) (p k : Nat) (wr : List (Word × Word)) : Word :=
  match wr.find? (fun e => decide ((c.now - e.1).toNat * c.sapBclk p < 2000000000)) with
  | some e => e.2
  | none => c.rd k

/-- The written masks latch into the active masks (R336); a newly enabled slot carries its first frame from there. -/
def Chip.sapMaskLatch (c : Chip) (p : Nat) : Chip :=
  let x := c.sapSt p
  let c1 := (c.wr (Reg.SAP_INMASK_ACT p) (c.sapMaskNow p (Reg.SAP_INMASK p) x.inWr)).wr (Reg.SAP_OUTMASK_ACT p)
    (c.sapMaskNow p (Reg.SAP_OUTMASK p) x.outWr)
  c1.setSap p { x with inWr := [], outWr := [] }

/-- Setting SAP CTRL.EN (R325, R331, R336). -/
def Chip.sapEnable (p : Nat) (c : Chip) : Chip :=
  if c.en (pgSAP p) then c
  else if !c.sapValid p then c.err (pgSAP p) 0x02 0
  else
    let c1 := c.setSap p { sapReset with rate := c.rdf Reg.TICK_CFG 2 0, trims := (c.sapSt p).trims }
    (c1.wrb (Reg.CTRL (pgSAP p)) 0 true).sapMaskLatch p

def execSapEnable (p : Fin 16) (s : State) : Host.Outcome State Fault Refusal := s.onChip (Chip.sapEnable p)

/-- Whether the latched rate is not the engine rate (R325). -/
def Chip.rateMismatch (c : Chip) (p : Nat) : Bool := (c.sapSt p).rate != c.rdf Reg.TICK_CFG 2 0

/-- The source and the sink of a slot (R247, R248). -/
def sapSource (p s : Nat) : Nat := 0x100 + 32 * p + s

/-- Every source of a port reads zero. -/
def Chip.sapSilent (c : Chip) (p : Nat) : Chip :=
  { c with patch := { c.patch with src := drop (fun k => 0x100 + 32 * p ≤ k && k < 0x120 + 32 * p) c.patch.src } }

/-- Clearing SAP CTRL.EN: the port stops, its sources read zero, no pair is muted (R342). -/
def Chip.sapDisable (p : Nat) (c : Chip) : Chip :=
  ((((c.wrb (Reg.CTRL (pgSAP p)) 0 false).wr (Reg.SAP_LINK p) 0).wr (Reg.SAP_NA_NOW p) 0).setSap p
    { sapReset with trims := (c.sapSt p).trims }).sapSilent p

/-- A write of FMT or of a queue register while EN = 1 is ignored (R331). -/
def Chip.sapLocked (c : Chip) (p k : Nat) (v : Word) : Chip :=
  if c.en (pgSAP p) then c.err (pgSAP p) 0x01 (word (k % 0x1000)) else c.wr k v

/-! Input frames. -/

/-- Whether an input slot delivers (R336): in the active mask, below the slot count. -/
def Chip.inSlot (c : Chip) (p s : Nat) : Bool := decide (s < c.sapSlots p) && c.rdb (Reg.SAP_INMASK_ACT p) s

/-- The word of slot `s` of a frame (R328, R341): its first DATAW bits, bits that did not arrive as zero. -/
def Chip.slotWord (c : Chip) (p : Nat) (f : SapFrame) (s : Nat) : Word :=
  let w := f.words[s]?.getD 0
  let bits := min (c.sapDataW p) (if c.sapMaster p then 32 else f.bclks - s * c.sapSlotW p)
  w &&& ~~~(word (2 ^ (32 - min 32 bits) - 1))

/-- The words of a port's slots reach the Patch Matrix, the Direct Mixer and the input feed (R326, R337); those of an
asynchronous port reach the ASRC alone (R330). `first`: the frame opens a block. -/
def Dev.sapDeliver (p : Nat) (first : Bool) (ws : List Word) (d : Dev) : Dev :=
  let c := d.chip
  let dead := c.rateMismatch p
  let val (s : Nat) : Word := if c.inSlot p s && !dead then ws[s]?.getD 0 else 0
  let c1 := forUpTo (c.sapSlots p) (fun s c =>
    if c.sapAsync p then c.setSource (sapSource p s) 0
    else (c.setSource (sapSource p s) (val s)).dmixPortWord p s (val s)) c
  let sel := c.rd (Reg.SAP_QIN_SEL p)
  let fed := (indices 32 (fun s => bit sel s)).map val
  ({ d with chip := c1 } : Dev).inputFeed 4 p (c.rd (Reg.SAP_QIN p)) first (c.rd (Reg.SAP_BLK_TIME p)) fed

/-- A preamble of IEC 61937 in slot pair `k` mutes it (R342). -/
def Chip.naDetect (p : Nat) (ws : List Word) (k : Nat) (c : Chip) : Chip :=
  if c.rdb (Reg.SAP_FMT p) 19 && fld (ws[2 * k]?.getD 0) 31 16 == 0xF872 &&
      fld (ws[2 * k + 1]?.getD 0) 31 16 == 0x4E1F && decide (2 * k + 1 < c.sapSlots p) then
    ((c.wrb (Reg.SAP_NA_NOW p) k true).wrb (Reg.SAP_NA_SEEN p) k true).irq (pgSAP p) 3
  else c

/-- A slip (R334). -/
def Chip.sapSlip (c : Chip) (p : Nat) : Chip := (c.count (Reg.SAP_SLIPS p)).irq (pgSAP p) 2

/-- The frame sync of the frame that a command brings: the masks latch, and the Direct Mixer takes its changes (R265, R336).
A frame sent and a frame received between two strobes are one frame of the port, which has one sync (log entry 131). -/
def Chip.sapSync (sent : Bool) (p : Nat) (c : Chip) : Chip :=
  let x := c.sapSt p
  if x.edge = (if sent then .received else .sent) then c.setSap p { x with edge := .none }
  else
    let c1 := (c.sapMaskLatch p).dmixFrameSync p
    c1.setSap p { c1.sapSt p with edge := if sent then .sent else .received }

/-- The short time of the first frame of a block is latched (R335). -/
def Chip.blkTime (c : Chip) (first : Bool) (k : Nat) (t : Word) : Chip :=
  if c.tickRuns ∧ first then c.wr k t else c

/-- SAPp_BCLK_MEAS (R356): an asynchronous port has a rate of its own, which its frames do not tell (a free value). -/
def Chip.bclkMeas (p : Nat) (f : SapFrame) (c : Chip) : Chip :=
  if c.sapAsync p then (c.wr (Reg.SAP_BCLK_MEAS p) ((c.freeNow 16).setWidth 32)).freeNext
  else c.wr (Reg.SAP_BCLK_MEAS p) (word (f.bclks * rateHz (c.sapSt p).rate / 1000 % 2 ^ 16))

/-- A frame's words are delivered, in the order of the strobes: where the frame was assigned to the next strobe, that left
without a frame presents the last words again (R334). -/
def Dev.sapPresent (p : Nat) (f : SapFrame) (old ws : List Word) (d : Dev) : Dev :=
  let x := d.chip.sapSt p
  let first := d.chip.firstFrame
  let new (d : Dev) : Dev :=
    ((d.chipOp (fun c => c.blkTime first (Reg.SAP_BLK_TIME p) f.start)).sapDeliver p first ws).chipOp (fun c =>
      c.setSap p { c.sapSt p with
        inp := ws.zipIdx.map (fun e => (e.2, e.1)), inFin := min 32 (x.inFin + 1), start := f.start })
  match f.slip with
  | .none => new d
  | .repeated =>
    let before := d.chip.firstBefore
    new (((d.chipOp (fun c => (c.sapSlip p).blkTime before (Reg.SAP_BLK_TIME p) x.start)).sapDeliver p before old))
  | .dropped => d.chipOp (fun c => c.sapSlip p)

/-- A received frame at its capture strobe (R333 to R337, R341, R342); a port stopped for IDLE_REQ takes none
(R355). A master's d_in is 0. -/
def Dev.sapFrameIn (p : Nat) (f : SapFrame) (d : Dev) : Dev :=
  let c0 := d.chip
  if !c0.en (pgSAP p) || c0.idleAck (pgSAP p) then d
  else
    let c1 := c0.sapSync false p
    let x := c1.sapSt p
    if x.lost || x.back then { d with chip := c1 }
    else
      let c2 := c1.wr (Reg.SAP_LINK p) (setBit (setBit (c1.rd (Reg.SAP_LINK p)) 0 true) 1 true)
      let bad := !c2.sapMaster p && f.bclks != c2.sapSlots p * c2.sapSlotW p
      let c3 := if bad then (c2.count (Reg.SAP_FRAMEERRS p)).irq (pgSAP p) 5 else c2
      let raw := (List.range (c3.sapSlots p)).map (c3.slotWord p f)
      let c4 := forUpTo 16 (Chip.naDetect p raw) c3
      let quiet := raw.zipIdx.map (fun e => if c4.rdb (Reg.SAP_NA_NOW p) (e.2 / 2) then 0 else e.1)
      let ws := quiet.map (fun w => fadeIn w x.inFin)
      let c5 := (c4.wrf (Reg.SAP_DLY p) 15 0 (if c4.sapMaster p then 0 else f.dIn.toNat)).bclkMeas p f
      let old := (List.range (c5.sapSlots p)).map (fun s => look 0 x.inp s)
      ({ d with chip := c5 } : Dev).sapPresent p f old ws

/-- A slave port loses its clock (R340): DOUT is held at zero, or at high impedance with TRI. -/
def Chip.sapClockLoss (p : Nat) (c : Chip) : Chip :=
  let x := c.sapSt p
  if c.en (pgSAP p) && !c.sapMaster p && !x.lost then
    (((c.wrb (Reg.SAP_LINK p) 0 false).wrb (Reg.SAP_LINK p) 1 false).irq (pgSAP p) 0).setSap p
      { x with lost := true, back := false, inK := 0, due := [], edge := .none
               dout := if c.rdb (Reg.SAP_FMT p) 17 then [] else x.dout.map (fun e => (e.1, 0)) }
  else c

def execSapClockLoss (p : Fin 16) (s : State) : Host.Outcome State Fault Refusal := s.onChip (Chip.sapClockLoss p)

/-- Sixteen good frames after a loss (R341): CLKBACK; the new assignment is made at the next audio boundary. -/
def Chip.sapClockBack (p : Nat) (c : Chip) : Chip :=
  let x := c.sapSt p
  if c.en (pgSAP p) && x.lost then
    ((c.wrb (Reg.SAP_LINK p) 0 true).irq (pgSAP p) 1).setSap p { x with lost := false, back := true }
  else c

def execSapClockRecovery (p : Fin 16) (s : State) : Host.Outcome State Fault Refusal :=
  s.onChip (Chip.sapClockBack p)

/-- At an audio boundary a recovered port is assigned afresh and both directions fade in (R341). -/
def Chip.sapAtAudio (p : Nat) (c : Chip) : Chip :=
  let x := c.sapSt p
  if x.back then
    (c.wrb (Reg.SAP_LINK p) 1 true).setSap p { x with back := false, inFin := 0, outFin := 0 }
  else c

/-- At each strobe a port without a clock delivers the fade of its last words, then zeros, to every consumer
(R340). -/
def Dev.sapLostStrobe (p : Nat) (d : Dev) : Dev :=
  let x := d.chip.sapSt p
  if d.chip.en (pgSAP p) && (x.lost || x.back) then
    let ws := (List.range (d.chip.sapSlots p)).map (fun s => fadeOut (look 0 x.inp s) x.inK)
    (d.sapDeliver p d.chip.firstFrame ws).chipOp (fun c => c.setSap p { c.sapSt p with inK := min 32 (x.inK + 1) })
  else d

/-- The mute of a slot pair ends (R342). -/
def Chip.sapNaEnd (p k : Nat) (c : Chip) : Chip := c.wrb (Reg.SAP_NA_NOW p) k false

/-- SAPp_LINK as it reads (R356). -/
def Chip.sapLinkView (c : Chip) (p : Nat) : Word :=
  let x := c.sapSt p
  let fading := ((x.lost || x.back) && x.inK < 32) || x.inFin < 32 || x.outFin < 32 || (x.feed.mode == 2 && x.feed.k < 32) || x.feed.fin < 32
  setBit (setBit (c.rd (Reg.SAP_LINK p)) 2 fading) 3 (c.en (pgSAP p) && c.rateMismatch p)

/-! Trims (R332). -/

/-- A trim's write is a new target (R267). -/
def Chip.trimWrite (p s : Nat) (v : Word) (c : Chip) : Chip :=
  let x := c.sapSt p
  (c.wr (Reg.SAP_TRIM p s) v).setSap p { x with trims := put x.trims s ((look trimReset x.trims s).retarget v c.now) }

/-- A word under a trim: Q4.28, rounded half up and clamped (R332). -/
def trimmed (w gain : Word) : Word := satWord (roundHalfUp (w.toInt * gain.toInt) 28)

/-- The timeout of a pending trim (R267). -/
def Chip.trimTimeout (p s : Nat) (c : Chip) : Chip :=
  let x := c.sapSt p
  c.setSap p { x with trims := put x.trims s (look trimReset x.trims s).apply }

/-- A reset that reaches page SAPp (R354). -/
def Chip.resetSap (p : Nat) (c : Chip) : Chip := ((c.resetPage (pgSAP p)).setSap p sapReset).sapSilent p

end Sys2Proof.Machine
end

