-- ==== Sys2Proof/Machine/Aes.lean ====
section
/-! DEFINITION. The AES3 receivers (R343 to R346), the status of the transmitters (R347) and the ASRC (R348, R349,
R360). The words the transmitters send stand in Machine/Output.lean. -/

namespace Sys2Proof.Machine

/-- Receiver and transmitter `n` beside their registers. -/
def Chip.aesSt (c : Chip) (n : Nat) : AesSt := look aesReset c.aes n
def Chip.setAes (c : Chip) (n : Nat) (x : AesSt) : Chip := { c with aes := put c.aes n x }

/-- Whether the receiver or the transmitter works (R358). -/
def Chip.aesRx (c : Chip) (n : Nat) : Bool := c.en (pgAES n) && c.rdb (Reg.AES_CFG n) 0
def Chip.aesTx (c : Chip) (n : Nat) : Bool := c.en (pgAES n) && c.rdb (Reg.AES_CFG n) 1

/-- LOCK, and the measured rate within 0.1 % of the engine rate (R343). -/
def Chip.aesLocked (c : Chip) (n : Nat) : Bool := c.rdb (Reg.AES_RXSTAT n) 0
def Chip.aesSync (c : Chip) (n : Nat) : Bool :=
  let r := c.rdf (Reg.AES_RXSTAT n) 25 8
  c.aesLocked n && decide (r * 1000 ≤ c.fs * 1001 ∧ c.fs * 999 ≤ r * 1000)

/-- Setting AES CTRL.EN (R358): refused when a transmitter or a feed has no engine rate to latch. -/
def Chip.aesEnable (n : Nat) (c : Chip) : Chip :=
  if c.en (pgAES n) then c
  else
    let needs := c.rdb (Reg.AES_CFG n) 1 || feedEn (c.rd (Reg.AES_RXQ n)) || feedEn (c.rd (Reg.AES_TXQ n))
    if needs && decide (5 < c.rdf Reg.TICK_CFG 2 0) then c.err (pgAES n) 0x02 0
    else (c.wrb (Reg.CTRL (pgAES n)) 0 true).setAes n { aesReset with
      trims := (c.aesSt n).trims, active := (c.aesSt n).active, commit := (c.aesSt n).commit }

/-- The sources of receiver `n` read zero. -/
def Chip.aesSilent (c : Chip) (n : Nat) : Chip := (c.setSource (0x010 + 2 * n) 0).setSource (0x011 + 2 * n) 0

/-- Clearing AES CTRL.EN. -/
def Chip.aesDisable (n : Nat) (c : Chip) : Chip :=
  (((c.wrb (Reg.CTRL (pgAES n)) 0 false).wr (Reg.AES_RXSTAT n) 0).setAes n { aesReset with
    trims := (c.aesSt n).trims, active := (c.aesSt n).active, commit := (c.aesSt n).commit }).aesSilent n

/-- A write of AESn_CFG (R358): RXEN and TXEN are locked while EN = 1. -/
def Chip.aesCfgWrite (c : Chip) (n : Nat) (v : Word) : Chip :=
  let old := c.rd (Reg.AES_CFG n)
  if c.en (pgAES n) then
    let c1 := c.wr (Reg.AES_CFG n) ((v &&& 0x3C) ||| (old &&& 3))
    if fld v 1 0 = fld old 1 0 then c1 else c1.err (pgAES n) 0x01 0
  else c.wr (Reg.AES_CFG n) (v &&& 0x3F)

/-- A write of a queue register while EN = 1 is ignored (R358). -/
def Chip.aesLockedWrite (c : Chip) (n k : Nat) (v : Word) : Chip :=
  if c.en (pgAES n) then c.err (pgAES n) 0x01 0 else c.wr k v

/-- Both words of a frame that starts at `start` reach the sources and the input feed (R335, R337). -/
def Dev.aesPlay (n : Nat) (first : Bool) (start a b : Word) (d : Dev) : Dev :=
  let c := (d.chip.setSource (0x010 + 2 * n) a).setSource (0x011 + 2 * n) b
  let x := c.aesSt n
  let blk := if first then start else x.blk
  ({ d with chip := c.setAes n { x with blk := blk } } : Dev).inputFeed 5 n (c.rd (Reg.AES_RXQ n)) first blk [a, b]

/-- The same while the sources are live (R343); else they read zero. -/
def Dev.aesDeliver (n : Nat) (first : Bool) (start a b : Word) (d : Dev) : Dev :=
  if d.chip.aesSync n then d.aesPlay n first start a b else d.chipOp (fun c => c.aesSilent n)

/-- The audio of a subframe in a Q1.31 word (R344). -/
def Subframe.word (s : Subframe) : Word := Machine.word (s.audio.toNat * 256)

/-- A subframe as it is delivered (R344): the previous sample on a parity error, zero for V = 1 under VMUTE. -/
def Chip.subframe (c : Chip) (n ch : Nat) (s : Subframe) : Word :=
  if s.parityErr then look 0 (c.aesSt n).prev ch
  else if s.v && c.rdb (Reg.AES_CFG n) 2 then 0
  else Subframe.word s

/-- The counts of a subframe (R344). -/
def Chip.subframeCounts (c : Chip) (n : Nat) (s : Subframe) : Chip :=
  let c1 := if s.parityErr then (c.count (Reg.AES_PARERRS n)).irq (pgAES n) 4 else c
  if s.v then c1.count (Reg.AES_VCOUNT n) else c1

/-- One more bit of a block, which begins at a Z preamble and has 192 (R345). -/
def collect (fresh : Bool) (l : List Bool) (b : Bool) : List Bool :=
  if fresh then [b] else if l.isEmpty ∨ 192 ≤ l.length then l else l ++ [b]

/-- Whether receiver `n` is muted as non-audio (R346): by a written status under NAEN, or by a preamble. -/
def Chip.aesMuted (c : Chip) (n : Nat) : Bool :=
  let x := c.aesSt n
  (x.naCs && c.rdb (Reg.AES_CFG n) 3) || x.naPre

/-- A frame of receiver `n` (R343 to R346). -/
def Dev.aesFrame (n : Nat) (f : AesFrame) (d : Dev) : Dev :=
  let c := d.chip
  if !c.aesRx n then d
  else
    let c1 := c.countBy (Reg.AES_BPERRS n) f.biphase
    if !f.valid || !c1.aesLocked n || (c1.aesSt n).back then { d with chip := c1 }
    else
      let x := c1.aesSt n
      let c2 := (c1.subframeCounts n f.a).subframeCounts n f.b
      let pre := c2.rdb (Reg.AES_CFG n) 4 && fld (Subframe.word f.a) 31 16 == 0xF872 &&
        fld (Subframe.word f.b) 31 16 == 0x4E1F
      let c3 := c2.irqIf pre (pgAES n) 5
      let y : AesSt := { x with
        cs := put (put x.cs 0 (collect f.z (look [] x.cs 0) f.a.cs)) 1 (collect f.z (look [] x.cs 1) f.b.cs)
        user := put (put x.user 0 (collect f.z (look [] x.user 0) f.a.user)) 1
          (collect f.z (look [] x.user 1) f.b.user)
        naPre := x.naPre || pre }
      let sa := c3.subframe n 0 f.a
      let sb := c3.subframe n 1 f.b
      let c4 := (c3.wr (Reg.AES_DLY n) (word f.dIn.toNat)).setAes n { y with prev := [(0, sa), (1, sb)] }
      let mute (w : Word) : Word := if c4.aesMuted n then 0 else fadeIn w x.inFin
      let keep (c : Chip) : Chip := c.setAes n { c.aesSt n with
        inp := [(0, mute sa), (1, mute sb)], inFin := min 32 (x.inFin + 1), start := f.start }
      let slip (c : Chip) : Chip := (c.count (Reg.AES_SLIPS n)).irq (pgAES n) 6
      let new (d : Dev) : Dev := (d.chipOp keep).aesDeliver n d.chip.firstFrame f.start (mute sa) (mute sb)
      match f.slip with
      | .none => new { d with chip := c4 }
      | .repeated =>
        new (({ d with chip := slip c4 } : Dev).aesDeliver n c4.firstBefore x.start (look 0 x.inp 0) (look 0 x.inp 1))
      | .dropped => { d with chip := slip c4 }

def execAesFrameReceived (n : Fin 4) (f : AesFrame) (s : State) : Host.Outcome State Fault Refusal :=
  s.onDev (Dev.aesFrame n f)

/-- LOCK is declared (R343); a regained LOCK is assigned afresh at the next audio boundary (R341). -/
def Chip.aesLock (n : Nat) (c : Chip) : Chip :=
  if c.aesRx n && !c.aesLocked n then
    let x := c.aesSt n
    ((c.wrb (Reg.AES_RXSTAT n) 0 true).irq (pgAES n) 1).setAes n { x with back := x.fading }
  else c

def execAesLock (n : Fin 4) (s : State) : Host.Outcome State Fault Refusal := s.onChip (Chip.aesLock n)

/-- LOCK is lost (R343): the inputs fade out (R340). -/
def Chip.aesLockLoss (n : Nat) (c : Chip) : Chip :=
  if c.aesLocked n then
    let x := c.aesSt n
    ((c.wrb (Reg.AES_RXSTAT n) 0 false).irq (pgAES n) 0).setAes n
      { x with fading := true, back := false, inK := 0, cs := [], user := [], live := c.aesSync n }
  else c

def execAesLockLoss (n : Fin 4) (s : State) : Host.Outcome State Fault Refusal := s.onChip (Chip.aesLockLoss n)

/-- At an audio boundary a receiver that regained LOCK is assigned afresh and fades in (R341). -/
def Chip.aesAtAudio (n : Nat) (c : Chip) : Chip :=
  let x := c.aesSt n
  if x.back then c.setAes n { x with back := false, fading := false, inFin := 0 } else c

/-- At each strobe a receiver without LOCK delivers the fade of its last words (R340); one whose sources were not live plays
nothing (R343). -/
def Dev.aesLostStrobe (n : Nat) (d : Dev) : Dev :=
  let x := d.chip.aesSt n
  if d.chip.aesRx n && x.fading then
    let d1 := d.chipOp (fun c => c.setAes n { x with inK := min 32 (x.inK + 1) })
    if x.live then d1.aesPlay n d.chip.firstFrame d.chip.now (fadeOut (look 0 x.inp 0) x.inK) (fadeOut (look 0 x.inp 1) x.inK)
    else d1.chipOp (fun c => c.aesSilent n)
  else d

/-! Channel status. -/

/-- Byte `b` of a block's bits (R345). -/
def bitsByte (l : List Bool) (b : Nat) : Nat :=
  (List.range 8).foldl (fun a i => if (l[8 * b + i]?).getD false then a + 2 ^ i else a) 0

/-- Word `w` of a block's bits (R345). -/
def bitsWord (l : List Bool) (w : Nat) : Word :=
  word ((List.range 4).foldl (fun a i => a + bitsByte l (4 * w + i) * 256 ^ i) 0)

/-- One bit into the CRCC of AES3, x^8 + x^4 + x^3 + x^2 + 1, the bits in their order of transmission. -/
def crccBit (r : Nat) (b : Bool) : Nat :=
  if (r.testBit 0) != b then (r / 2) ^^^ 0xB8 else r / 2

/-- The CRCC over bytes 0 to 22, from all ones (PRESUMED from AES3; log entry 12). -/
def crcc (l : List Bool) : Nat := (List.range 184).foldl (fun r i => crccBit r ((l[i]?).getD false)) 0xFF

/-- The status of channel `ch` of a block is written, unless its CRCC fails (R345). The second result says whether it
was written. -/
def Chip.statusWrite (c : Chip) (n ch : Nat) (l : List Bool) : Chip × Bool :=
  let key (w : Nat) : Nat := if ch = 0 then Reg.AES_RXCS_A n w else Reg.AES_RXCS_B n w
  if (l[0]?).getD false && bitsByte l 23 != crcc l then
    ((c.count (Reg.AES_CRCERRS n)).irq (pgAES n) 3, false)
  else
    let change := (List.range 6).any (fun w => c.rd (key w) != bitsWord l w)
    ((forUpTo 6 (fun w c => c.wr (key w) (bitsWord l w)) c).irqIf change (pgAES n) 2, true)

/-- The user bits of channel `ch` of a block are written (R345). -/
def Chip.userWrite (c : Chip) (n ch : Nat) (l : List Bool) : Chip :=
  forUpTo 6 (fun w c => c.wr (if ch = 0 then Reg.AES_RXU_A n w else Reg.AES_RXU_B n w) (bitsWord l w)) c

/-- The end of a block of 192 frames (R343, R345, R346). Bits of a block that did not begin at a Z preamble, or that is not
whole, are not written. -/
def Chip.aesStatus (n rate : Nat) (c : Chip) : Chip :=
  if !c.aesRx n then c
  else
    let x := c.aesSt n
    let la := look [] x.cs 0
    let lb := look [] x.cs 1
    let c1 := c.wrf (Reg.AES_RXSTAT n) 25 8 rate
    if la.length ≠ 192 then c1.setAes n { x with cs := [], user := [] }
    else
    let (c2, wa) := c1.statusWrite n 0 la
    let (c3, wb) := c2.statusWrite n 1 lb
    let c4 := (c3.userWrite n 0 (look [] x.user 0)).userWrite n 1 (look [] x.user 1)
    let non (l : List Bool) : Bool := (l[1]?).getD false
    let na := if !c4.rdb (Reg.AES_CFG n) 3 then false
      else if wa || wb then (wa && non la) || (wb && non lb) else x.naCs
    let c5 := if wa then c4.wrb (Reg.AES_RXSTAT n) 2 ((la[0]?).getD false) else c4
    (c5.setAes n { x with naCs := na, cs := [], user := [] }).irqIf (na && !x.naCs) (pgAES n) 5

def execAesStatusBlock (n : Fin 4) (rate : BitVec 18) (s : State) : Host.Outcome State Fault Refusal :=
  s.onChip (Chip.aesStatus n rate.toNat)

/-- AESn_RXSTAT as it reads (R359). -/
def Chip.aesStatView (c : Chip) (n : Nat) : Word :=
  setBit (setBit (c.rd (Reg.AES_RXSTAT n)) 1 (c.aesSync n)) 3 (c.aesMuted n)

/-- The mute of a slot pair or of a receiver ends after 8,192 frames without a preamble (R342, R346). -/
def Chip.naTimeout (u : NaUnit) (c : Chip) : Chip :=
  match u with
  | .sap p k => c.sapNaEnd p k
  | .aes n => c.setAes n { c.aesSt n with naPre := false }

def execNonaudioTimeout (u : NaUnit) (s : State) : Host.Outcome State Fault Refusal := s.onChip (Chip.naTimeout u)

/-! Transmitter status. -/

/-- A write of AESn_TXCS_CTL.COMMIT (R347). -/
def Chip.txcsCommit (n : Nat) (v : Word) (c : Chip) : Chip :=
  if bit v 0 then c.setAes n { c.aesSt n with commit := true } else c

def execTxcsCommit (n : Fin 4) (v : Word) (s : State) : Host.Outcome State Fault Refusal :=
  s.onChip (Chip.txcsCommit n v)

/-- The staged status and user registers, in the order of R359. -/
def Chip.txStaged (c : Chip) (n : Nat) : Tbl Word := (List.range 24).map (fun i => (i, c.rd (Reg.AES_TXCS_A n 0 + 4 * i)))

/-- At a Z preamble, which opens frame 0 of a block, a requested commit copies the staging registers (R347). -/
def Chip.txcsCopy (n : Nat) (c : Chip) : Chip :=
  let x := c.aesSt n
  if x.commit && c.aesTx n && x.frame == 0 then (c.setAes n { x with commit := false, active := c.txStaged n }).irq (pgAES n) 8 else c

def execTxcsCopy (n : Fin 4) (s : State) : Host.Outcome State Fault Refusal := s.onChip (Chip.txcsCopy n)

/-- A trim of transmitter `n` (R332, R347). -/
def Chip.aesTrimWrite (n ch : Nat) (v : Word) (c : Chip) : Chip :=
  let x := c.aesSt n
  (c.wr (if ch = 0 then Reg.AES_TRIM0 n else Reg.AES_TRIM1 n) v).setAes n
    { x with trims := put x.trims ch ((look trimReset x.trims ch).retarget v c.now) }

/-- The timeout of a pending trim (R267). -/
def Chip.aesTrimTimeout (n ch : Nat) (c : Chip) : Chip :=
  let x := c.aesSt n
  c.setAes n { x with trims := put x.trims ch (look trimReset x.trims ch).apply }

/-- A reset that reaches page AESn (R354). -/
def Chip.resetAes (n : Nat) (c : Chip) : Chip := ((c.resetPage (pgAES n)).setAes n aesReset).aesSilent n

/-! ASRC. -/

/-- Group `g`. -/
def Chip.asrcSt (c : Chip) (g : Nat) : AsrcSt := look asrcReset c.asrc g
def Chip.setAsrc (c : Chip) (g : Nat) (x : AsrcSt) : Chip := { c with asrc := put c.asrc g x }

/-- Whether a group converts (R360). -/
def Chip.asrcOn (c : Chip) (g : Nat) : Bool := c.en pgASRC && c.rdb (Reg.ASRC_G_CFG g) 0

/-- A write of ASRC_Gg_CFG (R360). -/
def Chip.asrcCfgWrite (c : Chip) (g : Nat) (v : Word) : Chip :=
  let kind := fld v 2 1
  if c.rdb (Reg.ASRC_G_CFG g) 0 then c.err pgASRC 0x01 0
  else if bit v 0 && (decide (2 ≤ kind) || (kind == 0 && decide (4 ≤ fld v 7 4))) then
    (c.wr (Reg.ASRC_G_CFG g) (setBit (v &&& 0x3_1FF7) 0 false)).err pgASRC 0x02 0
  else c.wr (Reg.ASRC_G_CFG g) (v &&& 0x3_1FF7)

/-- A write of ASRC_Gg_Q (R360). -/
def Chip.asrcQWrite (c : Chip) (g : Nat) (v : Word) : Chip :=
  if c.rdb (Reg.ASRC_G_CFG g) 0 then c.err pgASRC 0x01 0 else c.wr (Reg.ASRC_G_Q g) (v &&& 0x3FF)

/-- Whether a ratio in Q8.24 lies between 1/8 and 8 (R349). -/
def ratioInRange (r : Word) : Bool := 2 ^ 21 ≤ r.toNat && r.toNat ≤ 2 ^ 27

/-- A group loses LOCK: its input is gone and it fades out, or its ratio is out of range, in which its outputs deliver zero
(R349). -/
def Chip.asrcUnlock (c : Chip) (g : Nat) (ratio : Word) : Chip :=
  let ok := ratioInRange ratio
  (((c.wr (Reg.ASRC_G_RATIO g) ratio).wrf (Reg.ASRC_G_STAT g) 1 0 (if ok then 0 else 2)).irq pgASRC (8 + g)).setAsrc g
    { c.asrcSt g with k := if ok then 0 else 32 }

/-- A group locks to a stable input (R349); a ratio out of range gives no LOCK, and ends one. -/
def Chip.asrcLock (g : Nat) (ratio : Word) (c : Chip) : Chip :=
  if !c.asrcOn g then c
  else
    let locked := c.rdb (Reg.ASRC_G_STAT g) 0
    if ratioInRange ratio then
      ((((c.wr (Reg.ASRC_G_RATIO g) ratio).wrf (Reg.ASRC_G_STAT g) 1 0 1).irqIf (!locked) pgASRC g)).setAsrc g
        (if locked then c.asrcSt g else { c.asrcSt g with fin := 0, k := 32 })
    else if locked then c.asrcUnlock g ratio
    else (c.wr (Reg.ASRC_G_RATIO g) ratio).wrb (Reg.ASRC_G_STAT g) 1 true

def execAsrcLock (g : Fin 8) (ratio : Word) (s : State) : Host.Outcome State Fault Refusal :=
  s.onChip (Chip.asrcLock g ratio)

/-- A group loses its input, or its ratio leaves the range (R349). -/
def Chip.asrcLockLoss (g : Nat) (ratio : Word) (c : Chip) : Chip :=
  if c.rdb (Reg.ASRC_G_STAT g) 0 then c.asrcUnlock g ratio else c

def execAsrcLockLoss (g : Fin 8) (ratio : Word) (s : State) : Host.Outcome State Fault Refusal :=
  s.onChip (Chip.asrcLockLoss g ratio)

/-- How many channels of a group have an input (R348). -/
def Chip.asrcInputs (c : Chip) (g : Nat) : Nat :=
  let v := c.rd (Reg.ASRC_G_CFG g)
  if fld v 2 1 = 0 then 2 else min 8 (c.sapSlots (fld v 7 4) - fld v 12 8)

/-- Whether the input of channel `k` of a group is zero: a receiver or a slot pair muted as non-audio (R342, R346), a slot
outside the mask (R336). -/
def Chip.asrcZero (c : Chip) (g k : Nat) : Bool :=
  let v := c.rd (Reg.ASRC_G_CFG g)
  let u := fld v 7 4
  let s := fld v 12 8 + k
  if fld v 2 1 = 0 then c.aesMuted u else c.rdb (Reg.SAP_NA_NOW u) (s / 2) || !c.inSlot u s

/-- For how many strobes an input of zero is still heard: twice the delay of the conversion (R349; DESIGN CHOICE, log entry
131). -/
def Chip.asrcTail (c : Chip) (g : Nat) : Nat := 2 * (48 * 2 ^ 24 / max 1 (c.rd (Reg.ASRC_G_RATIO g)).toNat + 3)

/-- The output word of channel `k` of a group at a strobe. The conversion is given by its figures alone: a converted
word is a free value (R349). -/
def Chip.asrcWord (c : Chip) (g k : Nat) : Word :=
  let x := c.asrcSt g
  if !c.asrcOn g then 0
  else if c.rdb (Reg.ASRC_G_STAT g) 0 then
    if k < c.asrcInputs g && decide (look 0 x.quiet k ≤ c.asrcTail g) then fadeIn (Config.freeBits 32 (c.freeCtr + k)) x.fin else 0
  else fadeOut (look 0 x.last k) x.k

/-- A group at a strobe (R337, R348, R349, R360): its frames start at the strobes themselves (log entry 131). -/
def Dev.asrcStrobe (g : Nat) (d : Dev) : Dev :=
  let c := d.chip
  if !c.asrcOn g then d
  else
    let ws := (List.range 8).map (c.asrcWord g)
    let x := c.asrcSt g
    let locked := c.rdb (Reg.ASRC_G_STAT g) 0
    let c1 := ws.zipIdx.foldl (fun c e => c.setSource (0x040 + 8 * g + e.2) e.1) c
    let c2 := { c1.setAsrc g
      { fin := min 32 (x.fin + 1), k := if locked then 32 else min 32 (x.k + 1)
        last := if locked then ws.zipIdx.map (fun e => (e.2, e.1)) else x.last
        quiet := (List.range 8).map (fun k => (k, if c.asrcZero g k then look 0 x.quiet k + 1 else 0)) }
      with freeCtr := c.freeCtr + 8 }
    let reg := (c.rd (Reg.ASRC_G_CFG g) &&& 0x3_0000) ||| (c.rd (Reg.ASRC_G_Q g) &&& 0x3FF)
    ({ d with chip := c2 } : Dev).inputFeed 5 (0x10 + g) reg c.firstFrame (c.rd Reg.TICK_START_SHORT) ws

/-- CTRL.EN of the ASRC (R360): cleared, every group stops, and LOCK with it. -/
def Chip.asrcEnable (on : Bool) (c : Chip) : Chip :=
  let c1 := c.wrb (Reg.CTRL pgASRC) 0 on
  if on then c1
  else
    let c2 := forUpTo 8 (fun g c =>
      (c.irqIf (c.rdb (Reg.ASRC_G_STAT g) 0) pgASRC (8 + g)).wr (Reg.ASRC_G_STAT g) 0) c1
    { c2 with asrc := [], patch := { c2.patch with src := drop (fun k => 0x040 ≤ k && k < 0x080) c2.patch.src } }

/-- ASRC_Gg_STAT as it reads (R360). -/
def Chip.asrcStatView (c : Chip) (g : Nat) : Word :=
  let x := c.asrcSt g
  setBit (c.rd (Reg.ASRC_G_STAT g)) 2 (x.fin < 32 || x.k < 32)

/-- A reset that reaches page ASRC (R354). -/
def Chip.resetAsrc (c : Chip) : Chip :=
  { c.resetPage pgASRC with
    asrc := []
    patch := { c.patch with src := drop (fun k => 0x040 ≤ k && k < 0x080) c.patch.src } }

end Sys2Proof.Machine
end

