-- ==== Sys2Proof/Machine/Jack.lean ====
section
/-! DEFINITION. Jack Sense (R350 to R353). -/

namespace Sys2Proof.Machine

/-- Jack `j` beside its registers. -/
def Chip.jackSt (c : Chip) (j : Nat) : JackChan := look jackChanReset c.jack.jacks j
def Chip.setJack (c : Chip) (j : Nat) (x : JackChan) : Chip :=
  { c with jack := { c.jack with jacks := put c.jack.jacks j x } }

/-- Whether jack `j` is enabled (R361, R362). -/
def Chip.jackOn (c : Chip) (j : Nat) : Bool := c.en pgJACK && c.rdb Reg.JACK_CFG (16 + j)

/-- Whether a plug is in jack `j`. -/
def Chip.jackIn (c : Chip) (j : Nat) : Bool := c.rdb (Reg.JACK_STAT j) 0

/-- An event enters the FIFO (R353): type, class or button, time; a full FIFO drops it. -/
def Chip.jackEvent (c : Chip) (j type code : Nat) (t : Word) : Chip :=
  if c.jack.evts.length < 16 then
    let e : JackEvent := { info := word (code + type * 16 + j * 256), time := t }
    { c with jack := { c.jack with evts := c.jack.evts ++ [e] } }.irq pgJACK type
  else { c with jack := { c.jack with ovf := true } }.irq pgJACK 5

/-- The classification of jack `j` begins (R351). -/
def Chip.jackClassify (c : Chip) (j : Nat) : Chip :=
  c.setJack j { c.jackSt j with rounds := [], sets := 0, busy := true }

/-- The pressed button of jack `j`, if any (R352). -/
def Chip.jackPressed (c : Chip) (j : Nat) : Option Nat :=
  (indices 4 (fun k => c.rdb (Reg.JACK_STAT j) (4 + k))).head?

/-- A pressed button reports its release (R352). -/
def Chip.jackReleaseBtn (c : Chip) (j : Nat) (t : Word) : Chip :=
  match c.jackPressed j with
  | some k => (c.wrf (Reg.JACK_STAT j) 7 4 0).jackEvent j 4 k t
  | none => c

/-- INS_DB and BTN_DB in ms (R351, R352). -/
def Chip.insDb (c : Chip) : Nat := max 1 (c.rdf Reg.JACK_CFG 7 0)
def Chip.btnDb (c : Chip) : Nat := clampNat 5 80 (c.rdf Reg.JACK_CFG 15 8)

/-- A level of DET that has been stable for INS_DB ms (R350, R351); the event carries the time of its first edge. DET back at
the level of a plug in the jack, after a change, has restarted the debounce of a classification, which begins again without
a second insertion (DESIGN CHOICE, log entry 131). -/
def Chip.jackDebounce (j : Nat) (det : Bool) (c : Chip) : Chip :=
  let inserted := det == c.rdb Reg.JACK_CFG 20
  let t := c.now - word (c.insDb * 1000000)
  if !c.jackOn j then c
  else if inserted == c.jackIn j then (if inserted && (c.jackSt j).busy then c.jackClassify j else c)
  else if inserted then ((c.wr (Reg.JACK_STAT j) 1).jackEvent j 0 0 t).jackClassify j
  else
    let c1 := c.jackReleaseBtn j t
    ((c1.wr (Reg.JACK_STAT j) 0).jackEvent j 1 0 t).setJack j jackChanReset

def execJackDebounce (j : Fin 2) (det : Bool) (s : State) : Host.Outcome State Fault Refusal :=
  s.onChip (Chip.jackDebounce j det)

/-- The class of one round (R351). -/
def Chip.jackClass (c : Chip) (tip ring2 sleeve : Nat) : Nat :=
  let gnd := c.rdf Reg.JACK_THR0 9 0
  let line := c.rdf Reg.JACK_THR0 25 16
  let lo := c.rdf Reg.JACK_THR1 9 0
  let hi := c.rdf Reg.JACK_THR1 25 16
  if line ≤ tip then 4
  else if ring2 ≤ gnd ∧ sleeve ≤ gnd then 1
  else if ring2 ≤ gnd ∧ lo ≤ sleeve ∧ sleeve ≤ hi then 2
  else if sleeve ≤ gnd ∧ lo ≤ ring2 ∧ ring2 ≤ hi then 3
  else 5

/-- A class is reported (R351, R353). -/
def Chip.jackReport (c : Chip) (j cls : Nat) (t : Word) : Chip :=
  ((c.wrf (Reg.JACK_STAT j) 3 1 cls).jackEvent j 2 cls t).setJack j { c.jackSt j with busy := false, rounds := [] }

/-- One round of a classification (R351): three rounds that agree report their class, else they are repeated, up to
eight times. -/
def Chip.jackRound (j tip ring2 sleeve : Nat) (c : Chip) : Chip :=
  let x := c.jackSt j
  if !c.jackOn j || !x.busy then c
  else
    let cls := c.jackClass tip ring2 sleeve
    let rs := x.rounds ++ [cls]
    let since := if x.sets = 0 ∧ x.rounds.isEmpty then c.now else x.since
    let y := { x with rounds := rs, since := since }
    if rs.length < 3 then c.setJack j y
    else if rs.all (· == cls) then (c.setJack j y).jackReport j cls since
    else if x.sets < 8 then c.setJack j { y with rounds := [], sets := x.sets + 1 }
    else (c.setJack j y).jackReport j 5 since

def execJackClassRound (j : Fin 2) (tip ring2 sleeve : BitVec 10) (s : State) : Host.Outcome State Fault Refusal :=
  s.onChip (Chip.jackRound j tip.toNat ring2.toNat sleeve.toNat)

/-- A write of JACK_RECLASS (R351). -/
def Chip.jackReclass (v : Word) (c : Chip) : Chip :=
  forUpTo 2 (fun j c => if bit v j && c.jackOn j && c.jackIn j then c.jackClassify j else c) c

def execJackReclass (v : Word) (s : State) : Host.Outcome State Fault Refusal := s.onChip (Chip.jackReclass v)

/-- The button state that a code of the microphone contact shows: 0 released, 1 + k button k; none keeps the present
state (R352). -/
def Chip.buttonOf (c : Chip) (code : Nat) : Option Nat :=
  if code ≤ c.rdf Reg.JACK_BTN0 9 0 then some 1
  else if code ≤ c.rdf Reg.JACK_BTN0 25 16 then some 2
  else if code ≤ c.rdf Reg.JACK_BTN1 9 0 then some 3
  else if code ≤ c.rdf Reg.JACK_BTN1 25 16 then some 4
  else if c.rdf Reg.JACK_THR1 9 0 ≤ code then some 0
  else none

/-- Whether jack `j` looks for buttons (R352). -/
def Chip.buttonsOn (c : Chip) (j : Nat) : Bool :=
  let cls := c.rdf (Reg.JACK_STAT j) 3 1
  c.jackOn j && (cls == 2 || cls == 3) && c.rdb Reg.JACK_CFG (18 + j)

/-- A conversion of the microphone contact (R352). -/
def Chip.buttonSample (j code : Nat) (c : Chip) : Chip :=
  if !c.buttonsOn j then c
  else
    let x := c.jackSt j
    let c1 := c.wrf (Reg.JACK_STAT j) 25 16 code
    match c.buttonOf code with
    | some b => if b = x.code then c1 else c1.setJack j { x with code := b, first := c.now }
    | none => c1

def execJackButtonSample (j : Fin 2) (code : BitVec 10) (s : State) : Host.Outcome State Fault Refusal :=
  s.onChip (Chip.buttonSample j code.toNat)

/-- A button state held for BTN_DB ms is reported: a release, then a press (R352). -/
def Chip.buttonDebounce (j : Nat) (c : Chip) : Chip :=
  let x := c.jackSt j
  let old := match c.jackPressed j with | some k => k + 1 | none => 0
  if !c.buttonsOn j || x.code == old then c
  else
    let c1 := c.jackReleaseBtn j x.first
    if x.code = 0 then c1
    else (c1.wrb (Reg.JACK_STAT j) (4 + (x.code - 1)) true).jackEvent j 3 (x.code - 1) x.first

def execJackButtonDebounce (j : Fin 2) (s : State) : Host.Outcome State Fault Refusal :=
  s.onChip (Chip.buttonDebounce j)

/-- A read of JACK_EVT_INFO pops one event (R353). -/
def Chip.jackPop (c : Chip) : Chip :=
  match c.jack.evts with
  | [] => c.ret 0
  | e :: t =>
    (({ c with jack := { c.jack with evts := t, ovf := false } }).wr Reg.JACK_EVT_TIME e.time).ret
      (setBit (setBit e.info 31 true) 30 c.jack.ovf)

def execJackEventPop (s : State) : Host.Outcome State Fault Refusal := s.onChip Chip.jackPop

/-- The raw sampler converts (R353); a full FIFO drops the newest sample. -/
def Chip.rawSample (code : Nat) (c : Chip) : Chip :=
  if c.rdb Reg.JACK_RAWCFG 0 && c.en pgJACK && decide (c.jack.raws.length < 16) then
    { c with jack := { c.jack with raws := c.jack.raws ++ [code] } }
  else c

def execJackRawSample (code : BitVec 10) (s : State) : Host.Outcome State Fault Refusal :=
  s.onChip (Chip.rawSample code.toNat)

/-- A read of JACK_RAW pops one sample (R353). -/
def Chip.rawPop (c : Chip) : Chip :=
  match c.jack.raws with
  | [] => c.ret 0
  | r :: t => ({ c with jack := { c.jack with raws := t } }).ret (setBit (word r) 31 true)

def execJackRawPop (s : State) : Host.Outcome State Fault Refusal := s.onChip Chip.rawPop

/-- A reset that reaches page JACK (R354). -/
def Chip.resetJack (c : Chip) : Chip := { c.resetPage pgJACK with jack := jackReset }

end Sys2Proof.Machine
end

