-- ==== Sys2Proof/Machine/Aster.lean ====
section
/-! DEFINITION. Aster (R363 to R386): references, qualification, selection, states, and the frame output. The audio PLLs
and the other clock outputs stand in Machine/TimeBase.lean, beside the time that moves them. -/

namespace Sys2Proof.Machine

/-- EN, RANK and WTR of a reference (R386). -/
def Chip.refEn (c : Chip) (n : Nat) : Bool := c.rdb (Reg.ASTER_REF_CFG n) 0
def Chip.refRank (c : Chip) (n : Nat) : Nat := c.rdf (Reg.ASTER_REF_CFG n) 7 4
def Chip.refWtr (c : Chip) (n : Nat) : Nat := c.rdf (Reg.ASTER_REF_CFG n) 15 8 * 1000
def Chip.refSel (c : Chip) (n : Nat) : Nat := c.rdf (Reg.ASTER_REF_CFG n) 19 16

/-- The nominal frequency of a reference in Hz, as a fraction (R365). -/
def Chip.refNominal (c : Chip) (n : Nat) : Nat × Nat :=
  if n ≤ 4 ∨ n = 11 then (c.rdf (Reg.ASTER_REF_NOM n) 17 0, 1)
  else if n ≤ 7 then (c.fs, 1)
  else if n = 9 then (1, 1)
  else (c.fs, c.tickN)

/-- Whether the source of a reference can send edges (R365): an AES3 receiver while LOCK holds, an enabled serial audio
port, an enabled Stem link in slave role, Buffer-Steer while it is enabled; pins and PTP time always. -/
def Chip.refFed (c : Chip) (n : Nat) : Bool :=
  if 1 ≤ n ∧ n ≤ 4 then c.aesLocked (n - 1)
  else if n = 5 ∨ n = 6 then c.en (pgSAP (c.refSel n))
  else if n = 8 then decide (c.refSel 8 < 4) && c.en (pgSTM (c.refSel 8)) && !c.rdb (Reg.STM_CFG (c.refSel 8)) 0
  else if n = 10 then c.rdb Reg.ASTER_BS_CFG 0
  else true

/-! Measurement intervals (R366). The interval of a reference lasts 10 ms, or 4 of its nominal periods when that is longer;
`none` is the interval of 10 ms. -/

/-- Whether a reference of this nominal frequency has an interval of 10 ms. -/
def isFast (f : Nat × Nat) : Bool := decide (400 * f.2 ≤ f.1)

/-- Whether the interval of reference `r` is one of 10 ms, and whether it is of the length of reference `n`'s. -/
def Chip.ivFast (c : Chip) (r : Option Nat) : Bool :=
  match r with
  | none => true
  | some r => isFast (c.refNominal r)
def Chip.ivOf (c : Chip) (r : Option Nat) (n : Nat) : Bool :=
  let f := c.refNominal n
  match r with
  | none => isFast f
  | some r =>
    let e := c.refNominal r
    (isFast e && isFast f) || (e.1 != 0 && !isFast e && !isFast f && e.1 * f.2 == f.1 * e.2)

/-- How many intervals of 10 ms, rounded up, two intervals of reference `n` last. -/
def Chip.twoIvs (c : Chip) (n : Nat) : Nat :=
  let f := c.refNominal n
  if isFast f then 2 else ceilDiv (800 * f.2) f.1

/-- Active and qualified as ASTER_QSTAT shows them (R367). -/
def Chip.refActive (c : Chip) (n : Nat) : Bool := c.rdb Reg.ASTER_QSTAT (16 + n)
def Chip.refQual (c : Chip) (n : Nat) : Bool := c.rdb Reg.ASTER_QSTAT n

/-- RAIL (R364). -/
def Chip.asterRail (c : Chip) : Bool := c.rdb Reg.ASTER_STATE 4

/-- The DCO's offset moves to `f`, within its range; RAIL is 1 while it stands at either end (R363, R364). -/
def Chip.setFofs (c : Chip) (f : Int) : Chip :=
  let v := clampInt (-200000) 200000 f
  let rail := v.natAbs == 200000
  ((c.wr Reg.ASTER_FOFS (BitVec.ofInt 32 v)).wrb Reg.ASTER_STATE 4 rail).irqIf (rail && !c.asterRail) pgASTER 10

/-- Whether a reference may be selected: qualified, and not the selected one while the DCO is at its rail (R364). -/
def Chip.refUsable (c : Chip) (n : Nat) : Bool :=
  c.refQual n && !(c.asterRail && c.aster.sel == some n)

/-- STATE (R374): 0 FREERUN, 1 ACQUIRE, 2 LOCKED, 3 SWITCHING, 4 HOLDOVER. -/
def Chip.asterState (c : Chip) : Nat := c.rdf Reg.ASTER_STATE 2 0

/-- Entry to a state: its sticky bit and its interrupt flag (R374). -/
def Chip.asterEnter (c : Chip) (v : Nat) : Chip :=
  ((c.wrf Reg.ASTER_STATE 2 0 v).wrb Reg.ASTER_HIST v true).irq pgASTER v

/-- The build-out begins or ends (R372). -/
def Chip.setBuild (c : Chip) (b : Bool) : Chip :=
  ({ c with aster := { c.aster with build := b } }).wrb Reg.ASTER_STATE 3 b

/-- A reference is selected (R368, R372, R373). -/
def Chip.asterSelect (c : Chip) (n : Nat) : Chip :=
  let c1 := ({ c with aster := { c.aster with sel := some n, locks := 0, lead := none } }).wrf Reg.ASTER_STATE 11 8 n
  (c1.setBuild true).asterEnter (if c.asterState ≤ 1 then 1 else 3)

/-- How many entries of the history of LOCKED the mean is taken over (R376); an entry is the offset over 10 ms. -/
def Chip.hoAvg (c : Chip) : Nat := 100 * 10 ^ c.rdf Reg.ASTER_CFG 9 8

/-- The mean of a history. -/
def meanOffset (l : List Int) : Int := l.foldl (fun a e => a + e) 0 / (max 1 l.length : Nat)

/-- HOLDOVER on the mean of the LOCKED history without its last `k` entries, or FREERUN with less than a second of
it (R376, R377); the held frequency lies within 0.01 ppm of the mean. -/
def Chip.asterHold (c : Chip) (k : Nat) : Chip :=
  let h := (c.aster.history.drop k).take c.hoAvg
  if h.length < 100 then c.asterEnter 0
  else
    let f := clampInt (-200000) 200000 (meanOffset h + clampInt (-10) 10 (c.freeNow 8).toInt)
    ((c.freeNext.wr Reg.ASTER_HO_FREQ (BitVec.ofInt 32 f)).setFofs f).asterEnter 4

/-- The selected reference `r` is lost and none is qualified (R373); the last two intervals of its length are left out of
the mean (R376). -/
def Chip.asterLose (c : Chip) (r : Nat) : Chip :=
  let c1 := (({ c with aster := { c.aster with sel := none, lead := none } }).wrf Reg.ASTER_STATE 11 8 0xF).setBuild false
  if c.asterState = 1 then c1.asterEnter 0 else c1.asterHold (c.twoIvs r)

/-- The reference of lowest rank, the lowest index among equal ranks, among those that satisfy `p` (R368). -/
def Chip.bestRef (c : Chip) (p : Nat → Bool) : Option Nat :=
  (indices 12 p).foldl (fun b n => match b with
    | none => some n
    | some m => if c.refRank n < c.refRank m then some n else some m) none

/-! Wait-to-restore timers (R368): a qualified reference has one, which holds the ms since it started. -/

/-- A timer that has ended whatever WTR is. -/
def wtrDone : Nat := 255000

/-- A timer of reference `n` starts. -/
def Chip.wtrStart (c : Chip) (n : Nat) : Chip := { c with aster := { c.aster with wtr := put c.aster.wtr n 0 } }

/-- The timer of reference `n` ends, at disqualification. -/
def Chip.wtrDrop (c : Chip) (n : Nat) : Chip := { c with aster := { c.aster with wtr := drop (· == n) c.aster.wtr } }

/-- Whether the wait-to-restore time of a reference has gone by. -/
def Chip.wtrOver (c : Chip) (n : Nat) : Bool :=
  match c.aster.wtr.find? (fun e => e.1 == n) with
  | some e => decide (c.refWtr n ≤ e.2)
  | none => false

/-- The usable references of strictly better rank than `r`. -/
def Chip.better? (c : Chip) (r n : Nat) : Bool := c.refUsable n && decide (c.refRank n < c.refRank r)

/-- The next evaluation of the selection (R368, R369, R371, R378); the selected reference's timer ends while it is
treated as disqualified. -/
def Chip.asterEval (c : Chip) : Chip :=
  if c.aster.recal then c
  else if c.rdb Reg.ASTER_REFSEL 8 then
    let f := c.rdf Reg.ASTER_REFSEL 3 0
    if decide (f < 12) && c.refUsable f then (if c.aster.sel = some f then c else c.asterSelect f)
    else match c.aster.sel with
      | some r => c.asterLose r
      | none => c
  else match c.aster.sel with
    | none => match c.bestRef c.refUsable with
      | some n => c.asterSelect n
      | none => c
    | some r =>
      if !c.refUsable r then
        match c.bestRef (fun n => c.refUsable n && n != r) with
        | some n => (c.wtrDrop r).asterSelect n
        | none => (c.wtrDrop r).asterLose r
      else if c.aster.build then c
      else match c.bestRef (fun n => c.better? r n && c.wtrOver n) with
        | some n => c.asterSelect n
        | none => c

/-- A qualified bit changes (R367). A reference that becomes qualified starts its timer, unless a build-out is in
progress; one that is disqualified loses it (R368). -/
def Chip.setQual (c : Chip) (n : Nat) (b : Bool) : Chip :=
  if c.refQual n == b then c
  else
    let c1 := (c.wrb Reg.ASTER_QSTAT n b).irq pgASTER 5
    if !b then c1.wtrDrop n else if c.aster.build then c1 else c1.wtrStart n

/-- The consecutive good intervals of a reference. -/
def Chip.setGood (c : Chip) (n k : Nat) : Chip :=
  { c with aster := { c.aster with good := put c.aster.good n k } }

/-- A complete interval of reference `n`, in its window or not (R367). -/
def Chip.qualify (c : Chip) (n : Nat) (inside : Bool) : Chip :=
  if !inside then (c.setGood n 0).setQual n false
  else
    let k := look 0 c.aster.good n + 1
    let c1 := c.setGood n k
    if max 1 (c.rdf Reg.ASTER_QUAL 23 16) ≤ k then c1.setQual n true else c1

/-- A reference does not cover its present interval in full (R367). -/
def Chip.refPart (c : Chip) (n : Nat) : Chip :=
  { c with aster := { c.aster with part := n :: c.aster.part.filter (· != n) } }

/-- Whether the interval that ends counts for reference `n`: it was enabled and active all along. -/
def Chip.refCovered (c : Chip) (n : Nat) : Bool := c.refEn n && c.refActive n && !c.aster.part.contains n

/-- REF7's offset as TB_INC gives it, in 0.001 ppm (R387, R400). -/
def Chip.ref7Offset (c : Chip) : Int := ((c.tb.inc : Int) - 2 ^ 33) * 1000000000 / 2 ^ 33

/-- A reference's measured offset: REF7's is that of TB_INC, within the 1 ns that edges are resolved to (R363), unless TB_INC
or PTP time moved in the interval (log entry 133). -/
def Chip.refOffset (c : Chip) (n : Nat) (w : Word) : Word :=
  if n = 7 ∧ c.aster.moved = false then
    BitVec.ofInt 32 (clampInt (c.ref7Offset - 100) (c.ref7Offset + 100) w.toInt)
  else w

/-- The measured offset of a reference over an interval that it covered in full (R366, R367). -/
def Chip.refMeasure (c : Chip) (n : Nat) (off : Word) : Chip :=
  ({ c with aster := { c.aster with meas := put c.aster.meas n off } }.stat (Reg.ASTER_REF_MEAS n) off).qualify n
    (decide (off.toInt.natAbs ≤ c.rdf Reg.ASTER_QUAL 11 0 * 1000))

/-- REF10 counts an interval in which its fill stayed in the window; another one starts the count again (R381). -/
def Chip.bsInterval (c : Chip) : Chip :=
  let c1 := if !c.refCovered 10 then c else if c.aster.bsOk then c.qualify 10 true else c.setGood 10 0
  { c1 with aster := { c1.aster with bsOk := true } }

/-- Two enabled and qualified references of equal rank whose offsets differ by more than the window (R370), one of them
measured now. -/
def Chip.disagree (c : Chip) (l : List Nat) : Bool :=
  let win := max 1 (c.rdf Reg.ASTER_DISAGREE 9 0) * 100
  let off (n : Nat) := (look 0 c.aster.meas n).toInt
  let peers := indices 12 (fun n => n != 10 && c.refEn n && c.refQual n)
  peers.any (fun a => l.contains a && peers.any (fun b =>
    a != b && c.refRank a == c.refRank b && decide (win < (off a - off b).natAbs)))

/-- The slew rate in units of 0.001 ppm per second; 0 is unlimited (R372). -/
def Chip.slewRate (c : Chip) : Nat :=
  match c.rdf Reg.ASTER_CFG 13 12 with
  | 0 => 0
  | 1 => 100
  | 2 => 1000
  | _ => 10000

/-- A number moved toward zero by at most `n`. -/
def towardZero (x : Int) (n : Nat) : Int :=
  if x.natAbs ≤ n then 0 else if 0 < x then x - n else x + n

/-- Whether the loop steers the DCO: a reference is followed and its build-out is complete (R372). -/
def Chip.following (c : Chip) : Bool := 1 ≤ c.asterState && c.asterState ≤ 3 && !c.aster.build

/-- The DCO over 10 ms: in FREERUN it moves to the centre at the slew rate (R377); held in HOLDOVER and during a build-out
(R372, R376); while a reference is followed, the loop is given by its bandwidth alone and the offset is a free
value, no further away than the slew rate allows until the loop is LOCKED (R363, R372, R375). -/
def Chip.dcoInterval (c : Chip) : Chip :=
  let f := (c.rd Reg.ASTER_FOFS).toInt
  let n := c.slewRate / 100
  if c.asterState = 0 then c.setFofs (if c.slewRate = 0 then 0 else towardZero f n)
  else if !c.following then c
  else
    let g := (c.freeNow 32).toInt
    c.freeNext.setFofs (if c.slewRate = 0 ∨ c.asterState = 2 then g else clampInt (f - n) (f + n) g)

/-- An APLL that is out of lock may have come back to the DCO (R379): the spec does not say when. -/
def Chip.apllRelock (b : Nat) (c : Chip) : Chip :=
  if c.rdb Reg.ASTER_STATE (24 + b) then c
  else (c.wrb Reg.ASTER_STATE (24 + b) (c.freeNow 1 == 1)).freeNext

/-- 10 ms go by: the DCO, the APLLs, the timers and the history of LOCKED. -/
def Chip.tenMs (c : Chip) : Chip :=
  let c1 := forUpTo 2 Chip.apllRelock c.dcoInterval
  { c1 with aster := { c1.aster with
    wtr := c1.aster.wtr.map (fun (e : Nat × Nat) => (e.1, min wtrDone (e.2 + 10)))
    history := if c1.asterState = 2 then (c1.rd Reg.ASTER_FOFS).toInt :: c1.aster.history else c1.aster.history } }

/-- How far REF7 leads the DCO, in units of 10^-9 of its period: PTP time against the count of the engine's APLL
(R365, R400). -/
def Chip.ref7Lead (c : Chip) : Int :=
  let p := ratePeriod c.tick.rate * apllCycle
  (((c.tb.sec.toNat * 1000000000 + c.tb.ns.toNat) * c.fs % 1000000000 : Nat) : Int)
    - (c.clk.place c.fsApll % p * 1000000000 / p : Nat)

/-- A phase in those units, as the nearest edge gives it. -/
def nearest (x : Int) : Int := (x + 500000000) % 1000000000 - 500000000

/-- The phase error of the selected reference `n` (R363): REF10's is its fill's distance from the target (R380); REF7's
follows PTP time from the last interval on, within 1 ns, so that a step moves it (R400; log entry 133). -/
def Chip.phaseError (c : Chip) (n : Nat) (w : Word) : Int :=
  if n = 10 then c.aster.bsErr * 1000000000 / c.fs
  else if n = 7 then
    match c.aster.lead with
    | some (l, e) =>
      let x := e + nearest (c.ref7Lead - l) / c.fs
      clampInt (x - 1) (x + 1) w.toInt
    | none => w.toInt
  else w.toInt

/-- The lock criterion (R373). -/
def Chip.lockInterval (c : Chip) (phErr : Int) : Chip :=
  let st := c.asterState
  if (st = 1 ∨ st = 3) ∧ c.aster.build = false then
    if phErr.natAbs ≤ c.rdf Reg.ASTER_LOCK 15 0 then
      let k := c.aster.locks + 1
      let c1 := { c with aster := { c.aster with locks := k } }
      if max 1 (c.rdf Reg.ASTER_LOCK 23 16) ≤ k then c1.asterEnter 2 else c1
    else { c with aster := { c.aster with locks := 0 } }
  else c

/-- The phase error of the selected reference `n` is reported, and the lock criterion evaluated, as its interval ends. -/
def Chip.phaseInterval (c : Chip) (n : Nat) (w : Word) : Chip :=
  let e := c.phaseError n w
  let c1 := c.stat Reg.ASTER_PHERR (BitVec.ofInt 32 e)
  ({ c1 with aster := { c1.aster with
    lead := if n = 7 ∧ c.aster.build = false then some (c.ref7Lead, e) else none } }).lockInterval e

/-- A measurement interval of one length ends (R366, R367, R370, R372, R373, R376), for the references of that length. -/
def Chip.asterInterval (m : AsterMeas) (c : Chip) : Chip :=
  let r := m.ref.map (·.val)
  let l := (m.offsets.map (fun e => (e.1.val, c.refOffset e.1.val e.2))).filter (fun e =>
    e.1 != 10 && c.ivOf r e.1 && c.refCovered e.1)
  let c1 := l.foldl (fun (c : Chip) (e : Nat × Word) => c.refMeasure e.1 e.2) c
  let c2 := if c1.ivOf r 10 then c1.bsInterval else c1
  let c3 := if c2.disagree (l.map (·.1)) then (c2.wrb Reg.ASTER_HIST 8 true).irq pgASTER 6 else c2
  let c4 := if c3.ivFast r then c3.tenMs else c3
  let c5 := match c4.aster.sel with
    | some n => if c4.ivOf r n then c4.phaseInterval n m.phErr else c4
    | none => c4
  ({ c5 with aster := { c5.aster with
    part := c5.aster.part.filter (fun n => !c5.ivOf r n)
    moved := c5.aster.moved && !c5.ivOf r 7 } }).asterEval

def execAsterInterval (m : AsterMeas) (s : State) : Host.Outcome State Fault Refusal :=
  s.onChip (Chip.asterInterval m)

/-- A reference becomes inactive and is disqualified (R367). -/
def Chip.refInactive (r : Nat) (c : Chip) : Chip :=
  (((c.wrb Reg.ASTER_QSTAT (16 + r) false).setGood r 0).setQual r false).asterEval

/-- No active edge for two nominal periods. At any increment that R391 accepts PTP time reaches REF7's next instant sooner
than that. -/
def execRefInactive (r : Fin 12) (s : State) : Host.Outcome State Fault Refusal :=
  s.onChip (fun c => if r.val = 7 ∧ c.refEn 7 then c else c.refInactive r)

/-- An edge arrives on an enabled reference: it is active (R367), and its present interval was not covered in full. -/
def Chip.refActiveNow (r : Nat) (c : Chip) : Chip :=
  if c.refEn r && c.refFed r && !c.refActive r then (c.wrb Reg.ASTER_QSTAT (16 + r) true).refPart r else c

def execReferenceActive (r : Fin 12) (s : State) : Host.Outcome State Fault Refusal :=
  s.onChip (Chip.refActiveNow r)

/-- A timer of reference `r` ends at once. -/
def Chip.wtrEnd (r : Nat) (c : Chip) : Chip :=
  { c with aster := { c.aster with wtr := c.aster.wtr.map (fun (e : Nat × Nat) =>
    if e.1 = r then (e.1, wtrDone) else e) } }

/-- The wait-to-restore time of reference `r` has gone by (R368). -/
def execWtrExpiry (r : Fin 12) (s : State) : Host.Outcome State Fault Refusal :=
  s.onChip (fun c => (c.wtrEnd r).asterEval)

/-- ASTER_CMD.RESTORE_NOW ends the running timers (R368). -/
def Chip.restoreNow (c : Chip) : Chip := (forUpTo 12 Chip.wtrEnd c).asterEval

def execRestoreNow (s : State) : Host.Outcome State Fault Refusal := s.onChip Chip.restoreNow

/-- The phase build-out completes (R372): the timers that waited for it start (R368). -/
def Chip.buildoutDone (c : Chip) : Chip :=
  if c.aster.build then
    (forUpTo 12 (fun n c =>
      if c.refQual n && !c.aster.wtr.any (fun e => e.1 == n) then c.wtrStart n else c) (c.setBuild false)).asterEval
  else c

def execBuildoutDone (s : State) : Host.Outcome State Fault Refusal := s.onChip Chip.buildoutDone

/-- ASTER_CMD.RECAL (R378). -/
def Chip.recal (c : Chip) : Chip :=
  if c.asterState = 0 ∨ c.asterState = 4 then { c with aster := { c.aster with recal := true } }
  else c.err pgASTER 0x01 0

def execRecal (s : State) : Host.Outcome State Fault Refusal := s.onChip Chip.recal

/-- Recalibration ends (R378): the DCO's offset from its new centre is a free value, its frequency the same. -/
def Chip.recalDone (c : Chip) : Chip :=
  if c.aster.recal then
    ((({ c.freeNext with aster := { c.aster with recal := false } }).setFofs (c.freeNow 32).toInt).irq pgASTER 9).asterEval
  else c

def execRecalDone (s : State) : Host.Outcome State Fault Refusal := s.onChip Chip.recalDone

/-- A write of ASTER_CMD (R669). -/
def Chip.asterCmd (v : Word) (c : Chip) : Chip :=
  let c1 := if bit v 0 then c.recal else c
  if bit v 1 then c1.restoreNow else c1

/-- The DCO reaches an end of its range, or leaves it (R364): the loop moves it, or in FREERUN the way to the centre; a
DCO that is held stays. Which end, and where to, is free. -/
def Chip.dcoRail (b : Bool) (c : Chip) : Chip :=
  if c.asterRail == b || !(c.following || (c.asterState == 0 && !b)) then c
  else
    let f := (c.freeNow 32).toInt
    (c.freeNext.setFofs (if b then (if f < 0 then -200000 else 200000) else clampInt (-199999) 199999 f)).asterEval

def execDcoRail (atRail : Bool) (s : State) : Host.Outcome State Fault Refusal := s.onChip (Chip.dcoRail atRail)

/-- An audio PLL loses its lock: APLL_A, or APLL_B when `b` (R379). -/
def Chip.apllUnlock (b : Bool) (c : Chip) : Chip :=
  ((c.wrb Reg.ASTER_STATE (24 + b2n b) false).wrb Reg.ASTER_HIST 9 true).irq pgASTER 7

def execApllUnlock (b : Bool) (s : State) : Host.Outcome State Fault Refusal := s.onChip (Chip.apllUnlock b)

/-- A write of ASTER_REFn_CFG (R365): EN with a nominal frequency of 0 is refused; a disabled reference is
disqualified; EDGE and SEL name other edges, so that the present interval is not covered in full. -/
def Chip.refCfgWrite (n : Nat) (v : Word) (c : Chip) : Chip :=
  let needs := n ≤ 4 || n == 11
  let bad := bit v 0 && needs && c.rdf (Reg.ASTER_REF_NOM n) 17 0 == 0
  let w := v &&& 0xF_FFF3
  let same := (w &&& 0xF_0003) == (c.rd (Reg.ASTER_REF_CFG n) &&& 0xF_0003)
  let c1 := c.wr (Reg.ASTER_REF_CFG n) (if bad then setBit w 0 false else w)
  let c2 := if bad then c1.err pgASTER 0x02 (word n) else c1
  if bit v 0 && !bad then (if same then c2 else c2.refPart n) else c2.refInactive n

/-- A write of ASTER_REFn_NOM (R365): an interval measured against two nominal frequencies does not count. -/
def Chip.refNomWrite (n : Nat) (v : Word) (c : Chip) : Chip := (c.wr (Reg.ASTER_REF_NOM n) (v &&& 0x3_FFFF)).refPart n

/-- The ms that the timer of a strictly better reference still runs, under R368 and not under FORCE. -/
def Chip.wtrLeft (c : Chip) : Tbl Nat :=
  match c.aster.sel with
  | some r => if c.rdb Reg.ASTER_REFSEL 8 then [] else
      (c.aster.wtr.filter (fun e => c.better? r e.1 && !c.wtrOver e.1)).map (fun e => (e.1, c.refWtr e.1 - e.2))
  | none => []

/-- ASTER_STATE as it reads (R386): the reference whose wait-to-restore time ends first, and its seconds left. -/
def Chip.asterStateView (c : Chip) : Word :=
  let best := c.wtrLeft.foldl (fun (b : Option (Nat × Nat)) e => match b with
    | none => some e
    | some m => if e.2 < m.2 then some e else some m) none
  match best with
  | some (n, ms) => setFld (setFld (c.rd Reg.ASTER_STATE) 15 12 n) 23 16 (ceilDiv ms 1000)
  | none => setFld (setFld (c.rd Reg.ASTER_STATE) 15 12 0xF) 23 16 0

/-! Buffer-Steer (R380, R381). -/

/-- A sample outside REF10's window, and one outside its double, which disqualifies it (R381). -/
def Chip.bsJudge (c : Chip) (outside far : Bool) : Chip :=
  let c1 := { c with aster := { c.aster with bsOk := c.aster.bsOk && !outside } }
  if far && c1.refQual 10 then ((c1.setGood 10 0).setQual 10 false).asterEval else c1

/-- At an audio boundary Aster samples the fill `f` of REF10's source, `none` when it does not receive. -/
def Chip.bufferSteer (f : Option Nat) (c : Chip) : Chip :=
  if !c.rdb Reg.ASTER_BS_CFG 0 then (if c.refActive 10 then c.refInactive 10 else c)
  else match f with
    | none => if c.refActive 10 then c.refInactive 10 else c
    | some n =>
      let d : Int := (n : Int) - c.rdf Reg.ASTER_BS_CFG 31 16
      let win := c.rdf Reg.ASTER_BS_WIN 15 0
      let c1 := ({ c with aster := { c.aster with bsErr := d } }).stat Reg.ASTER_BS_STAT
        (setFld (word (n % 2 ^ 16)) 31 16 (BitVec.ofInt 16 d).toNat)
      (c1.refActiveNow 10).bsJudge (decide (win < d.natAbs)) (decide (2 * win < d.natAbs))

/-! The frame output (R383). -/

/-- OFS, clamped. -/
def Chip.frameOfs (c : Chip) : Int := clampInt (-500000) 500000 (c.rd Reg.ASTER_FRAME_OFS).toInt

/-- The mean spacing of the last eight edges. -/
def edgeSpacing (l : List Word) : Nat :=
  match l, l.getLast? with
  | a :: _ :: _, some z => (a - z).toNat / (l.length - 1)
  | _, _ => 0

/-- A pulse of the frame source at time `t`: the next FRAME_OUT pulse is due at t + OFS, for a negative OFS at the
predicted edge plus OFS; after a miss, once two edges have come. -/
def Chip.frameSource (t : Word) (c : Chip) : Chip :=
  let x := c.aster
  let es := (t :: x.edges).take 9
  let seen := x.seen + 1
  let ofs := c.frameOfs
  let ready := (!x.missed || decide (2 ≤ seen)) && (decide (0 ≤ ofs) || decide (2 ≤ es.length))
  let at' : Word := if 0 ≤ ofs then t + BitVec.ofInt 32 ofs else t + word (edgeSpacing es) + BitVec.ofInt 32 ofs
  let c1 := { c with aster := { x with
    edges := es, seen := seen, missed := x.missed && !ready, due := if ready then some at' else x.due } }
  (c1.wrb Reg.FRAME_STAT 0 ready).wrb Reg.FRAME_STAT 1 (decide (ofs < 0))

/-- The short time of the frame source's pulse: with SRC = 3 it is that of the last whole second of PTP time. -/
def Chip.frameTime (c : Chip) (t : Word) : Word :=
  if c.rdf Reg.FRAME_CFG 2 1 = 3 then c.now - c.tb.ns else t

def execFrameSourcePulse (t : Word) (s : State) : Host.Outcome State Fault Refusal :=
  s.onChip (fun c => c.frameSource (c.frameTime t))

/-- WIDTH of FRAME_OUT in ns; none while the pin is disabled. -/
def Chip.frameWidth (c : Chip) : Nat :=
  if c.rdb Reg.FRAME_CFG 0 then max 1 (c.rdf Reg.FRAME_CFG 15 8) * 1000 else 0

/-- FRAME_OUT emits its due pulse, on the pin where that is enabled. -/
def Chip.frameOut (c : Chip) : Chip :=
  match c.aster.due with
  | some t =>
    ({ c with aster := { c.aster with due := none, frameT := t }, clk := { c.clk with frame := c.frameWidth } }).startFrame
  | none => c

def execFrameOutPulse (s : State) : Host.Outcome State Fault Refusal := s.onChip Chip.frameOut

/-- A source pulse is missing: no further pulse until two edges have come again. -/
def Chip.frameMiss (c : Chip) : Chip :=
  (({ c with aster := { c.aster with missed := true, seen := 0, edges := [], due := none } }).wrb
    Reg.FRAME_STAT 0 false).irq pgASTER 8

def execFrameMiss (s : State) : Host.Outcome State Fault Refusal := s.onChip Chip.frameMiss

/-- A write of FRAME_CFG: a pulse on the pin ends; the edges of another source or of the other polarity are forgotten. -/
def Chip.frameCfgWrite (v : Word) (c : Chip) : Chip :=
  let w := v &&& 0xFF17
  let x := if (w &&& 0x16) = (c.rd Reg.FRAME_CFG &&& 0x16) then c.aster
    else { c.aster with edges := [], seen := 0, missed := false, due := none }
  ({ c with aster := x, clk := { c.clk with frame := 0 } }).wr Reg.FRAME_CFG w

/-- A write of PPS_OUT_CFG: the next pulse is a whole one. -/
def Chip.ppsCfgWrite (v : Word) (c : Chip) : Chip :=
  ({ c with clk := { c.clk with pps := 0 } }).wr Reg.PPS_OUT_CFG (v &&& 0xFF01)

/-- A reset that reaches page ASTER (R384): every output is disabled; the APLLs count on. -/
def Chip.resetAster (c : Chip) : Chip :=
  { c.resetPage pgASTER with aster := asterReset, clk := { c.clk with on := [], pps := 0, frame := 0 } }

end Sys2Proof.Machine
end

