-- ==== Sys2Proof/Machine/Lane.lean ====
section
/-! DEFINITION. Serial lanes and Iris (R404 to R431): receive states, block lock, fast-exit idle, eye scans. The
commands of the lanes stand in Machine/Link.lean, after the blocks that a lane serves. -/

namespace Sys2Proof.Machine

/-! Iris (R421 to R425). -/

/-- PH_MIN, PH_MAX and the step. -/
def Chip.irisPh (c : Chip) : Int × Int × Nat :=
  let w := c.rd Reg.IRIS_PH
  (fldS w 5 0, fldS w 13 8, fld w 19 16 + 1)

/-- V_MIN, V_MAX and the step. -/
def Chip.irisV (c : Chip) : Int × Int × Nat :=
  let w := c.rd Reg.IRIS_V
  (fldS w 7 0, fldS w 15 8, fld w 21 16 + 1)

/-- How many values an axis has. -/
def axisCount (x : Int × Int × Nat) : Nat :=
  if x.2.1 < x.1 then 0 else (x.2.1 - x.1).toNat / x.2.2 + 1

/-- IRIS_POINTS (R422). -/
def Chip.irisPoints (c : Chip) : Nat := axisCount c.irisPh * axisCount c.irisV

/-- Whether a scan runs, and its lane. -/
def Chip.irisRuns (c : Chip) : Bool := c.rdb Reg.IRIS_STAT 0
def Chip.irisLane (c : Chip) : Nat := c.rdf Reg.IRIS_CFG 3 0

/-- STATE of a lane (R409): 0 OFF, 1 IDLE, 2 LOS, 3 CDR, 4 HUNT, 5 LOCKED. -/
def Chip.laneState (c : Chip) (n : Nat) : Nat := c.rdf (Reg.LANE_STAT n) 2 0

/-- The configurations that START refuses (R423). -/
def Chip.irisInvalid (c : Chip) : Bool :=
  let d := c.rdf Reg.IRIS_CFG 13 8
  decide (c.irisPh.2.1 < c.irisPh.1) || decide (c.irisV.2.1 < c.irisV.1) || c.irisV.1 == -128 ||
    c.irisV.2.1 == -128 || decide (d < 12) || decide (40 < d) || decide (9 < c.irisLane)

/-- IRIS_CMD.START (R422, R423, R425). -/
def Chip.irisStart (c : Chip) : Chip :=
  if c.irisRuns then c.err pgIRIS 0x01 0
  else if c.irisInvalid then c.err pgIRIS 0x02 0
  else if c.laneState c.irisLane < 4 then c.err pgIRIS 0x04 (word c.irisLane)
  else { c with iris := [] }.wr Reg.IRIS_STAT 1

def execIrisStart (s : State) : Host.Outcome State Fault Refusal := s.onChip Chip.irisStart

/-- A scan ends before its last point (R424). -/
def Chip.irisEnd (c : Chip) : Chip := (((c.wrb Reg.IRIS_STAT 0 false).wrb Reg.IRIS_STAT 2 false)).irq pgIRIS 1

/-- IRIS_CMD.ABORT (R424). -/
def Chip.irisAbort (c : Chip) : Chip := if c.irisRuns then c.irisEnd else c

def execIrisAbort (s : State) : Host.Outcome State Fault Refusal := s.onChip Chip.irisAbort

/-- The scanned lane leaves HUNT and LOCKED (R424). -/
def Chip.irisLaneLost (c : Chip) (n : Nat) : Chip :=
  if c.irisRuns && c.irisLane == n then c.irisEnd.err pgIRIS 0x03 (word n) else c

/-- The buffer entry of point `k`, of whose 2^DWELL bits `errs` disagree (R422, R425). -/
def Chip.irisEntry (c : Chip) (k errs : Nat) : Word :=
  let nv := max 1 (axisCount c.irisV)
  let ph := c.irisPh.1 + (k / nv * c.irisPh.2.2 : Nat)
  let v := c.irisV.1 + (k % nv * c.irisV.2.2 : Nat)
  word ((BitVec.ofInt 6 ph).toNat * 2 ^ 26 + (BitVec.ofInt 8 v).toNat * 2 ^ 18 + 2 ^ 17 + min (min errs (2 ^ c.rdf Reg.IRIS_CFG 13 8)) 0x1_FFFF)

/-- A point's dwell ends: its entry is written and the next point starts, unless the buffer is full or it was the
last (R422, R425). -/
def Chip.irisPointDone (errs : Nat) (c : Chip) : Chip :=
  if c.irisRuns && decide (c.iris.length < 256) then
    let k := c.rdf Reg.IRIS_STAT 31 16
    let c1 := { c with iris := c.iris ++ [c.irisEntry k errs] }.wrf Reg.IRIS_STAT 31 16 (k + 1)
    if c.irisPoints ≤ k + 1 then ((c1.wrb Reg.IRIS_STAT 0 false).wrb Reg.IRIS_STAT 1 true).irq pgIRIS 0
    else c1.wrb Reg.IRIS_STAT 2 (c1.iris.length == 256)
  else c

def execIrisPointDone (errs : Nat) (s : State) : Host.Outcome State Fault Refusal :=
  s.onChip (Chip.irisPointDone errs)

/-- A read of IRIS_BUF_DATA (R425). -/
def Chip.irisPop (c : Chip) : Chip :=
  match c.iris with
  | [] => c.ret 0
  | w :: t => ({ c with iris := t }.wrb Reg.IRIS_STAT 2 false).ret w

def execIrisBufPop (s : State) : Host.Outcome State Fault Refusal := s.onChip Chip.irisPop

/-- Courier request line 6 (R425). -/
def Chip.irisLine (c : Chip) : Bool := 64 ≤ c.iris.length || (!c.irisRuns && !c.iris.isEmpty)

/-- A write of IRIS_CMD (R669). -/
def Chip.irisCmd (v : Word) (c : Chip) : Chip :=
  let c1 := if bit v 0 then c.irisStart else c
  if bit v 1 then c1.irisAbort else c1

/-- A write of IRIS_CFG, IRIS_PH or IRIS_V (R423). -/
def Chip.irisCfgWrite (k : Nat) (v : Word) (c : Chip) : Chip :=
  if c.irisRuns then c.err pgIRIS 0x01 0 else c.wr k v

/-- IRIS_BUF_LEVEL and IRIS_POINTS as they read. -/
def Chip.irisView (c : Chip) (k : Nat) : Option Word :=
  if k = Reg.IRIS_BUF_LEVEL then some (word c.iris.length)
  else if k = Reg.IRIS_POINTS then some (word (c.irisPoints % 2 ^ 16))
  else none

/-- A reset that reaches page IRIS (R426). -/
def Chip.resetIris (c : Chip) : Chip := { c.resetPage pgIRIS with iris := [] }

/-! Lanes. -/

/-- Lane `n`. -/
def Chip.lane (c : Chip) (n : Nat) : LaneSt := look laneReset c.lanes n

/-- Lane `n` becomes `x`. -/
def Chip.setLane (c : Chip) (n : Nat) (x : LaneSt) : Chip := { c with lanes := put c.lanes n x }

/-- Time in ns since reset of the time base, 64 bits (R387, R388). -/
def Chip.now64 (c : Chip) : Nat := c.tb.epoch.toNat * 2 ^ 32 + c.tb.short.toNat

/-- A loss on lane `n`: its sticky bit in HIST and its interrupt flag (R413, R416). -/
def Chip.laneFlag (c : Chip) (n hist flag : Nat) : Chip := (c.wrb (Reg.LANE_HIST n) hist true).irq (pgLANE n) flag

/-- The link of an Ethernet port goes down with its lane (R432). -/
def Chip.ethLaneDown (c : Chip) (n : Nat) : Chip :=
  if n < 4 ∧ c.rdb (Reg.ETH_STAT n) 0 then (c.wrb (Reg.ETH_STAT n) 0 false).irq (pgETH n) 1 else c

/-- Lane `n` enters state `v` (R409, R413): departures from LOCKED are counted, an entry to LOCKED records how long
the lane took since CDR, and a scan of a lane that leaves HUNT and LOCKED ends (R424). -/
def Chip.setLaneState (c : Chip) (n v : Nat) : Chip :=
  let old := c.laneState n
  let c1 := ((c.wrf (Reg.LANE_STAT n) 2 0 v).wrb (Reg.LANE_STAT n) 4 (decide (4 ≤ v))).wrb (Reg.LANE_STAT n) 5 (v == 5)
  let c2 := if old = 5 ∧ v ≠ 5 then (c1.count (Reg.LANE_LOCKLOSS n)).ethLaneDown n else c1
  let x := c2.lane n
  let c3 :=
    if v = 3 then c2.setLane n { x with cdrAt := c2.now64 }
    else if v = 4 then c2.setLane n { x with run := 0 }
    else if v = 5 then
      ((((c2.setLane n { x with win := [] }).stat (Reg.LANE_WINERR n) 0).wr (Reg.LANE_LOCKTIME n)
        (word (min (c2.now64 - x.cdrAt) 0xFFFF))).irq (pgLANE n) 2)
    else c2
  if 4 ≤ old ∧ v < 4 then c3.irisLaneLost n else c3

/-- FASTIDLE holds on a lane that has fast-exit idle (R404, R416). -/
def Chip.fastIdle (c : Chip) (n : Nat) : Bool := decide (4 ≤ n ∧ n ≤ 7) && c.rdb (Reg.LANE_CFG n) 5

/-- The lane enters LOS (R410, R413). -/
def Chip.laneLos (c : Chip) (n : Nat) : Chip :=
  let c1 := (c.laneFlag n 0 0).setLaneState n 2
  c1.setLane n { c1.lane n with kept := false }

/-- The receiver starts: CDR, or LOS while the detector is asserted (R409, R410). -/
def Chip.laneRxStart (c : Chip) (n : Nat) : Chip :=
  if c.rdb (Reg.LANE_STAT n) 3 then c.laneLos n else c.setLaneState n 3

/-- The transmitter is in electrical idle or not (R415). -/
def Chip.laneTxIdle (c : Chip) (n : Nat) (b : Bool) : Chip := c.wrb (Reg.LANE_STAT n) 6 b

/-- Setting LANE CTRL.EN (R418, R419); `refused` is what Marigold says of the rate (R563). -/
def Chip.laneEnable (c : Chip) (n : Nat) (refused : Bool) : Chip :=
  if c.en (pgLANE n) then c
  else if (c.rdb (Reg.LANE_CFG n) 5 && !(decide (4 ≤ n ∧ n ≤ 7))) || refused then c.err (pgLANE n) 0x02 0
  else
    let c1 := c.wrb (Reg.CTRL (pgLANE n)) 0 true
    let c2 := if c1.rdb (Reg.LANE_CFG n) 1 then c1.laneTxIdle n false else c1
    if c2.rdb (Reg.LANE_CFG n) 2 then c2.laneRxStart n else c2

/-- Clearing LANE CTRL.EN: OFF, with the transmitter in electrical idle (R409, R415). -/
def Chip.laneDisable (c : Chip) (n : Nat) : Chip :=
  if c.en (pgLANE n) then
    let c1 := (((c.wrb (Reg.CTRL (pgLANE n)) 0 false).setLaneState n 0).laneTxIdle n true)
    c1.setLane n { c1.lane n with fast := false, burst := false, want := false, kept := false }
  else c

/-- A write of LANEn_CFG (R418): RATE, RXPOL and FASTIDLE stay while EN = 1, and a write that would change them
records CFG_LOCKED; TXEN, RXEN and TXPOL apply. -/
def Chip.laneCfgWrite (c : Chip) (n : Nat) (v : Word) : Chip :=
  let old := c.rd (Reg.LANE_CFG n)
  let w := v &&& 0x3F
  if !c.en (pgLANE n) then c.wr (Reg.LANE_CFG n) w
  else
    let c1 := c.wr (Reg.LANE_CFG n) ((w &&& 0x0E) ||| (old &&& 0x31))
    let c2 := if (w ^^^ old) &&& 0x31 = 0 then c1 else c1.err (pgLANE n) 0x01 0x40
    let c3 := if bit w 1 == bit old 1 then c2
      else
        let c' := c2.laneTxIdle n (!bit w 1)
        c'.setLane n { c'.lane n with fast := false, burst := false, want := false }
    if bit w 2 == bit old 2 then c3
    else if bit w 2 then c3.laneRxStart n
    else c3.setLaneState n 0

/-- Loss of signal asserts on lane `n` (R410, R416); in Listen and Dormant no lane state moves (R427). -/
def Chip.losAssert (c : Chip) (n : Nat) : Chip :=
  if 2 ≤ c.pstate then c else
  let c1 := c.wrb (Reg.LANE_STAT n) 3 true
  let st := c.laneState n
  if st = 5 ∧ c.fastIdle n then
    let c2 := (c1.laneFlag n 3 6).setLaneState n 1
    c2.setLane n { c2.lane n with kept := true }
  else if 3 ≤ st then c1.laneLos n
  else c1

/-- Loss of signal clears (R410). -/
def Chip.losClear (c : Chip) (n : Nat) : Chip :=
  let c1 := c.wrb (Reg.LANE_STAT n) 3 false
  if c.laneState n = 1 ∨ c.laneState n = 2 then c1.setLaneState n 3 else c1

/-- The CDR acquires a partner within ±300 ppm, in units of 0.01 ppm (R411). -/
def Chip.cdrLock (c : Chip) (n : Nat) (freq : Word) : Chip :=
  if c.laneState n = 3 ∧ freq.toInt.natAbs ≤ 30000 then (c.wr (Reg.LANE_FREQ n) freq).setLaneState n 4 else c

/-- The CDR loses lock (R411, R413). -/
def Chip.cdrLoss (c : Chip) (n : Nat) : Chip :=
  if 4 ≤ c.laneState n then
    let c1 := (c.laneFlag n 1 1).setLaneState n 3
    c1.setLane n { c1.lane n with kept := false }
  else c

/-- One payload bit through the descrambler x^58 + x^39 + 1 (R406): the bit and the next register. -/
def descrambleBit (s : BitVec 58) (b : Bool) : Bool × BitVec 58 :=
  (b ^^ s.getLsbD 38 ^^ s.getLsbD 57, (s <<< 1) ||| (BitVec.ofBool b).setWidth 58)

/-- A payload descrambled, in the order of Clause 49: bit 0 first (R406). -/
def descramble (s : BitVec 58) (p : BitVec 64) : BitVec 64 × BitVec 58 :=
  (List.range 64).foldl (fun x i =>
    let r := descrambleBit x.2 (p.getLsbD i)
    (x.1 ||| ((BitVec.ofBool r.1).setWidth 64 <<< i), r.2)) (0, s)

/-- Block lock is lost: back to HUNT from the alignment it had (R412, R413). -/
def Chip.blockLoss (c : Chip) (n : Nat) : Chip := (c.laneFlag n 2 3).setLaneState n 4

/-- A block with header `hdr` and descrambled payload `p` arrives in HUNT (R412). -/
def Chip.laneHunt (c : Chip) (n : Nat) (good : Bool) : Chip :=
  let x := c.lane n
  if !good then c.setLane n { x with align := (x.align + 1) % 66, run := 0 }
  else
    let c1 := c.setLane n { x with run := x.run + 1 }
    if 64 ≤ x.run + 1 then c1.setLaneState n 5 else c1

/-- A block arrives in LOCKED: the window of 64 headers, then a loss of lock, or delivery (R412, R414). -/
def Chip.laneLocked (c : Chip) (n : Nat) (good : Bool) (hdr : BitVec 2) (p : BitVec 64) : Chip :=
  let x := c.lane n
  let w := ((!good) :: x.win).take 64
  let bad := (w.filter id).length
  let c1 := (c.setLane n { x with win := w }).stat (Reg.LANE_WINERR n) (word bad)
  if 16 ≤ bad then c1.blockLoss n else c1.setLane n { c1.lane n with got := some (hdr, p) }

/-- A 66-bit block on the line: RXPOL inverts all of it (R406, R408), and every invalid header counts (R412). -/
def Chip.laneBlock (c : Chip) (n : Nat) (hdr : BitVec 2) (payload : BitVec 64) : Chip :=
  let st := c.laneState n
  if st < 4 then c
  else
    let inv := c.rdb (Reg.LANE_CFG n) 4
    let h := if inv then ~~~hdr else hdr
    let good := h == 1 || h == 2
    let (p, s) := descramble (c.lane n).scr (if inv then ~~~payload else payload)
    let c1 := c.setLane n { c.lane n with scr := s }
    let c2 := if good then c1 else c1.count (Reg.LANE_HDRERR n)
    if st = 4 then c2.laneHunt n good else c2.laneLocked n good h p

/-- LANEn_CMD.RELOCK (R413). -/
def Chip.laneRelock (c : Chip) (n : Nat) : Chip :=
  if c.laneState n = 5 then c.blockLoss n
  else if c.laneState n = 4 then c.setLane n { c.lane n with run := 0 }
  else c

/-- The transmitter enters fast-exit idle (R415). -/
def Chip.fastIdleBegin (c : Chip) (n : Nat) : Chip :=
  ((c.setLane n { c.lane n with fast := true, want := false }).laneTxIdle n true).irq (pgLANE n) 4

/-- LANEn_CMD.IDLE_ENTER (R415, R417). -/
def Chip.idleEnter (c : Chip) (n : Nat) : Chip :=
  let x := c.lane n
  if !(c.fastIdle n && c.rdb (Reg.LANE_CFG n) 1) then c.err (pgLANE n) 0x03 0
  else if !c.en (pgLANE n) || x.fast then c
  else if x.burst then c.setLane n { x with want := true }
  else c.fastIdleBegin n

/-- LANEn_CMD.IDLE_EXIT (R415, R417). -/
def Chip.idleExit (c : Chip) (n : Nat) : Chip :=
  let x := c.lane n
  if x.fast then (c.setLane n { x with fast := false, burst := true }).laneTxIdle n false
  else c.err (pgLANE n) 0x03 0

/-- The training burst ends (R415); an IDLE_ENTER that came during it takes effect (R417). -/
def Chip.burstEnd (c : Chip) (n : Nat) : Chip :=
  let x := c.lane n
  if x.burst then
    let c1 := (c.setLane n { x with burst := false }).irq (pgLANE n) 5
    if x.want then c1.fastIdleBegin n else c1
  else c

/-- A lane stays in IDLE for more than 100 ms (R416). -/
def Chip.rxIdleTimeout (c : Chip) (n : Nat) : Chip :=
  if c.laneState n = 1 then c.setLane n { c.lane n with kept := false } else c

/-- A reset that reaches page LANEn (R426): OFF, the transmitter in electrical idle; a BLOCK reset of the lane ends its
scan (R424). -/
def Chip.resetLane (n : Nat) (c : Chip) : Chip :=
  { (((c.irisLaneLost n).ethLaneDown n).resetPage (pgLANE n)) with lanes := drop (· == n) c.lanes }

end Sys2Proof.Machine
end

