-- ==== Sys2Proof/Machine/Eth.lean ====
section
/-! DEFINITION. Larkspur Ethernet (R432 to R450): rings, transmit selection, gates, launch times, pauses, the placing
of received frames. The receive steps that lead to streams and to the wake detector stand in Machine/Stream.lean. -/

namespace Sys2Proof.Machine

/-- Port `p`. -/
def Chip.ethSt (c : Chip) (p : Nat) : EthSt := look ethReset c.eth p

/-- Port `p` becomes `x`. -/
def Chip.setEth (c : Chip) (p : Nat) (x : EthSt) : Chip := { c with eth := put c.eth p x }

/-! Rings (R434 to R437). -/

/-- The key of a ring register at relative offset `o`. -/
def ringKey (p : Nat) (tx : Bool) (k o : Nat) : Nat := 0x7_0000 + 0x1000 * p + (if tx then 0x200 else 0x400) + 0x20 * k + o

/-- EN, the size, HEAD, TAIL, the base of a ring. SIZELOG above 10 acts as 10 (DESIGN CHOICE, log entry 13). -/
def Chip.ringEn (c : Chip) (p : Nat) (tx : Bool) (k : Nat) : Bool := c.rdb (ringKey p tx k 0x08) 0
def Chip.ringSize (c : Chip) (p : Nat) (tx : Bool) (k : Nat) : Nat :=
  2 ^ (min 10 (c.rdf (ringKey p tx k 0x08) 11 8) + 2)
def Chip.ringHead (c : Chip) (p : Nat) (tx : Bool) (k : Nat) : Nat := c.rdf (ringKey p tx k 0x10) 11 0
def Chip.ringTail (c : Chip) (p : Nat) (tx : Bool) (k : Nat) : Nat := c.rdf (ringKey p tx k 0x0C) 11 0
def Chip.ringBaseAddr (c : Chip) (p : Nat) (tx : Bool) (k : Nat) : Nat :=
  c.rdf (ringKey p tx k 0x04) 7 0 * 2 ^ 32 + (c.rd (ringKey p tx k 0)).toNat

/-- STAT.ACTIVE of a ring (R437). -/
def Chip.ringActive (c : Chip) (p : Nat) (tx : Bool) (k : Nat) : Bool := c.rdb (ringKey p tx k 0x14) 0

/-- ERR_INFO of an ETH page (R457). -/
def ethInfo (tx : Bool) (k o : Nat) : Word := word (k + b2n tx * 0x10 + o * 0x100)

/-- The Larkspur master port of a port (R433). -/
def ethPort (p : Nat) : Nat := 10 + p / 2

/-- The frames of ring `k` that have not left the FIFO or the line. -/
def EthSt.ofRing (x : EthSt) (k : Nat) : List EthTx :=
  (x.sending.toList ++ x.txq).filter (fun f => f.ring == k)

/-- A ring takes its configuration and starts empty (R437). -/
def Chip.ringEnable (p : Nat) (tx : Bool) (k : Nat) (v : Word) (c : Chip) : Chip :=
  let key := ringKey p tx k 0x08
  let mask : Word := if tx then 0x0017_0F01 else 0x0000_0F01
  let w := v &&& mask
  if c.ringEn p tx k then
    if c.rd key = w then c else c.err (pgETH p) 0x01 (ethInfo tx k (key % 0x1000))
  else
    let c1 := ((((c.wr key w).wr (ringKey p tx k 0x0C) 0).wr (ringKey p tx k 0x10) 0).wr (ringKey p tx k 0x14) 1)
    let x := c1.ethSt p
    if tx then c1.setEth p { x with txq := x.txq.filter (fun f => f.ring != k) }
    else c1.setEth p { x with rxq := x.rxq.filter (fun f => f.ring != k) }

def execRingEnable (p : Fin 4) (tx : Bool) (k : Fin 16) (v : Word) (s : State) : Host.Outcome State Fault Refusal :=
  s.onChip (Chip.ringEnable p tx k (v ||| 1))

/-- A cleared EN takes effect at the ring's next frame boundary (R437). -/
def Chip.ringDisable (p : Nat) (tx : Bool) (k : Nat) (c : Chip) : Chip :=
  let x := c.ethSt p
  if c.ringEn p tx k || (tx && x.sending.any (fun f => f.ring == k)) then c
  else
    let c1 := c.wrb (ringKey p tx k 0x14) 0 false
    if tx then c1.setEth p { x with txq := x.txq.filter (fun f => f.ring != k) } else c1

def execRingDisable (p : Fin 4) (tx : Bool) (k : Fin 16) (s : State) : Host.Outcome State Fault Refusal :=
  s.onChip (Chip.ringDisable p tx k)

/-- A write of a ring's CFG (R437): EN set enables it; EN cleared keeps the rest, which is locked, and ACTIVE until the
boundary; frames that wait to be sent start no more. -/
def Chip.ringCfgWrite (p : Nat) (tx : Bool) (k : Nat) (v : Word) (c : Chip) : Chip :=
  let key := ringKey p tx k 0x08
  let w := v &&& (if tx then 0x0017_0F01 else 0x0000_0F01)
  if bit v 0 then c.ringEnable p tx k v
  else if c.ringEn p tx k then
    let x := c.ethSt p
    let c1 := (c.wrb key 0 false).setEth p (if tx then { x with txq := x.txq.filter (fun f => f.ring != k) } else x)
    if setBit (c.rd key) 0 false = w then c1 else c1.err (pgETH p) 0x01 (ethInfo tx k (key % 0x1000))
  else c.wr key w

/-- A write of a ring's BASE (R437). -/
def Chip.ringBaseWrite (p : Nat) (tx : Bool) (k o : Nat) (v : Word) (c : Chip) : Chip :=
  if c.ringEn p tx k then c.err (pgETH p) 0x01 (ethInfo tx k (ringKey p tx k o % 0x1000))
  else c.wr (ringKey p tx k o) (if o = 0 then v &&& 0xFFFF_FFE0 else v &&& 0xFF)

/-- A write of TAIL (R435). -/
def Chip.ringTailWrite (p : Nat) (tx : Bool) (k : Nat) (v : Word) (c : Chip) : Chip :=
  let n := fld v 11 0
  if c.ringSize p tx k ≤ n then c.err (pgETH p) 0x02 (ethInfo tx k (ringKey p tx k 0x0C % 0x1000))
  else
    let c1 := c.wr (ringKey p tx k 0x0C) (word n)
    if !tx && n != c.ringHead p tx k then c1.wrb (ringKey p tx k 0x14) 1 false else c1

def execRingTailWrite (p : Fin 4) (tx : Bool) (k : Fin 16) (v : Word) (s : State) :
    Host.Outcome State Fault Refusal := s.onChip (Chip.ringTailWrite p tx k v)

/-- The address of descriptor `i`. -/
def Chip.descAddr (c : Chip) (p : Nat) (tx : Bool) (k i : Nat) : Nat := (c.ringBaseAddr p tx k + 32 * i) % 2 ^ 40

/-- A read and a write of the port as a bus master; an access that has to wait lets the command wait (log entry 125). -/
def Dev.ethRead (d : Dev) (p a n : Nat) : Nat × List Byte × Dev :=
  (d.stallOn (d.chip.mustWait (ethPort p) 0 false ((lineParts (n / 32 + 2) a n).map (·.1)))).wideRead (ethPort p) a n
def Dev.ethWriteMem (d : Dev) (p a : Nat) (l : List Byte) : Nat × Dev :=
  (d.stallOn (d.chip.mustWait (ethPort p) 0 true ((lineParts (l.length / 32 + 2) a l.length).map (·.1)))).wideWrite
    (ethPort p) a l

/-- A descriptor's first sixteen bytes: the outcome, BUF, CTL and LTIME. -/
def Dev.descRead (d : Dev) (p : Nat) (tx : Bool) (k i : Nat) : Nat × Nat × Word × Word × Dev :=
  let (r, l, d1) := d.ethRead p (d.chip.descAddr p tx k i) 16
  (r, leAt l 0 5, word (leAt l 8 4), word (leAt l 12 4), d1)

/-- A descriptor closes (R436): TSTAMP first, then STAT; HEAD moves past it, and IRQ sets its ring's bit. -/
def Dev.descClose (d : Dev) (p : Nat) (tx : Bool) (k i : Nat) (irq : Bool) (stat : Word) (stamp : Option Word) : Dev :=
  let a := d.chip.descAddr p tx k i
  let d1 := match stamp with
    | some t => (d.ethWriteMem p (a + 0x14) (wordBytes t)).2
    | none => d
  let d2 := (d1.ethWriteMem p (a + 0x10) (wordBytes stat)).2
  d2.chipOp (fun c =>
    let c1 := c.wr (ringKey p tx k 0x10) (word ((i + 1) % c.ringSize p tx k))
    if irq then c1.wrb (Reg.ETH_RING_IRQ p) (k + 16 * b2n tx) true else c1)

/-- A ring stops on an error (R438, R448): EN clears, DESC_ERR and the record; a transmit ring stays ACTIVE until its
earlier frames have gone. -/
def Chip.ringStop (c : Chip) (p : Nat) (tx : Bool) (k code : Nat) : Chip :=
  let c1 := c.wrb (ringKey p tx k 0x08) 0 false
  ((if tx then c1 else c1.wrb (ringKey p tx k 0x14) 0 false).irq (pgETH p) 6).err (pgETH p) code (ethInfo tx k 0)

/-! The line. -/

/-- LINK (R432). -/
def Chip.ethLink (c : Chip) (p : Nat) : Bool := c.rdb (Reg.ETH_STAT p) 0

/-- The port sends Remote Fault while its lane is not LOCKED (R432). -/
def Chip.sendsFault (c : Chip) (p : Nat) : Bool := c.en (pgETH p) && c.laneState p != 5

/-- LINK changes with the lane's lock and the faults received (R432). -/
def Chip.ethLinkChange (p : Nat) (lf rf : Bool) (c : Chip) : Chip :=
  let up := c.laneState p == 5 && !lf && !rf
  let c1 := ((c.wrb (Reg.ETH_STAT p) 1 lf).wrb (Reg.ETH_STAT p) 2 rf).wrb (Reg.ETH_STAT p) 0 up
  if up == c.ethLink p then c1 else c1.irq (pgETH p) (if up then 0 else 1)

def execEthLinkChange (p : Fin 4) (localFault remoteFault : Bool) (s : State) : Host.Outcome State Fault Refusal :=
  s.onChip (Chip.ethLinkChange p localFault remoteFault)

/-- Tenths of a nanosecond that a bit takes: 10.0 or 25.0 Gb/s (R405). -/
def Chip.bitTenths (c : Chip) (p : Nat) : Nat := if c.rdb (Reg.LANE_CFG p) 0 then 4 else 10

/-- A frame's length on the line without FCS: padded to 60 (R438). -/
def EthTx.len (f : EthTx) : Nat := max 60 f.bytes.length

/-- The time in ns that a frame of `n` bytes and 24 more takes (R441). -/
def Chip.frameNs (c : Chip) (p n : Nat) : Nat := ceilDiv ((n + 24) * 8 * c.bitTenths p) 100

/-! Gates (R441, R442). -/

/-- A copy's entry: 0 is copy 0's entry 0, 512 copy 1's. -/
def Chip.gateEntry (c : Chip) (p i : Nat) : Word := look 0 (c.ethSt p).gates i

/-- OPER (R442). -/
def Chip.gclOper (c : Chip) (p : Nat) : Nat := c.rdf (Reg.ETH_GCL_CFG p) 8 8

/-- An entry's INTERVAL; 0 acts as 1. -/
def Chip.gateInterval (c : Chip) (p e : Nat) : Nat := max 1 (fld (c.gateEntry p (512 * c.gclOper p + e)) 23 0)

/-- Whether gates are in force, and the states of the present entry. -/
def Chip.gatesRun (c : Chip) (p : Nat) : Bool := c.rdb (Reg.ETH_GCL_CFG p) 0 && (c.ethSt p).list.isSome
def Chip.gatesNow (c : Chip) (p : Nat) : Nat :=
  if c.gatesRun p then fld (c.gateEntry p (512 * c.gclOper p + (c.ethSt p).entry)) 31 24 else 0xFF

/-- The entry after `e`, which starts `o` ns into the cycle, and where it starts: entry 0 of the next cycle when the
list or the cycle ends first (R441). -/
def Chip.gateNext (c : Chip) (p : Nat) (g : GateList) (e o : Nat) : Nat × Nat :=
  let o' := o + c.gateInterval p e
  if e + 1 < g.len ∧ o' < g.cycle then (e + 1, o') else (0, g.cycle)

/-- The time in ns from offset `o` of entry `e` until gate `t` closes, looking through at most `n` entries. -/
def Chip.gateLeft (c : Chip) (p t : Nat) (g : GateList) : Nat → Nat → Nat → Nat
  | 0, _, _ => 2 ^ 32
  | n + 1, e, o =>
    if (fld (c.gateEntry p (512 * c.gclOper p + e)) 31 24).testBit t then
      let (e', o') := c.gateNext p g e o
      (o' - o) + c.gateLeft p t g n e' (if e' = 0 then 0 else o')
    else 0

/-- Whether the gate of class `t` permits a frame of `n` bytes now (R441). -/
def Chip.gatePermits (c : Chip) (p t n : Nat) : Bool :=
  match (c.ethSt p).list with
  | none => true
  | some g =>
    if !c.gatesRun p then true
    else if !(c.gatesNow p).testBit t then false
    else if !c.rdb (Reg.ETH_GCL_CFG p) 1 then true
    else
      let x := c.ethSt p
      let o := (x.entryAt - g.start).toNat
      decide (c.frameNs p n + (c.now - x.entryAt).toNat ≤ c.gateLeft p t g 1024 x.entry o)

/-- The present entry's interval ends (R441). -/
def Chip.gateAdvance (p : Nat) (c : Chip) : Chip :=
  let x := c.ethSt p
  match x.list with
  | none => c
  | some g =>
    let o := (x.entryAt - g.start).toNat
    let (e, o') := c.gateNext p g x.entry o
    let at' := g.start + word o'
    c.setEth p { x with entry := e, entryAt := at', list := some (if e = 0 then { g with start := at' } else g) }

def execGateEntryAdvance (p : Fin 4) (s : State) : Host.Outcome State Fault Refusal := s.onChip (Chip.gateAdvance p)

/-- GCL_CMD.ARM (R442). -/
def Chip.gclArm (p : Nat) (c : Chip) : Chip :=
  let x := c.ethSt p
  let len := c.rdf (Reg.ETH_GCL_LEN p) 9 0
  let cycle := (c.rd (Reg.ETH_GCL_CYCLE p)).toNat
  let base := c.rd (Reg.ETH_GCL_BASE p)
  if x.armed.isSome then c.err (pgETH p) 0x05 0
  else if len < 1 ∨ 512 < len then c.err (pgETH p) 0x02 (ethInfo false 0 0x104)
  else if cycle < 1 ∨ 1000000000 < cycle then c.err (pgETH p) 0x02 (ethInfo false 0 0x108)
  else
    let d := (c.now + 1000 - base).toInt
    let at' := if d ≤ 0 then base else base + word (ceilDiv d.toNat cycle * cycle)
    (c.setEth p { x with armed := some { len := len, cycle := cycle, start := at' } }).wrb (Reg.ETH_STAT p) 17 true

def execGclArm (p : Fin 4) (s : State) : Host.Outcome State Fault Refusal := s.onChip (Chip.gclArm p)

/-- GCL_CMD.DISARM (R442). -/
def Chip.gclDisarm (p : Nat) (c : Chip) : Chip :=
  (c.setEth p { c.ethSt p with armed := none }).wrb (Reg.ETH_STAT p) 17 false

def execGclDisarm (p : Fin 4) (s : State) : Host.Outcome State Fault Refusal := s.onChip (Chip.gclDisarm p)

/-- The armed instant arrives (R442): the new copy starts its cycle at entry 0 and OPER toggles. -/
def Chip.gclSwitch (p : Nat) (c : Chip) : Chip :=
  let x := c.ethSt p
  match x.armed with
  | none => c
  | some g =>
    let o := c.gclOper p == 0
    ((((c.setEth p { x with armed := none, list := some g, entry := 0, entryAt := g.start }).wrb
      (Reg.ETH_GCL_CFG p) 8 o).wrb (Reg.ETH_STAT p) 16 o).wrb (Reg.ETH_STAT p) 17 false).irq (pgETH p) 5

def execGclSwitch (p : Fin 4) (s : State) : Host.Outcome State Fault Refusal := s.onChip (Chip.gclSwitch p)

/-- A write of ETHp_GCL_CMD (R669). -/
def Chip.gclCmd (p : Nat) (v : Word) (c : Chip) : Chip :=
  let c1 := if bit v 0 then c.gclArm p else c
  if bit v 1 then c1.gclDisarm p else c1

/-- The selected entry of the gate lists. -/
def Chip.gclSel (c : Chip) (p : Nat) : Nat := c.rdf (Reg.ETH_GCL_SEL p) 9 9 * 512 + c.rdf (Reg.ETH_GCL_SEL p) 8 0

/-- A write of ETHp_GCL_DATA (R442). -/
def Chip.gclDataWrite (p : Nat) (v : Word) (c : Chip) : Chip :=
  let x := c.ethSt p
  if c.rdf (Reg.ETH_GCL_SEL p) 9 9 = c.gclOper p ∨ x.armed.isSome then c.err (pgETH p) 0x05 0
  else c.setEth p { x with gates := put x.gates (c.gclSel p) v }

/-! Pauses (R447). -/

/-- The time in ns of one quantum: 512 bit times, in hundredths. -/
def Chip.quantumHundredths (c : Chip) (p : Nat) : Nat := if c.rdb (Reg.LANE_CFG p) 0 then 2048 else 5120

/-- ETHp_PAUSE_LEFT. -/
def Chip.pauseLeft (c : Chip) (p : Nat) : Nat :=
  let x := c.ethSt p
  if c.rdb (Reg.ETH_STAT p) 3 then x.quanta - (c.now - x.pauseAt).toNat * 100 / c.quantumHundredths p else 0

/-- A timer is loaded with `q` quanta: the PAUSE timer, or the one of a class; 0 ends the pause at once. -/
def Chip.pauseLoad (c : Chip) (p : Nat) (cls : Option Nat) (q : Nat) : Chip :=
  match cls with
  | none => (c.setEth p { c.ethSt p with quanta := q, pauseAt := c.now }).wrb (Reg.ETH_STAT p) 3 (q != 0)
  | some t => c.wrb (Reg.ETH_STAT p) (8 + t) (q != 0)

/-- A timer is loaded now, or once the frame on the line completes; a pause of 0 quanta ends the timer's pause at once. -/
def Chip.pauseFor (c : Chip) (p : Nat) (cls : Option Nat) (q : Nat) : Chip :=
  let x := c.ethSt p
  let others := x.waiting.filter (fun e => e.1 != cls)
  if q = 0 then (c.setEth p { x with waiting := others }).pauseLoad p cls 0
  else if x.sending.isSome || x.strmOut.isSome then c.setEth p { x with waiting := others ++ [(cls, q)] }
  else c.pauseLoad p cls q

/-- A MAC control frame (R447). -/
def Chip.macControl (c : Chip) (p : Nat) (f : List Byte) : Chip :=
  let op := beAt f 14 2
  if op = 0x0001 ∧ c.rdb (Reg.ETH_CFG p) 8 then (c.pauseFor p none (beAt f 16 2)).irq (pgETH p) 4
  else if op = 0x0101 ∧ c.rdb (Reg.ETH_CFG p) 9 then
    (forUpTo 8 (fun t c => if (beAt f 16 2).testBit t then c.pauseFor p (some t) (beAt f (18 + 2 * t) 2) else c) c).irq
      (pgETH p) 4
  else c

/-- A pause timer counts out: the PAUSE timer (none) or the one of a class. -/
def Chip.pauseExpiry (p : Nat) (cls : Option Nat) (c : Chip) : Chip := c.pauseLoad p cls 0

def execPauseExpiry (p : Fin 4) (cls : Option (Fin 8)) (s : State) : Host.Outcome State Fault Refusal :=
  s.onChip (Chip.pauseExpiry p (cls.map (·.val)))

/-- Whether class `t` is paused. -/
def Chip.paused (c : Chip) (p t : Nat) : Bool := c.rdb (Reg.ETH_STAT p) 3 || c.rdb (Reg.ETH_STAT p) (8 + t)

/-- The frame on the line has gone: timers that waited for it are loaded. -/
def Chip.lineFree (c : Chip) (p : Nat) : Chip :=
  let x := c.ethSt p
  x.waiting.foldl (fun c e => c.pauseLoad p e.1 e.2)
    (c.setEth p { x with sending := none, strmOut := none, waiting := [] })

/-! Transmit (R438 to R443). -/

/-- A frame's descriptors close with flags (R436, R438); a drop is counted. -/
def Dev.txClose (d : Dev) (p : Nat) (f : EthTx) (stat : Word) (stamp : Option Word) : Dev :=
  let d1 := f.descs.foldl (fun d e =>
    d.descClose p true f.ring e.1 e.2 stat (if f.descs.getLast? = some e then stamp else none)) d
  if bit stat 2 then d1.chipOp (·.count (Reg.ETH_TX_DROPS p f.ring)) else d1

/-- The first frame of ring `k` in the FIFO. -/
def EthSt.head (x : EthSt) (k : Nat) : Option EthTx := x.txq.find? (fun f => f.ring == k)

/-- The first frame of ring `k` becomes `f`. -/
def replaceHead (k : Nat) (f : EthTx) : List EthTx → List EthTx
  | [] => []
  | e :: t => if e.ring == k then f :: t else e :: replaceHead k f t

/-- The first frame of ring `k` leaves. -/
def dropHead (k : Nat) : List EthTx → List EthTx
  | [] => []
  | e :: t => if e.ring == k then t else e :: dropHead k t

/-- A launch frame is late (R443): counted and flagged; dropped, or eligible at once, as LATEPOL says. -/
def Chip.launchLate (c : Chip) (p : Nat) (f : EthTx) : EthTx × Chip :=
  let c1 := (c.count (Reg.ETH_TX_LATE p)).irq (pgETH p) 3
  if c.rdb (Reg.ETH_TX_CFG p f.ring) 20 then ({ f with due := true, late := true }, c1)
  else ({ f with due := true, late := true, dead := 0x8000_0006 }, c1)

/-- What a frame meets as it reaches its ring's head: without LINK under DROPDOWN it is dropped (R440), a launch time
already past makes it late (R443). -/
def Chip.atRingHead (c : Chip) (p k : Nat) : Chip :=
  let x := c.ethSt p
  match x.head k with
  | none => c
  | some f =>
    if f.atHead then c
    else
      let g := { f with atHead := true }
      let (f1, c1) :=
        if f.dead ≠ 0 then (g, c)
        else if !c.ethLink p && c.rdb (Reg.ETH_CFG p) 10 then ({ g with dead := 0x8000_0004 }, c)
        else if !f.due && f.launch.any (fun l => before l c.now) then c.launchLate p g
        else (g, c)
      c1.setEth p { c1.ethSt p with txq := replaceHead k f1 x.txq }

/-- Dead frames at the head of ring `k` close, once no earlier frame of the ring is on the line (R436). -/
def Dev.closeDead : Nat → Nat → Nat → Dev → Dev
  | 0, _, _, d => d
  | n + 1, p, k, d =>
    let d0 := d.chipOp (·.atRingHead p k)
    let x := d0.chip.ethSt p
    match x.head k with
    | none => d0
    | some f =>
      if f.dead = 0 ∨ x.sending.any (fun g => g.ring == k) then d0
      else
        let d1 := d0.txClose p f f.dead none
        Dev.closeDead n p k (d1.chipOp (fun c => c.setEth p { c.ethSt p with txq := dropHead k (c.ethSt p).txq }))

/-- `closeDead` for as many frames as the FIFO holds. -/
def Dev.ringHeads (d : Dev) (p k : Nat) : Dev := Dev.closeDead ((d.chip.ethSt p).txq.length + 1) p k d

/-- What fetching a frame comes to: it is not all owned, it is invalid, a fetch failed, or it is whole. -/
inductive TxFetch where
  | short | invalid
  | failed (descs : List (Nat × Bool))
  | whole (f : EthTx)
deriving DecidableEq, Repr

/-- Descriptor by descriptor from index `i`, at most `n` of them owned (R438); the buffers are read as they come. -/
def Dev.txGather (p k size : Nat) : Nat → Nat → EthTx → Nat → Dev → TxFetch × Dev
  | 0, _, _, _, d => (.short, d)
  | n + 1, i, f, bad, d =>
    let (r, buf, ctl, ltime, d1) := d.descRead p true k i
    let descs := f.descs ++ [(i, bit ctl 19)]
    if r ≠ 0 then (.failed descs, d1)
    else if fld ctl 13 0 = 0 ∨ (bit ctl 16 = f.descs.isEmpty) = false then (.invalid, d1)
    else
      let (r2, l, d2) := d1.ethRead p buf (fld ctl 13 0)
      let f1 : EthTx := { f with
        descs := descs, bytes := f.bytes ++ l
        launch := if bit ctl 16 && bit ctl 18 then some ltime else f.launch }
      let bad' := max bad r2
      if bit ctl 17 then (if bad' ≠ 0 then .failed descs else .whole f1, d2)
      else Dev.txGather p k size n ((i + 1) % size) f1 bad' d2

/-- Whether a run of owned descriptors from `i`, the frame's first when `first`, holds an END or a fault: without either
nothing is fetched yet. -/
def Dev.txOwnsEnd (d : Dev) (p k size : Nat) : Nat → Bool → Nat → Bool
  | 0, _, _ => false
  | n + 1, first, i =>
    let (r, _, ctl, _, _) := d.descRead p true k i
    r != 0 || bit ctl 17 || fld ctl 13 0 == 0 || bit ctl 16 != first ||
      d.txOwnsEnd p k size n false ((i + 1) % size)

/-- The bytes that the transmit FIFO holds (R433). -/
def EthSt.txBytes (x : EthSt) : Nat := (x.sending.toList ++ x.txq).foldl (fun a f => a + f.bytes.length) 0

/-- A frame too long for ETHp_MAXLEN closes with LEN_ERR; its bytes need no room (R438). -/
def Chip.txTrim (c : Chip) (p : Nat) (f : EthTx) : EthTx :=
  if c.rdf (Reg.ETH_MAXLEN p) 13 0 < f.bytes.length + 4 then { f with dead := 0x8000_0014, launch := none, bytes := [] }
  else f

/-- A fetched frame enters the FIFO: a launch frame whose last byte comes after L - 1 µs is late (R443). -/
def Dev.txEnter (d : Dev) (p : Nat) (f : EthTx) : Dev :=
  let c := d.chip
  let (f1, c1) := if f.launch.any (fun l => before (l - 1000) c.now) then c.launchLate p f else (f, c)
  { d with chip := c1.setEth p { c1.ethSt p with txq := (c1.ethSt p).txq ++ [f1] } }

/-- Larkspur fetches the next owned frame of ring `k` (R438), none while IDLE_REQ = 1 (R55, R457). -/
def Dev.txFetch (p k : Nat) (d : Dev) : Dev :=
  let c := d.chip
  let x := c.ethSt p
  let size := c.ringSize p true k
  let used := (x.ofRing k).foldl (fun a f => a + f.descs.length) 0
  let i := (c.ringHead p true k + used) % size
  let owned := (c.ringTail p true k + size - i) % size
  if !(c.en (pgETH p) && c.ringEn p true k) || c.idleReq (pgETH p) || owned == 0 then d
  else if !d.txOwnsEnd p k size owned true i then d
  else
    let f0 : EthTx := { ring := k, descs := [], bytes := [], launch := none, due := false, late := false, atHead := false, dead := 0 }
    let (r, d1) := Dev.txGather p k size owned i f0 0 d
    match r with
    | .short => d1
    | .invalid => d1.chipOp (·.ringStop p true k 0x04)
    | .failed ds =>
      let d2 := d1.txEnter p { f0 with descs := ds, dead := 0x8000_000C }
      (d2.chipOp (·.ringStop p true k 0x03)).ringHeads p k
    | .whole f =>
      let f1 := c.txTrim p f
      if 20480 < x.txBytes + f1.bytes.length then d else (d1.txEnter p f1).ringHeads p k

def execTxFrameFetch (p : Fin 4) (k : Fin 16) (s : State) : Host.Outcome State Fault Refusal :=
  s.onDev (Dev.orWait (Dev.txFetch p k))

/-- TC of a ring. -/
def Chip.ringTc (c : Chip) (p k : Nat) : Nat := c.rdf (Reg.ETH_TX_CFG p k) 18 16

/-- Whether the transmission of a frame of `n` bytes would not end before the launch time, still to come, of a frame in
the FIFO (R443). -/
def Chip.spoilsLaunch (c : Chip) (p n : Nat) : Bool :=
  (c.ethSt p).txq.any (fun f => f.dead == 0 && !f.due && f.launch.any (fun l =>
    !before l c.now && !before (c.now + word (ceilDiv ((n + 12) * 8 * c.bitTenths p) 100)) l))

/-- Whether the head frame of ring `k` is eligible (R439). -/
def Chip.ringEligible (c : Chip) (p k : Nat) : Bool :=
  match (c.ethSt p).head k with
  | none => false
  | some f => f.dead == 0 && c.ethLink p && c.gatePermits p (c.ringTc p k) f.len && !c.paused p (c.ringTc p k) &&
      (f.launch.isNone || f.due) && !c.spoilsLaunch p f.len

/-- The eligible ring of class `t` after the one last served (R439). -/
def Chip.ringOfClass (c : Chip) (p t : Nat) : Option Nat :=
  let last := look 15 (c.ethSt p).rr t
  (((List.range 16).map (fun i => (last + 1 + i) % 16)).filter (fun k => c.ringTc p k == t && c.ringEligible p k)).head?

/-- A launch frame whose time has come and that is not late leaves then (R443), before what its class or another could
send. -/
def Chip.launchNow (c : Chip) (p : Nat) : Option Nat :=
  (indices 16 (fun k => ((c.ethSt p).head k).any (fun f => f.launch.isSome && f.due && !f.late && f.dead == 0))).head?

/-- The first packet of a stream in class `t` that may leave (R473): without LINK it has been dropped before. -/
def Chip.strmOfClass (c : Chip) (p t : Nat) : Option (List Byte) :=
  match (c.ethSt p).strm.find? (fun e => e.1 == t) with
  | none => none
  | some e =>
    let n := max 60 e.2.length
    if c.ethLink p && c.gatePermits p t n && !c.paused p t && !c.spoilsLaunch p n then some e.2 else none

/-- Takes the first packet of class `t` away. -/
def dropStrm (t : Nat) : List (Nat × List Byte) → List (Nat × List Byte)
  | [] => []
  | e :: r => if e.1 == t then r else e :: dropStrm t r

/-- The head frame of ring `k` starts. Its transmit stamp lies within 2 ns of its start, which for a launch frame that
is not late is its launch time (R396, R443). -/
def Chip.ringSends (c : Chip) (p k : Nat) : Chip :=
  let x := c.ethSt p
  match x.head k with
  | some f => c.setEth p { x with
      txq := dropHead k x.txq, sending := some f, rr := put x.rr (c.ringTc p k) k
      sentAt := if f.late then c.now else f.launch.getD c.now }
  | none => c

/-- At a frame boundary the frame of the highest class that has an eligible one starts; a stream's packet goes ahead of
the rings of its class (R439, R473). -/
def Chip.txPick (c : Chip) (p : Nat) : Nat → Chip
  | 0 => c
  | t + 1 =>
    let x := c.ethSt p
    match c.strmOfClass p t, c.ringOfClass p t with
    | some b, _ => c.setEth p { x with strm := dropStrm t x.strm, strmOut := some b, sentAt := c.now }
    | none, some k => c.ringSends p k
    | none, none => c.txPick p t

/-- Whether the line is idle and the MAC may start a frame (R432). -/
def Chip.lineIdle (c : Chip) (p : Nat) : Bool :=
  let x := c.ethSt p
  c.en (pgETH p) && c.rdb (Reg.ETH_CFG p) 1 && x.sending.isNone && x.strmOut.isNone

/-- Packets of streams are dropped while LINK = 0 (R473). -/
def Chip.strmDrop (c : Chip) (p : Nat) : Chip :=
  if c.ethLink p || (c.ethSt p).strm.isEmpty then c else c.setEth p { c.ethSt p with strm := [] }

/-- Every ring's head is looked at, and dead heads close. -/
def Dev.allHeads (d : Dev) (p : Nat) : Dev := forUpTo 16 (fun k d => d.ringHeads p k) d

def Dev.txStart (p : Nat) (d : Dev) : Dev :=
  let d1 := (d.allHeads p).chipOp (·.strmDrop p)
  if d1.chip.lineIdle p then
    (d1.chipOp (fun c => match c.launchNow p with
      | some k => c.ringSends p k
      | none => c.txPick p 8)).allHeads p
  else d1

def execTxFrameStart (p : Fin 4) (s : State) : Host.Outcome State Fault Refusal := s.onDev (Dev.orWait (Dev.txStart p))

/-- A stamp `w` of an event at short time `t`: within 2 ns of it (R396). -/
def stampOf (t w : Word) : Word := t + BitVec.ofInt 32 (clampInt (-2) 2 (w - t).toInt)

/-- A frame has left (R434, R436): its descriptors close with SENT and the stamp; timers that waited are loaded. -/
def Dev.txDone (p : Nat) (stamp : Word) (d : Dev) : Dev :=
  let x := d.chip.ethSt p
  match x.sending with
  | some f =>
    let d1 := d.txClose p f (if f.late then 0x8000_0003 else 0x8000_0001) (some (stampOf x.sentAt stamp))
    (d1.chipOp (fun c => (c.lineFree p).count (Reg.ETH_TX_FRAMES p))).ringHeads p f.ring
  | none =>
    if x.strmOut.isSome then d.chipOp (fun c => (c.lineFree p).count (Reg.ETH_TX_FRAMES p)) else d

def execTxFrameDone (p : Fin 4) (stamp : Word) (s : State) : Host.Outcome State Fault Refusal :=
  s.onDev (Dev.orWait (Dev.txDone p stamp))

/-- The short time reaches the launch time of the head frame of ring `k` (R443): late when its gate, a pause, the link
or another launch frame on the line forbids it, else eligible. -/
def Dev.launchTime (p k : Nat) (d : Dev) : Dev :=
  let c := d.chip
  let x := c.ethSt p
  match x.head k with
  | none => d
  | some f =>
    if f.launch.isNone || f.due || f.dead != 0 then d
    else
      let t := c.ringTc p k
      let late := !c.ethLink p || c.paused p t || !c.gatePermits p t f.len ||
        x.sending.any (fun g => !g.late && g.launch.any (fun l => f.launch.any (before l ·)))
      let (f1, c1) := if late then c.launchLate p f else ({ f with due := true }, c)
      ({ d with chip := c1.setEth p { c1.ethSt p with txq := replaceHead k f1 x.txq } } : Dev).ringHeads p k

def execLaunchTime (p : Fin 4) (k : Fin 16) (s : State) : Host.Outcome State Fault Refusal :=
  s.onDev (Dev.orWait (Dev.launchTime p k))

/-! Placing received frames (R448). -/

/-- A frame, or the rest of one, that its ring drops (R446, R448). -/
def Chip.rxLost (c : Chip) (p k : Nat) : Chip := (c.count (Reg.ETH_RX_DROPS p k)).irq (pgETH p) 2

/-- A frame that its ring drops for want of a descriptor (R448). -/
def Chip.rxNoBuf (c : Chip) (p k : Nat) : Chip :=
  ((c.rxLost p k).wrb (Reg.ETH_RING_IRQ p) k true).wrb (ringKey p false k 0x14) 1 true

/-- Descriptor by descriptor, at most `n` of them owned. -/
def Dev.rxFill (p k : Nat) (flags stamp : Word) : Nat → Bool → List Byte → Dev → Dev
  | 0, _, _, d => d
  | n + 1, first, l, d =>
    let i := d.chip.ringHead p false k
    let (r, buf, ctl, _, d1) := d.descRead p false k i
    if r ≠ 0 then d1.chipOp (fun c => (c.ringStop p false k 0x03).rxLost p k)
    else
      let here := l.take (fld ctl 13 0)
      let rest := l.drop (fld ctl 13 0)
      let (r2, d2) := d1.ethWriteMem p buf here
      let base := flags ||| word here.length ||| (if first then 0x1_0000 else 0) ||| 0x8000_0000
      let ts := if first then some stamp else none
      if r2 ≠ 0 then
        let d3 := d2.descClose p false k i (bit ctl 19) (base ||| 0x42_0000) ts
        d3.chipOp (fun c => (c.ringStop p false k 0x03).rxLost p k)
      else if rest.isEmpty then
        (d2.descClose p false k i (bit ctl 19) (base ||| 0x2_0000) ts).chipOp (·.count (Reg.ETH_RX_FRAMES p))
      else if n = 0 then
        (d2.descClose p false k i (bit ctl 19) (base ||| 0xE_0000) ts).chipOp (·.rxNoBuf p k)
      else Dev.rxFill p k flags stamp n false rest (d2.descClose p false k i (bit ctl 19) base ts)

/-- The oldest received frame is placed into its ring (R448), none while IDLE_REQ = 1 (R55, R457). -/
def Dev.rxPlace (p : Nat) (d : Dev) : Dev :=
  let x := d.chip.ethSt p
  match (if d.chip.idleReq (pgETH p) then [] else x.rxq) with
  | [] => d
  | f :: t =>
    let d1 := d.chipOp (fun c => c.setEth p { x with rxq := t })
    let c := d1.chip
    let size := c.ringSize p false f.ring
    let owned := (c.ringTail p false f.ring + size - c.ringHead p false f.ring) % size
    if !c.ringEn p false f.ring then d1.chipOp (fun c => (c.rxLost p f.ring).wrb (Reg.ETH_RING_IRQ p) f.ring true)
    else if owned == 0 then d1.chipOp (·.rxNoBuf p f.ring)
    else Dev.rxFill p f.ring f.flags f.stamp owned true f.bytes d1

def execRxFramePlace (p : Fin 4) (s : State) : Host.Outcome State Fault Refusal := s.onDev (Dev.orWait (Dev.rxPlace p))

/-- ETHp_STATS_CLR (R458). -/
def Chip.ethStatsClr (p : Nat) (v : Word) (c : Chip) : Chip :=
  if bit v 0 then
    let c1 := forUpTo 9 (fun i c => c.wr (Reg.ETH_TX_FRAMES p + 4 * i) 0) c
    forUpTo 16 (fun k c => (c.wr (Reg.ETH_TX_DROPS p k) 0).wr (Reg.ETH_RX_DROPS p k) 0) c1
  else c

def execEthStatsClr (p : Fin 4) (v : Word) (s : State) : Host.Outcome State Fault Refusal :=
  s.onChip (Chip.ethStatsClr p v)

/-! The receive steps (R444 to R446). -/

/-- The CRC-32 hash bit of an address (R445): the six most significant bits. -/
def addrHash (a : List Byte) : Nat := (crc32 a).toNat / 2 ^ 26

/-- The six bytes of ETHp_MAC (R445). -/
def Chip.ethMac (c : Chip) (p : Nat) : List Byte :=
  wordBytes (c.rd (Reg.ETH_MAC_LO p)) ++ (wordBytes (c.rd (Reg.ETH_MAC_HI p))).take 2

/-- Whether a destination address is accepted (R445). -/
def Chip.ethAccepts (c : Chip) (p : Nat) (f : List Byte) : Bool :=
  let a := f.take 6
  let cfg := Reg.ETH_CFG p
  let multi := (byteAt a 0).getLsbD 0
  let bcast := a.all (· == 0xFF)
  a == c.ethMac p || (bcast && c.rdb cfg 5) || (multi && !bcast && c.rdb cfg 4) ||
    (multi && !bcast && c.rdb (if addrHash a < 32 then Reg.ETH_MHASH_LO p else Reg.ETH_MHASH_HI p) (addrHash a % 32)) ||
    c.rdb cfg 3

/-- Where the EtherType stands, after any single VLAN tag. -/
def typeAt (f : List Byte) : Nat := if beAt f 12 2 = 0x8100 then 16 else 12

/-- An IPv4 or IPv6 packet that is not fragmented: where UDP begins (R446). -/
def udpAt (f : List Byte) : Option Nat :=
  let t := typeAt f
  let o := t + 2
  if beAt f t 2 = 0x0800 then
    if beAt f (o + 6) 2 % 0x4000 = 0 ∧ beAt f (o + 9) 1 = 17 ∧ beAt f o 1 / 16 = 4 then some (o + beAt f o 1 % 16 * 4)
    else none
  else if beAt f t 2 = 0x86DD then
    if beAt f (o + 6) 1 = 17 ∧ beAt f o 1 / 16 = 6 then some (o + 40) else none
  else none

/-- Whether filter `i` matches a frame (R446). -/
def Chip.filterMatch (c : Chip) (p i : Nat) (f : List Byte) : Bool :=
  let a := c.rd (Reg.ETH_FLT_A p i)
  let b := c.rd (Reg.ETH_FLT_B p i)
  bit b 0 && (!bit b 1 || beAt f (typeAt f) 2 == fld a 15 0) &&
    (!bit b 2 || (match udpAt f with
      | some u => beAt f (u + 2) 2 == fld a 31 16
      | none => false))

/-- The ring of a frame (R446). -/
def Chip.rxRing (c : Chip) (p : Nat) (f : List Byte) : Nat :=
  match (indices 16 (fun i => c.filterMatch p i f)).head? with
  | some i => c.rdf (Reg.ETH_FLT_B p i) 11 8
  | none =>
    if c.rdb (Reg.ETH_RXDEF p) 8 && beAt f 12 2 == 0x8100 then
      let pcp := beAt f 14 1 / 32
      c.rdf (Reg.ETH_PCPMAP p) (4 * pcp + 3) (4 * pcp)
    else c.rdf (Reg.ETH_RXDEF p) 3 0

/-- A dropped frame (R444). -/
def Chip.rxDrop (c : Chip) (p key : Nat) : Chip := (c.count key).irq (pgETH p) 2

/-- Step 8 (R444, R446): the frame goes to its ring. -/
def Chip.rxToRing (c : Chip) (p : Nat) (f : List Byte) (flags stamp : Word) (woke : Bool) : Chip :=
  let k := c.rxRing p f
  let c0 := if woke then c.wrb (Reg.ETH_RING_IRQ p) k true else c
  if !c0.ringEn p false k then (c0.rxLost p k).wrb (Reg.ETH_RING_IRQ p) k true
  else
    let x := c0.ethSt p
    let isOver := bit flags 20
    let l := if c0.rdb (Reg.ETH_CFG p) 6 && !isOver then f.take (f.length - 4) else f
    let vlan : Word := if beAt f 12 2 = 0x8100 then 0x80_0000 ||| word (beAt f 14 1 / 32 * 2 ^ 24) else 0
    c0.setEth p { x with rxq := x.rxq ++ [{ ring := k, bytes := l, flags := flags ||| vlan, stamp := stamp }] }

/-- The bytes that the receive FIFO holds (R433). -/
def EthSt.rxBytes (x : EthSt) : Nat := x.rxq.foldl (fun a f => a + f.bytes.length) 0

/-- Steps 1 to 4 (R444): the frame that continues, with its flags. -/
def Chip.rxAdmit (c : Chip) (p : Nat) (f : List Byte) (ok : Bool) : Option (List Byte × Word) × Chip :=
  let max := c.rdf (Reg.ETH_MAXLEN p) 13 0
  if f.length < 64 then (none, c.rxDrop p (Reg.ETH_RX_RUNT p))
  else
    let isOver := decide (max < f.length)
    let g := f.take max
    let c1 := if isOver then c.count (Reg.ETH_RX_OVERSIZE p) else c
    if !isOver && !ok && !c.rdb (Reg.ETH_CFG p) 7 then (none, c1.rxDrop p (Reg.ETH_RX_FCSERR p))
    else if 32768 < (c1.ethSt p).rxBytes + g.length then (none, c1.rxDrop p (Reg.ETH_RX_FIFODROP p))
    else (some (g, if isOver then 0x10_0000 else if ok then 0 else 0x20_0000), c1)

/-- The transmit ring's STAT (R441, R458) and the views of the page. -/
def Chip.ethTxStat (c : Chip) (p k : Nat) : Word :=
  let a := c.rd (ringKey p true k 0x14) &&& 1
  match (c.ethSt p).head k with
  | none => a
  | some f =>
    let t := c.ringTc p k
    a ||| word (2 * b2n (!c.gatePermits p t f.len) + 4 * b2n (f.launch.isSome && !f.due) + 8 * b2n (c.paused p t))

/-- The registers of an ETH page that show state: STAT of transmit rings, PAUSE_LEFT, GCL_DATA, GCL_NOW. -/
def Chip.ethView (c : Chip) (p key : Nat) : Option Word :=
  let o := key % 0x1000
  if key = Reg.ETH_PAUSE_LEFT p then some (word (c.pauseLeft p))
  else if key = Reg.ETH_GCL_DATA p then some (c.gateEntry p (c.gclSel p))
  else if key = Reg.ETH_GCL_NOW p then
    some (word (c.gatesNow p + (if c.gatesRun p then (c.ethSt p).entry else 0) * 0x1_0000))
  else if 0x200 ≤ o ∧ o < 0x400 ∧ o % 0x20 = 0x14 then some (c.ethTxStat p ((o - 0x200) / 0x20))
  else none

/-- Setting CTRL.EN of an ETH page (R458). -/
def Chip.ethEnable (p : Nat) (c : Chip) : Chip :=
  let m := c.rdf (Reg.ETH_MAXLEN p) 13 0
  if c.en (pgETH p) then c
  else if m < 1518 ∨ 9216 < m then c.err (pgETH p) 0x02 (ethInfo false 0 0x44)
  else c.wrb (Reg.CTRL (pgETH p)) 0 true

/-- MAXLEN and MAC are locked while EN = 1 (R457). -/
def Chip.ethLockedWrite (p key : Nat) (v : Word) (c : Chip) : Chip :=
  if c.en (pgETH p) then c.err (pgETH p) 0x01 (ethInfo false 0 (key % 0x1000)) else c.wr key v

/-- A reset that reaches page ETHp (R456): rings disabled, FIFOs emptied; `keepWake` holds the WAKE registers of
ETH0. No reset changes the entries of the gate lists (R10, R458). -/
def Chip.resetEth (p : Nat) (keepWake : Bool) (c : Chip) : Chip :=
  let c1 := c.resetRegs (fun k => pageOf k == pgETH p && !(keepWake && decide (Reg.ETH0_WAKE_CFG ≤ k)))
  c1.setEth p { ethReset with gates := (c.ethSt p).gates }

end Sys2Proof.Machine
end

