-- ==== Sys2Proof/Machine/Cb0.lean ====
section
/-! DEFINITION. The CB0 control bus (R451 to R455, R459, R460). -/

namespace Sys2Proof.Machine

/-- CB0 becomes `x`. -/
def Chip.setCb0 (c : Chip) (x : Cb0St) : Chip := { c with cb0 := x }

/-- A dropped frame (R454). -/
def Chip.cb0Drop (c : Chip) : Chip := (c.count Reg.CB0_RX_DROP).irq pgCB0 2

/-- Whether the destination is accepted (R454). -/
def Chip.cb0Accepts (c : Chip) (f : List Byte) : Bool :=
  let a := f.take 6
  let bcast := a.all (· == 0xFF)
  a == wordBytes (c.rd Reg.CB0_MAC_LO) ++ (wordBytes (c.rd Reg.CB0_MAC_HI)).take 2 ||
    (bcast && c.rdb Reg.CB0_CFG 4) || ((byteAt a 0).getLsbD 0 && !bcast && c.rdb Reg.CB0_CFG 5) || c.rdb Reg.CB0_CFG 2

/-- A record's words with whether each is the last (R454). -/
def cb0Record (f : List Byte) (stamp : Word) : List (Word × Bool) :=
  let n := f.length - 4
  let ws := word (n + 2 ^ 31) :: stamp :: bytesWords (ceilDiv n 4) (f.take n)
  ws.dropLast.map (fun w => (w, false)) ++ (ws.getLast?.toList.map (fun w => (w, true)))

/-- A frame arrives (R454): destination address through FCS. -/
def Chip.cb0Receive (f : List Byte) (ok rxer : Bool) (stamp : Word) (c : Chip) : Chip :=
  if !(c.en pgCB0 && c.rdb Reg.CB0_CFG 1) then c
  else if f.length < 64 || 1522 < f.length || !ok || rxer || !c.cb0Accepts f then c.cb0Drop
  else
    let r := cb0Record f stamp
    if 512 < c.cb0.rx.length + r.length then c.cb0Drop
    else ((c.setCb0 { c.cb0 with rx := c.cb0.rx ++ r }).count Reg.CB0_RX_FRAMES).irq pgCB0 0

def execCb0FrameReceived (frame : List Byte) (fcsOk rxer : Bool) (stamp : Word) (s : State) :
    Host.Outcome State Fault Refusal := s.onChip (Chip.cb0Receive frame fcsOk rxer stamp)

/-- A read of CB0_RXDATA (R454). -/
def Chip.cb0RxPop (c : Chip) : Chip :=
  match c.cb0.rx with
  | [] => (c.irq pgCB0 6).ret 0
  | e :: t => (c.setCb0 { c.cb0 with rx := t }).ret e.1

def execCb0RxPop (s : State) : Host.Outcome State Fault Refusal := s.onChip Chip.cb0RxPop

/-- STAT.TX_HALT (R455). -/
def Chip.cb0Halted (c : Chip) : Bool := c.rdb Reg.CB0_STAT 2

/-- A transmit FIFO error (R455): the FIFO is emptied and pushes are dropped. -/
def Chip.cb0Halt (c : Chip) : Chip :=
  ((c.setCb0 { c.cb0 with tx := [], need := 0 }).wrb Reg.CB0_STAT 2 true).irq pgCB0 6

/-- A push into CB0_TXDATA (R455): a header word, then the words of its frame. -/
def Chip.cb0TxPush (v : Word) (c : Chip) : Chip :=
  let x := c.cb0
  if c.cb0Halted then c
  else if 512 ≤ x.tx.length then c.cb0Halt
  else if x.need = 0 then
    let n := fld v 10 0
    if n < 14 ∨ 1518 < n then c.cb0Halt else c.setCb0 { x with tx := x.tx ++ [v], need := ceilDiv n 4 }
  else c.setCb0 { x with tx := x.tx ++ [v], need := x.need - 1 }

def execCb0TxPush (v : Word) (s : State) : Host.Outcome State Fault Refusal := s.onChip (Chip.cb0TxPush v)

/-- CB0_CMD.TXFLUSH (R455). -/
def Chip.cb0Txflush (v : Word) (c : Chip) : Chip := if bit v 0 then c.wrb Reg.CB0_STAT 2 false else c

def execCb0Txflush (v : Word) (s : State) : Host.Outcome State Fault Refusal := s.onChip (Chip.cb0Txflush v)

/-- CB0 starts sending: the frame that waits for another attempt, else the first whole frame of the FIFO, whose words
leave it (R452, R455). -/
def Chip.cb0Start (c : Chip) : Chip :=
  let x := c.cb0
  if !(c.en pgCB0 && c.rdb Reg.CB0_CFG 0) || c.idleReq pgCB0 || x.onLine || x.backoff.isSome then c
  else match x.frame, x.tx with
    | some _, _ => c.setCb0 { x with onLine := true, tries := x.tries + 1 }
    | none, [] => c
    | none, h :: t =>
      let n := fld h 10 0
      let k := ceilDiv n 4
      if t.length < k then c
      else
        let l := ((t.take k).flatMap wordBytes).take n
        c.setCb0 { x with
          tx := t.drop k, frame := some (l ++ List.replicate (60 - n) 0), tries := 1, onLine := true }

def execCb0TransmitStart (s : State) : Host.Outcome State Fault Refusal := s.onChip Chip.cb0Start

/-- The frame on the line is done with. -/
def Chip.cb0Free (c : Chip) : Chip := c.setCb0 { c.cb0 with frame := none, onLine := false, tries := 0, backoff := none }

/-- A transmission completes (R455). -/
def Chip.cb0TxDone (stamp : Word) (c : Chip) : Chip :=
  if c.cb0.onLine then ((c.cb0Free.wr Reg.CB0_TXTIME stamp).count Reg.CB0_TX_FRAMES).irq pgCB0 1 else c

def execCb0TxDone (stamp : Word) (s : State) : Host.Outcome State Fault Refusal := s.onChip (Chip.cb0TxDone stamp)

/-- A collision after `bits` bits of the frame (R452); `r` is the random number of the backoff. -/
def Chip.cb0Collision (bits r : Nat) (c : Chip) : Chip :=
  let x := c.cb0
  if !x.onLine then c
  else
    let c1 := c.count Reg.CB0_COLL
    if 512 < bits then (c1.cb0Free.count Reg.CB0_LATE_COLL).irq pgCB0 4
    else if 16 ≤ x.tries then (c1.cb0Free.count Reg.CB0_EXCESS_COLL).irq pgCB0 3
    else c1.setCb0 { x with onLine := false, backoff := some (r % 2 ^ min x.tries 10) }

def execCb0Collision (afterBits : Nat) (r : Nat) (s : State) : Host.Outcome State Fault Refusal :=
  s.onChip (Chip.cb0Collision afterBits r)

/-- The backoff of r × 512 bit times ends and the frame is attempted again (R452). -/
def Chip.cb0Backoff (c : Chip) : Chip :=
  let x := c.cb0
  if x.backoff.isSome then c.setCb0 { x with backoff := none, onLine := true, tries := x.tries + 1 } else c

def execCb0BackoffExpiry (s : State) : Host.Outcome State Fault Refusal := s.onChip Chip.cb0Backoff

/-- The Clause 148 status changes (R453); it is false while CB0 does not run PLCA. -/
def Chip.plcaStatus (up : Bool) (c : Chip) : Chip :=
  let b := up && c.en pgCB0 && c.rdb Reg.CB0_CFG 3
  if c.rdb Reg.CB0_STAT 0 == b then c else (c.wrb Reg.CB0_STAT 0 b).irq pgCB0 5

def execPlcaStatusChange (up : Bool) (s : State) : Host.Outcome State Fault Refusal := s.onChip (Chip.plcaStatus up)

/-- A write of CB0_MDIO_CMD (R451): ignored while BUSY. -/
def Chip.mdioAccess (v : Word) (c : Chip) : Chip :=
  if c.rdb Reg.CB0_MDIO_STAT 0 then c else (c.wr Reg.CB0_MDIO_CMD (v &&& 0xFFFF_07FF)).wrb Reg.CB0_MDIO_STAT 0 true

def execMdioAccess (v : Word) (s : State) : Host.Outcome State Fault Refusal := s.onChip (Chip.mdioAccess v)

/-- The access completes: a read brings its data. -/
def Chip.mdioDone (data : BitVec 16) (c : Chip) : Chip :=
  if c.rdb Reg.CB0_MDIO_STAT 0 then
    let c1 := c.wrb Reg.CB0_MDIO_STAT 0 false
    if c.rdb Reg.CB0_MDIO_CMD 10 then c1 else c1.wrf Reg.CB0_MDIO_STAT 31 16 data.toNat
  else c

def execMdioDone (data : BitVec 16) (s : State) : Host.Outcome State Fault Refusal := s.onChip (Chip.mdioDone data)

/-- CB0_STATS_CLR (R460). -/
def Chip.cb0StatsClr (v : Word) (c : Chip) : Chip :=
  if bit v 0 then forUpTo 6 (fun i c => c.wr (Reg.CB0_TX_FRAMES + 4 * i) 0) c else c

def execCb0StatsClr (v : Word) (s : State) : Host.Outcome State Fault Refusal := s.onChip (Chip.cb0StatsClr v)

/-- MAC and PLCA are locked while EN = 1 (R459). -/
def Chip.cb0LockedWrite (key : Nat) (v : Word) (c : Chip) : Chip :=
  if c.en pgCB0 then c.err pgCB0 0x01 0 else c.wr key v

/-- Courier request lines 4 and 5 (R454, R455). -/
def Chip.cb0RxLine (c : Chip) : Bool := 8 ≤ c.cb0.rx.length || c.cb0.rx.any (·.2)
def Chip.cb0TxLine (c : Chip) : Bool := decide (c.cb0.tx.length + 8 ≤ 512) && !c.cb0Halted

/-- CB0_RXLEVEL and CB0_TXLEVEL; CRS in CB0_STAT is the present level of its pin, which no command brings: a free
value. -/
def Chip.cb0View (c : Chip) (key : Nat) : Option Word :=
  if key = Reg.CB0_RXLEVEL then some (word (c.cb0.rx.length + b2n (c.cb0.rx.any (·.2)) * 0x1_0000))
  else if key = Reg.CB0_TXLEVEL then some (word (512 - c.cb0.tx.length))
  else if key = Reg.CB0_STAT then some (setBit (c.rd key) 1 (c.freeNow 1 == 1))
  else none

/-- A reset that reaches page CB0 (R456). -/
def Chip.resetCb0 (c : Chip) : Chip := { c.resetPage pgCB0 with cb0 := cb0Reset }

end Sys2Proof.Machine
end

