-- ==== Sys2Proof/Machine/Stream.lean ====
section
/-! DEFINITION. Media streams (R461 to R478), and the receive steps of an Ethernet port that lead to them and to the
wake detector (R444, R450). -/

namespace Sys2Proof.Machine

/-! Streams and their window registers. -/

/-- A window register of stream `s` at offset `o` of the page. -/
def Chip.srd (c : Chip) (s o : Nat) : Word := look (regReset (0x7_4000 + o)) c.strm.regs (0x1000 * s + o)
def Chip.swr (c : Chip) (s o : Nat) (v : Word) : Chip :=
  { c with strm := { c.strm with regs := put c.strm.regs (0x1000 * s + o) v } }
def Chip.sf (c : Chip) (s o hi lo : Nat) : Nat := fld (c.srd s o) hi lo
def Chip.sb (c : Chip) (s o i : Nat) : Bool := bit (c.srd s o) i
def Chip.swb (c : Chip) (s o i : Nat) (b : Bool) : Chip := c.swr s o (setBit (c.srd s o) i b)

/-- A statistics register goes up by one unless FREEZE holds it (R476). -/
def Chip.scount (c : Chip) (s o : Nat) : Chip := if c.freeze pgSTRM then c else c.swr s o (satInc (c.srd s o))

def Chip.strmTx (c : Chip) (s : Nat) : StrmTx := look strmTxReset c.strm.tx s
def Chip.setStrmTx (c : Chip) (s : Nat) (x : StrmTx) : Chip := { c with strm := { c.strm with tx := put c.strm.tx s x } }
def Chip.strmRx (c : Chip) (s : Nat) : StrmRx := look strmRxReset c.strm.rx s
def Chip.setStrmRx (c : Chip) (s : Nat) (x : StrmRx) : Chip := { c with strm := { c.strm with rx := put c.strm.rx s x } }

/-- The offset of a stream's CFG register. -/
def strmCfg (tx : Bool) : Nat := if tx then 0x080 else 0x100

/-- Whether a stream runs: its EN and the page's (R476). -/
def Chip.strmOn (c : Chip) (tx : Bool) (s : Nat) : Bool := c.en pgSTRM && c.sb s (strmCfg tx) 0

/-- SPP at a rate code (R462). -/
def sppOf (ptime rate : Nat) : Nat :=
  (match ptime with
    | 0 => 6
    | 1 => 12
    | 2 => 16
    | _ => 48) * 2 ^ (rate / 2)

/-- NCH, bytes of a sample, SPP. -/
def Chip.strmNch (c : Chip) (tx : Bool) (s : Nat) : Nat := c.sf s (strmCfg tx) 21 16 + 1
def Chip.strmB (c : Chip) (tx : Bool) (s : Nat) : Nat := if c.sb s (strmCfg tx) 3 then 3 else 2
def Chip.strmSpp (c : Chip) (tx : Bool) (s rate : Nat) : Nat := sppOf (c.sf s (strmCfg tx) 2 1) rate

/-- The Ethernet port of a plane (R473). -/
def Chip.strmPort (c : Chip) (tx : Bool) (s : Nat) (b : Bool) : Nat :=
  if b then 2 + b2n (c.sb s (strmCfg tx) 7) else b2n (c.sb s (strmCfg tx) 6)

/-- Whether a plane is enabled. -/
def Chip.strmPlane (c : Chip) (tx : Bool) (s : Nat) (b : Bool) : Bool := c.sb s (strmCfg tx) (4 + b2n b)

/-- BASE and the queue. -/
def Chip.strmBase (c : Chip) (tx : Bool) (s : Nat) : Nat := c.sf s (strmCfg tx + 4) 10 0
def Chip.strmQueue (c : Chip) (tx : Bool) (s : Nat) : Nat := c.sf s (strmCfg tx + 4) 25 16

/-- BUF and where a receive buffer lies (R468). -/
def Chip.strmBuf (c : Chip) (s : Nat) : Nat := 2 ^ (c.sf s 0x100 14 12 + 6)
def Chip.strmBufAt (c : Chip) (s : Nat) : Nat := 0x6200_0000 + c.sf s 0x108 21 6 * 64

/-- A plane's template: its packet memory address and its length. -/
def Chip.tmplAt (c : Chip) (s : Nat) (b : Bool) : Nat := 0x6200_0000 + c.sf s (0x088 + 4 * b2n b) 21 3 * 8
def Chip.tmplLen (c : Chip) (s : Nat) (b : Bool) : Nat := c.sf s (0x088 + 4 * b2n b) 31 24
def Dev.template (d : Dev) (s : Nat) (b : Bool) : List Byte := d.mem.bytes (d.chip.tmplAt s b) (d.chip.tmplLen s b)

/-- Where UDP begins in a template (R477): one VLAN tag at most, IPv4 or IPv6, UDP, and 12 bytes of RTP to its end. -/
def tmplUdp (l : List Byte) : Option Nat :=
  match udpAt l with
  | some u => if l.length = u + 20 then some u else none
  | none => none

/-- ERR_INFO of the page (R476). -/
def strmInfo (tx : Bool) (s : Nat) : Word := word (s + 0x100 * b2n tx)

/-- The configurations that EN refuses (R477). -/
def Dev.strmInvalid (d : Dev) (tx : Bool) (s : Nat) : Bool :=
  let c := d.chip
  let rate := c.rdf Reg.TICK_CFG 2 0
  let n := c.strmNch tx s
  let badT (b : Bool) : Bool := c.strmPlane tx s b && (
    decide (1514 < c.tmplLen s b + n * c.strmB tx s * c.strmSpp tx s rate) || (tmplUdp (d.template s b)).isNone)
  decide (2048 < c.strmBase tx s + n) || !(c.strmPlane tx s false || c.strmPlane tx s true) ||
    (if tx then badT false || badT true
      else decide (0x6240_0000 < c.strmBufAt s + n * c.strmBuf s * 4))

/-- Clearing EN: the stream is not active, no plane of it is OK, and what it has formed is not sent. -/
def Chip.strmStop (c : Chip) (tx : Bool) (s : Nat) : Chip :=
  let o := if tx then 0x094 else 0x138
  let c1 := (c.swb s (strmCfg tx) 0 false).swr s o (c.srd s o &&& 0xFFFF_0000)
  if tx then c1.setStrmTx s strmTxReset else c1

/-- Setting EN of the selected stream (R461, R476, R477): validated, and the rate latched. -/
def Dev.strmEnable (tx : Bool) (v : Word) (d : Dev) : Dev :=
  let c := d.chip
  let s := c.rdf (if tx then Reg.STRM_TXSEL else Reg.STRM_RXSEL) 7 0
  let o := strmCfg tx
  let w := v &&& (if tx then 0x003F_0FFF else 0x7F3F_7FFF)
  if c.sb s o 0 then
    let d1 := if setBit w 0 true = c.srd s o then d else d.chipOp (·.err pgSTRM 0x01 (strmInfo tx s))
    if bit w 0 then d1 else d1.chipOp (·.strmStop tx s)
  else
    let d1 := d.chipOp (fun c => c.swr s o (setBit w 0 false))
    if !bit w 0 then d1
    else if d1.strmInvalid tx s then d1.chipOp (·.err pgSTRM 0x02 (strmInfo tx s))
    else
      let rate := c.rdf Reg.TICK_CFG 2 0
      d1.chipOp (fun c =>
        let c1 := c.swb s o 0 true
        if tx then (c1.setStrmTx s { strmTxReset with rate := rate }).swr s 0x094 0
        else (c1.setStrmRx s { strmRxReset with rate := rate }).swr s 0x138 0)

def execStreamEnable (tx : Bool) (v : Word) (s : State) : Host.Outcome State Fault Refusal :=
  s.onDev (Dev.strmEnable tx v)

/-- A write of another window register: locked while EN = 1 (R476). -/
def Chip.strmWrite (o : Nat) (v : Word) (c : Chip) : Chip :=
  let tx := decide (o < 0x100)
  let s := c.rdf (if tx then Reg.STRM_TXSEL else Reg.STRM_RXSEL) 7 0
  if c.sb s (strmCfg tx) 0 then c.err pgSTRM 0x01 (strmInfo tx s) else c.swr s o v

/-- The rate of a stream no longer is the engine's (R463): STAT shows it, and its onset raises the interrupt. -/
def Chip.strmMismatch (c : Chip) (tx : Bool) (s rate : Nat) : Bool × Chip :=
  let bad := rate != c.rdf Reg.TICK_CFG 2 0
  let o := if tx then 0x094 else 0x138
  let i := if tx then 1 else 3
  (bad, (c.swb s o i bad).irqIf (bad && !c.sb s o i) pgSTRM 6)

/-! Transmit (R462, R464, R466, R473). -/

/-- M of a PTP time at a rate (R466): rounded, half up. -/
def mediaCount (sec ns fs : Nat) : BitVec 64 :=
  BitVec.ofNat 64 ((2 * (sec * 1000000000 + ns) * fs + 1000000000) / 2000000000)

/-- M at the present PTP time. -/
def Chip.mediaNow (c : Chip) : BitVec 64 := mediaCount c.tb.sec.toNat c.tb.ns.toNat c.fs

/-- LAG (R474), values above 32 acting as they stand. -/
def Chip.tsLag (c : Chip) : Nat := c.rdf Reg.STRM_TSLAG 5 0

/-- The words that a transmit stream takes at a strobe (R464); a withheld block of its queue is faded (R217). -/
def Dev.strmWords (d : Dev) (s : Nat) : List Word × Dev :=
  let c := d.chip
  let n := c.strmNch true s
  if c.sb s 0x080 11 then
    let (l, under, f, d0) := Dev.playStrobe (c.strmQueue true s) 6 s (c.tick.idx % c.tickN) c.tickN (c.strmTx s).fade n d
    let d1 := d0.chipOp (fun c => c.setStrmTx s { c.strmTx s with fade := f })
    (l, if under then d1.chipOp (fun c => (c.scount s 0x0A4).irq pgSTRM 5) else d1)
  else ((List.range n).map (fun i => c.sinkWord (0x800 + (c.strmBase true s + i))), d)

/-- A transmit stream at a strobe (R466): C, E, the packet boundary, the words. -/
def Dev.strmTxStrobe (m : BitVec 64) (s : Nat) (d : Dev) : Dev :=
  if !d.chip.strmOn true s then d
  else
    let x := d.chip.strmTx s
    let (bad, c0) := d.chip.strmMismatch true s x.rate
    if bad then { d with chip := c0.setStrmTx s { x with words := [], filling := false, ready := [] } }
    else
      let (ws, d1) := ({ d with chip := c0 } : Dev).strmWords s
      let cnt := match x.count with
        | none => m
        | some n => n + 1
      let e := cnt + (d1.chip.srd s 0x090).setWidth 64 - BitVec.ofNat 64 d1.chip.tsLag
      let spp := d1.chip.strmSpp true s x.rate
      let start := e.toNat % spp == 0
      let x1 : StrmTx := { d1.chip.strmTx s with count := some cnt }
      let x2 : StrmTx := if start then { x1 with first := e, words := [], filling := true } else x1
      if !x2.filling then d1.chipOp (·.setStrmTx s x2)
      else
        let l := x2.words ++ ws
        if spp * d1.chip.strmNch true s ≤ l.length then
          d1.chipOp (fun c => ((c.setStrmTx s { x2 with words := [], filling := false, ready := x2.ready ++ [(x2.first, l)] }).scount
            s 0x0A0).swr s 0x09C ((m - cnt).setWidth 32))
        else d1.chipOp (·.setStrmTx s { x2 with words := l })

/-- A sample as it is sent: L16 or L24, rounded half up and clamped, big-endian (R462). -/
def sampleBytes (b : Nat) (w : Word) : List Byte :=
  let n := 8 * b
  natBytesBE b (BitVec.ofInt n (satSigned n (roundHalfUp w.toInt (32 - n)))).toNat

/-- The 16-bit one's complement sum of bytes (RFC 791). -/
def onesSum (l : List Byte) : Nat :=
  let rec go : Nat → List Byte → Nat
    | a, [] => a
    | a, [x] => a + 256 * x.toNat
    | a, x :: y :: t => go (a + 256 * x.toNat + y.toNat) t
  let s := go 0 l
  let f (x : Nat) : Nat := x / 65536 + x % 65536
  f (f (f s))

/-- A checksum: the complement of the sum. -/
def checksum (l : List Byte) : Nat := 0xFFFF - onesSum l

/-- Bytes with `v` put in from index `i` on. -/
def putBytes (l : List Byte) (i : Nat) (v : List Byte) : List Byte := l.take i ++ v ++ l.drop (i + v.length)

/-- A packet from a template (R477): sequence number and timestamp, lengths and checksums written, the rest as sent. -/
def buildPacket (t : List Byte) (seq ts : Nat) (payload : List Byte) : List Byte :=
  match tmplUdp t with
  | none => t ++ payload
  | some u =>
    let v4 := beAt t (typeAt t) 2 == 0x0800
    let o := typeAt t + 2
    let udpLen := 20 + payload.length
    let p0 := putBytes (putBytes t (u + 10) (natBytesBE 2 seq)) (u + 12) (natBytesBE 4 ts)
    let p1 := putBytes (putBytes p0 (u + 4) (natBytesBE 2 udpLen)) (u + 6) [0, 0]
    if v4 then
      let p2 := putBytes (putBytes p1 (o + 2) (natBytesBE 2 (u - o + udpLen))) (o + 10) [0, 0]
      putBytes p2 (o + 10) (natBytesBE 2 (checksum ((p2.take u).drop o))) ++ payload
    else
      let p2 := putBytes p1 (o + 4) (natBytesBE 2 udpLen)
      let pseudo := (p2.take (o + 40)).drop (o + 8) ++ natBytesBE 4 udpLen ++ [0, 0, 0, 17]
      let s := checksum (pseudo ++ p2.drop u ++ payload)
      putBytes p2 (u + 6) (natBytesBE 2 (if s = 0 then 0xFFFF else s)) ++ payload

/-- A packet enters the transmit scheduler of a plane's port (R473); without LINK it is dropped. -/
def Dev.strmSendPlane (d : Dev) (s seq ts : Nat) (payload : List Byte) (b : Bool) : Dev :=
  let c := d.chip
  if !c.strmPlane true s b then d
  else
    let p := c.strmPort true s b
    if !c.ethLink p then d
    else
      let pkt := buildPacket (d.template s b) seq ts payload
      d.chipOp (fun c =>
        let x := c.ethSt p
        c.setEth p { x with strm := x.strm ++ [(c.sf s 0x080 10 8, pkt)] })

/-- The oldest complete packet of a stream is sent on its planes (R466, R473), none at another rate than the latched one
(R463). -/
def Dev.strmSend (s : Nat) (d : Dev) : Dev :=
  let x := d.chip.strmTx s
  match (if d.chip.strmOn true s && x.rate == d.chip.rdf Reg.TICK_CFG 2 0 then x.ready else []) with
  | [] => d
  | (e, ws) :: t =>
    let spp := d.chip.strmSpp true s x.rate
    let seq := e.toNat / spp % 65536
    let ts := e.toNat % 2 ^ 32
    let payload := ws.flatMap (sampleBytes (d.chip.strmB true s))
    let d1 := d.chipOp (fun c => ((c.setStrmTx s { x with ready := t }).swr s 0x094
      (setFld (setBit (c.srd s 0x094) 0 true) 31 16 seq)).swr s 0x098 (word ts))
    (d1.strmSendPlane s seq ts payload false).strmSendPlane s seq ts payload true

def execStreamPacketSend (st : Fin 256) (s : State) : Host.Outcome State Fault Refusal := s.onDev (Dev.strmSend st)

/-! Receive (R467 to R472). -/

/-- R of PTP alignment (R467). -/
def Chip.rxR (c : Chip) (s : Nat) (m : BitVec 64) : Word :=
  (m - BitVec.ofNat 64 (c.sf s 0x10C 15 0) - BitVec.ofNat 64 c.tsLag).setWidth 32

/-- The R against which an arriving packet is judged: that of the last strobe. -/
def Chip.rxNow (c : Chip) (s : Nat) : Word :=
  if c.sb s 0x100 10 then (c.strmRx s).r
  else c.rxR s (match c.strm.m with
    | some m => m
    | none => c.mediaNow)

/-- The fill F (R468). -/
def Chip.strmFill (c : Chip) (s : Nat) : Int := ((c.strmRx s).high - c.rxNow s).toInt

/-- In free alignment a fill outside 0 to BUF asks for a re-centring (R470). -/
def Chip.fillCheck (c : Chip) (s : Nat) : Chip :=
  let f := c.strmFill s
  if c.sb s 0x100 10 && c.sb s 0x138 0 && (decide (f < 0) || decide ((c.strmBuf s : Int) < f)) then
    c.setStrmRx s { c.strmRx s with center := true }
  else c

/-- A received sample as a Q1.31 word (R462). -/
def sampleWord (b : Nat) (l : List Byte) (i : Nat) : Word := word (beAt l (b * i) b * 2 ^ (32 - 8 * b))

/-- The samples of a packet written to the stream's buffer (R468). -/
def Dev.bufWrite (d : Dev) (s : Nat) (t : Word) (payload : List Byte) : Dev :=
  let c := d.chip
  let n := c.strmNch false s
  let spp := c.strmSpp false s (c.strmRx s).rate
  forUpTo (spp * n) (fun i d =>
    let slot := (t.toNat + i / n) % c.strmBuf s
    { d with mem := d.mem.setWord (c.strmBufAt s + 4 * (slot * n + i % n)) (sampleWord (c.strmB false s) payload i) }) d

/-- An accepted packet with first timestamp `t` (R468 to R470). -/
def Dev.rxAccept (d : Dev) (s : Nat) (t : Word) (payload : List Byte) : Dev :=
  let c := d.chip
  let x := c.strmRx s
  let spp := c.strmSpp false s x.rate
  let first := !c.sb s 0x138 0
  let h := t + word spp
  let high := if first || before x.high h then h else x.high
  let free := c.sb s 0x100 10
  let recenter := free && x.center && !first
  let r := if free && (first || x.center) then high - word (c.sf s 0x10C 15 0) else x.r
  let c1 := (c.setStrmRx s { x with high := high, r := r, center := false }).swb s 0x138 0 true
  let c2 := c1.irqIf first pgSTRM 0
  let c3 := if recenter then (c2.scount s 0x15C).irq pgSTRM 4 else c2
  let now := c3.rxNow s
  if before t now then { d with chip := ((c3.scount s 0x150).irq pgSTRM 3).fillCheck s }
  else if (c3.strmBuf s : Int) < (h - now).toInt then { d with chip := (c3.scount s 0x154).fillCheck s }
  else
    let y := c3.strmRx s
    ({ d with chip := (c3.setStrmRx s { y with pkts := y.pkts ++ [t] }).fillCheck s } : Dev).bufWrite s t payload

/-- The numbers kept: the 1,024 up to `h` (R472). -/
def keepSeen (h : BitVec 16) (l : List (BitVec 16)) : List (BitVec 16) := l.filter (fun q => (h - q).toNat < 1024)

/-- The merging of the two planes (R472): a claimed packet with sequence number `q`. -/
def Dev.rxMerge (d : Dev) (s : Nat) (q : BitVec 16) (t : Word) (payload : List Byte) : Dev :=
  let c := d.chip
  let x := c.strmRx s
  let accept (y : StrmRx) : Dev :=
    (d.chipOp (fun c => (c.setStrmRx s y).swr s 0x13C ((y.hseq.getD 0).setWidth 32))).rxAccept s t payload
  match x.hseq with
  | none => accept { x with hseq := some q, seen := [q] }
  | some h =>
    let df := (q - h).toInt
    if 1024 ≤ df then accept { x with hseq := some q, seen := [q] }
    else if 0 < df then accept { x with hseq := some q, seen := keepSeen q (q :: x.seen) }
    else if -1024 < df then
      if x.seen.contains q then d.chipOp (fun c => c.scount s 0x148)
      else accept { x with seen := q :: x.seen }
    else d.chipOp (fun c => c.scount s 0x150)

/-- Whether a frame's destination is a plane's key (R471). -/
def Chip.keyMatch (c : Chip) (s : Nat) (b : Bool) (f : List Byte) (u : Nat) : Bool :=
  let v6 := beAt f (typeAt f) 2 == 0x86DD
  let o := typeAt f + 2
  let key (w : Nat) : List Byte := wordBytes (c.srd s (0x110 + 0x10 * b2n b + 4 * w))
  v6 == c.sb s 0x100 8 &&
    (if v6 then (f.drop (o + 24)).take 16 == key 0 ++ key 1 ++ key 2 ++ key 3 else (f.drop (o + 16)).take 4 == key 0) &&
    beAt f (u + 2) 2 == c.sf s 0x130 (16 * b2n b + 15) (16 * b2n b)

/-- The plane on which stream `s` claims a frame that arrives on port `p` (R471). -/
def Chip.claimPlane (c : Chip) (s p : Nat) (f : List Byte) : Option Bool :=
  if !c.strmOn false s then none
  else match udpAt f with
    | none => none
    | some u =>
      let ok (b : Bool) : Bool := c.strmPlane false s b && c.strmPort false s b == p && c.keyMatch s b f u &&
        (!c.sb s 0x100 9 || beAt f (u + 16) 4 == (c.srd s 0x134).toNat)
      if ok false then some false else if ok true then some true else none

/-- The first stream from number `s` on that claims a frame, among `n`. -/
def Chip.claimFrom (c : Chip) (p : Nat) (f : List Byte) : Nat → Nat → Option (Nat × Bool)
  | 0, _ => none
  | n + 1, s =>
    match c.claimPlane s p f with
    | some b => some (s, b)
    | none => c.claimFrom p f n (s + 1)

/-- The RTP payload of a claimed frame, none when R471 drops it: version 2, no padding, the payload type, the length. -/
def Chip.rtpPayload (c : Chip) (s : Nat) (f : List Byte) (u : Nat) : Option (List Byte) :=
  let r := u + 8
  let b0 := beAt f r 1
  let x0 := r + 12 + 4 * (b0 % 16)
  let o := if b0.testBit 4 then x0 + 4 + 4 * beAt f (x0 + 2) 2 else x0
  let e := u + beAt f (u + 4) 2
  let n := c.strmNch false s * c.strmB false s * c.strmSpp false s (c.strmRx s).rate
  if b0 / 64 = 2 ∧ b0.testBit 5 = false ∧ beAt f (r + 1) 1 % 128 = c.sf s 0x100 30 24 ∧ o + n = e ∧ e ≤ f.length then
    some ((f.drop o).take n)
  else none

/-- A claimed frame (R471, R472): the plane's count and OK, then the packet. -/
def Dev.strmClaim (d : Dev) (p s : Nat) (b : Bool) (f : List Byte) : Dev :=
  let d1 := d.chipOp (fun c => (c.scount s (0x140 + 4 * b2n b)).swb s 0x138 (1 + b2n b) true)
  match udpAt f with
  | none => d1
  | some u =>
    match d1.chip.rtpPayload s f u with
    | none => d1.chipOp (fun c => (c.scount s 0x158).irq (pgETH p) 2)
    | some l => d1.rxMerge s (BitVec.ofNat 16 (beAt f (u + 10) 2)) (word (beAt f (u + 12) 4)) l

/-- No packet on a plane for 16 packet times (R472). -/
def Chip.planeDown (s : Nat) (b : Bool) (c : Chip) : Chip :=
  if c.sb s 0x138 (1 + b2n b) then (c.swb s 0x138 (1 + b2n b) false).irq pgSTRM 2 else c

def execPlaneDown (st : Fin 256) (b : Bool) (s : State) : Host.Outcome State Fault Refusal :=
  s.onChip (Chip.planeDown st b)

/-- The words a receive stream releases at timestamp `r` (R468, R469): the present packet's, faded in after a gap; else
the fade from the last ones, then zeros, with LOST counted once for each packet slot. -/
def Dev.rxRelease (d : Dev) (s : Nat) (r : Word) : List Word × Dev :=
  let c := d.chip
  let x := c.strmRx s
  let n := c.strmNch false s
  let spp := c.strmSpp false s x.rate
  if x.pkts.any (fun t => (r - t).toNat < spp) then
    let ws := (List.range n).map (fun i =>
      fadeIn (d.mem.word (c.strmBufAt s + 4 * (r.toNat % c.strmBuf s * n + i))) x.fin)
    let last := ((List.range n).zip ws).foldl (fun t e => put t e.1 e.2) x.last
    (ws, d.chipOp (fun c => c.setStrmRx s { x with
      last := last, k := 0, fin := min 32 (x.fin + 1), gap := false
      pkts := x.pkts.filter (fun t => !before (t + word spp) (r + 2)) }))
  else
    let lost := !x.gap || (r - x.high).toInt % spp == 0
    let ws := (List.range n).map (fun i => fadeOut (look 0 x.last i) x.k)
    (ws, d.chipOp (fun c =>
      let c1 := c.setStrmRx s { x with
        k := min 32 (x.k + 1), fin := 0, gap := true, pkts := x.pkts.filter (fun t => !before (t + word spp) (r + 2)) }
      if lost then (c1.scount s 0x14C).irq pgSTRM 1 else c1))

/-- A receive stream at a strobe (R464, R467): its words go to its receive channels, or to its queue. -/
def Dev.strmRxStrobe (m : BitVec 64) (s : Nat) (d : Dev) : Dev :=
  if !d.chip.strmOn false s then d
  else
    let x := d.chip.strmRx s
    let n := d.chip.strmNch false s
    let (bad, c0) := d.chip.strmMismatch false s x.rate
    let d0 : Dev := { d with chip := c0 }
    let (ws, d1) :=
      if bad || !c0.sb s 0x138 0 then (List.replicate n 0, d0)
      else if c0.sb s 0x100 10 then
        let (ws, d1) := d0.rxRelease s x.r
        (ws, d1.chipOp (fun c => (c.setStrmRx s { c.strmRx s with r := x.r + 1 }).fillCheck s))
      else d0.rxRelease s (c0.rxR s m)
    if c0.sb s 0x100 11 then d1.pushAll (c0.strmQueue false s) 6 s ws
    else d1.chipOp (fun c => forUpTo n (fun i c => c.setSource (0x800 + c.strmBase false s + i) (ws[i]?.getD 0)) c)

/-- At a strobe the receive streams release, the highest number first so that the lowest provides a channel (R465). -/
def Dev.strmRelease (d : Dev) : Dev :=
  let m := d.chip.mediaNow
  let d1 := forUpTo 256 (fun i d => d.strmRxStrobe m (255 - i)) d
  d1.chipOp (fun c => { c with strm := { c.strm with m := some m } })

/-- At a strobe the transmit streams take their words. -/
def Dev.strmTake (d : Dev) : Dev := forUpTo 256 (fun s d => d.strmTxStrobe d.chip.mediaNow s) d

/-- STRM_STATS_CLR (R478). -/
def Chip.strmStatsClr (v : Word) (c : Chip) : Chip :=
  let t := c.rdf Reg.STRM_TXSEL 7 0
  let r := c.rdf Reg.STRM_RXSEL 7 0
  let c1 := if bit v 0 then (c.swr t 0x0A0 0).swr t 0x0A4 0 else c
  if bit v 1 then forUpTo 8 (fun i c => c.swr r (0x140 + 4 * i) 0) c1 else c1

def execStrmStatsClr (v : Word) (s : State) : Host.Outcome State Fault Refusal := s.onChip (Chip.strmStatsClr v)

/-- STAT.FILL: before the first accepted packet there is no H, and the spec states no fill: a free value. -/
def Chip.strmFillView (c : Chip) (s : Nat) : BitVec 16 :=
  if c.sb s 0x138 0 then BitVec.ofInt 16 (c.strmFill s) else c.freeNow 16

/-- The window registers as they read (R478): of the selected stream. -/
def Chip.strmView (c : Chip) (o : Nat) : Option Word :=
  if 0x080 ≤ o ∧ o < 0x0A8 then some (c.srd (c.rdf Reg.STRM_TXSEL 7 0) o)
  else if 0x100 ≤ o ∧ o < 0x160 then
    let s := c.rdf Reg.STRM_RXSEL 7 0
    if o = 0x138 then some (setFld (c.srd s o) 31 16 (c.strmFillView s).toNat) else some (c.srd s o)
  else none

/-- A reset that reaches page STRM (R475). -/
def Chip.resetStrm (c : Chip) : Chip := { c.resetPage pgSTRM with strm := { strmReset with m := c.strm.m } }

/-! Power state, wakes and the receive steps. -/


/-- A wake: bit `b` of CLKPWR_WAKE_CAUSE and reset source `src` (R626 to R628). In Listen or Dormant Crocus raises the
enables and waits for PWRGOOD; during an entry it is latched. -/
def Chip.wake (c : Chip) (b src : Nat) : Chip :=
  let x := c.pwr
  if x.entry.any (2 ≤ ·) then
    ({ c with pwr := { x with latched := x.latched ++ [src] } }).wrb Reg.CLKPWR_WAKE_CAUSE b true
  else if (c.pstate = 2 ∨ c.pstate = 3) ∧ x.waiting = none then
    ({ c with pwr := { x with main := true, isl := true, waiting := some src } }).wrb Reg.CLKPWR_WAKE_CAUSE b true
  else c

/-- A magic frame (R450): after the source address, six bytes of 0xFF and the station's address sixteen times. -/
def magicAt (mac : List Byte) (f : List Byte) : Bool :=
  let pat := List.replicate 6 0xFF ++ (List.replicate 16 mac).flatten
  (List.range f.length).any (fun i => 12 ≤ i && (f.drop i).take 102 == pat)

/-- Whether wake pattern `k` matches (R450). -/
def Chip.wakePattern (c : Chip) (k : Nat) (f : List Byte) : Bool :=
  let m (i : Nat) : Bool := c.rdb (if i < 32 then Reg.ETH0_WAKE_MASK_LO k else Reg.ETH0_WAKE_MASK_HI k) (i % 32)
  c.rdb Reg.ETH0_WAKE_CFG (4 + k) && (List.range 64).any m &&
    (List.range 64).all (fun i => !m i ||
      (f[i]? == some (byteAt (wordBytes (c.rd (Reg.ETH0_WAKE_DATA k (i / 4)))) (i % 4))))

/-- What the wake detector finds in a frame: the bits of WAKE_STAT. -/
def Chip.wakeFound (c : Chip) (f : List Byte) : Word :=
  if !c.rdb Reg.ETH0_WAKE_CFG 0 then 0
  else
    let magic := c.rdb Reg.ETH0_WAKE_CFG 1 && magicAt (c.ethMac 0) f
    bitsOf (fun i => (i == 1 && magic) || (4 ≤ i && i < 8 && c.wakePattern (i - 4) f))

/-- The wake detector of ETH0 (R450): in Listen a match asserts the wake request, else it is recorded alone. -/
def Chip.wakeDetect (c : Chip) (f : List Byte) (ok : Bool) : Bool × Chip :=
  if !ok || !c.ethAccepts 0 f then (false, c)
  else
    let w := c.wakeFound f
    if w = 0 then (false, c)
    else if c.pstate = 2 ∨ c.pwr.entry = some 2 then
      let c1 := c.wr Reg.ETH0_WAKE_STAT (c.rd Reg.ETH0_WAKE_STAT ||| w ||| 1)
      (true, if c1.rdb Reg.CLKPWR_WAKE_CFG 0 then c1.wake 1 11 else c1)
    else (true, (c.wr Reg.ETH0_WAKE_STAT (c.rd Reg.ETH0_WAKE_STAT ||| w)).irq (pgETH 0) 7)

/-- Steps 5 to 8 (R444): MAC control, address, streams, rings. -/
def Dev.rxSteps (d : Dev) (p : Nat) (f : List Byte) (flags stamp : Word) (ok woke : Bool) : Dev :=
  let c := d.chip
  if beAt f 12 2 = 0x8808 then
    d.chipOp (fun c => (if ok && flags == 0 then c.macControl p f else c).count (Reg.ETH_RX_CTRL p))
  else if !c.ethAccepts p f then d.chipOp (·.rxDrop p (Reg.ETH_RX_ADDRDROP p))
  else match c.claimFrom p f 256 0 with
    | some (s, b) => d.strmClaim p s b (if bit flags 20 then f else f.take (f.length - 4))
    | none => d.chipOp (·.rxToRing p f flags stamp woke)

/-- A frame arrives on port `p`, from its destination address through its FCS (R444, R450): its lane is LOCKED (R409). In
Listen only the wake detector of ETH0 runs. -/
def Dev.ethReceive (p : Nat) (f : List Byte) (ok : Bool) (stamp : Word) (d : Dev) : Dev :=
  let up := d.chip.laneState p == 5
  let (woke, c0) := if p = 0 ∧ (up ∨ d.chip.pstate = 2) then d.chip.wakeDetect f ok else (false, d.chip)
  let d0 : Dev := { d with chip := c0 }
  if 2 ≤ c0.pstate || !up || !c0.en (pgETH p) || !c0.rdb (Reg.ETH_CFG p) 2 then d0
  else
    let (r, c1) := c0.rxAdmit p f ok
    let d1 : Dev := { d0 with chip := c1 }
    match r with
    | none => d1
    | some (g, flags) => d1.rxSteps p g flags stamp ok woke

def execEthFrameReceived (p : Fin 4) (frame : List Byte) (fcsOk : Bool) (stamp : Word) (s : State) :
    Host.Outcome State Fault Refusal := s.onDev (Dev.ethReceive p frame fcsOk stamp)

end Sys2Proof.Machine
end

