-- ==== Sys2Proof/Machine/Stem.lean ====
section
/-! DEFINITION. Stem links (R479 to R502). -/

namespace Sys2Proof.Machine

/-- Link `n`. -/
def Chip.stemSt (c : Chip) (n : Nat) : StemSt := look stemReset c.stem n
def Chip.setStem (c : Chip) (n : Nat) (x : StemSt) : Chip := { c with stem := put c.stem n x }

/-- CFG bits and channel counts (R502). -/
def Chip.stemCfg (c : Chip) (n i : Nat) : Bool := c.rdb (Reg.STM_CFG n) i
def Chip.stemTxCh (c : Chip) (n : Nat) : Nat := c.rdf (Reg.STM_TXCH n) 9 0
def Chip.stemRxCh (c : Chip) (n : Nat) : Nat := c.rdf (Reg.STM_RXCH n) 9 0

/-- RXF and the receive buffer (R488). -/
def Chip.stemRxf (c : Chip) (n : Nat) : Nat := 2 ^ c.rdf (Reg.STM_CFG n) 9 8
def Chip.stemBuf (c : Chip) (n : Nat) : Nat := 0x6200_0000 + c.rdf (Reg.STM_RX_BUF n) 21 6 * 64

/-- MAXCH at a rate code (R479). -/
def maxCh (rate : Nat) : Nat := 512 / 2 ^ (rate / 2)

/-- The first register whose value EN refuses (R493, R495, R501). -/
def Chip.stemBad (c : Chip) (n : Nat) : Option Nat :=
  let cfg := c.rd Reg.TICK_CFG
  let samples := 2 ^ fld cfg 6 4
  let mx := maxCh (fld cfg 2 0)
  let rxf := c.stemRxf n
  let ofs := c.rdf (Reg.STM_RX_OFS n) 15 0
  let isOver (k : Nat) : Bool := decide (2048 < c.rdf k 26 16 + c.rdf k 9 0)
  if mx < c.stemTxCh n ∨ (c.stemCfg n 5 = false ∧ isOver (Reg.STM_TXCH n)) then some 0x044
  else if mx < c.stemRxCh n ∨ (c.stemCfg n 6 = false ∧ isOver (Reg.STM_RXCH n)) then some 0x048
  else if rxf = 1 then some 0x040
  else if ofs < samples + 1 ∨ (rxf - 1) * samples < ofs then some 0x054
  else if 0x6240_0000 < c.stemBuf n + rxf * samples * c.stemRxCh n * 4 then some 0x050
  else if c.stemCfg n 4 && !c.rdb (Reg.LANE_CFG (4 + n)) 5 then some 0x040
  else none

/-- A resynchronisation (R492): the buffer is emptied, ALIGNED clears, the released channels fade out. -/
def Chip.stemResync (c : Chip) (n : Nat) : Chip :=
  let x := c.stemSt n
  let c1 := c.setStem n { x with
    frames := [], last := none, ofs := none, first := none, drops := 0, cur := none
    k := if x.cur.isSome then 0 else x.k, fin := if x.cur.isSome then 0 else x.fin }
  ((c1.wrb (Reg.STM_STAT n) 2 false).count (Reg.STM_RX_RESYNCS n)).irq (pgSTM n) 6

/-- LINK (R496): 0 DOWN, 1 WAIT, 2 UP; an entry to UP resynchronises (R492). -/
def Chip.stemLink (c : Chip) (n : Nat) : Nat := c.rdf (Reg.STM_STAT n) 1 0
def Chip.setStemLink (c : Chip) (n v : Nat) : Chip :=
  let old := c.stemLink n
  if old = v then c
  else
    let c1 := c.wrf (Reg.STM_STAT n) 1 0 v
    if v = 2 then (c1.irq (pgSTM n) 0).stemResync n
    else c1.irqIf (old == 2) (pgSTM n) 1

/-- Whether the link's lane is LOCKED or IDLE (R496). -/
def Chip.stemLaneUp (c : Chip) (n : Nat) : Bool := c.laneState (4 + n) == 5 || c.laneState (4 + n) == 1

/-- Whether a good frame has arrived within four nominal tick periods (R496). -/
def Chip.stemFresh (c : Chip) (n : Nat) : Bool :=
  let x := c.stemSt n
  x.goodAt.any (fun t => decide ((c.now64 - t) * rateHz x.rate < 4 * 2 ^ x.nlog * 1000000000))

/-- The lane of the link has changed state (R496). -/
def Chip.stemLane (c : Chip) (n : Nat) : Chip :=
  if !c.en (pgSTM n) then c
  else if !c.stemLaneUp n then c.setStemLink n 0
  else if c.stemLink n = 0 then c.setStemLink n (if c.stemFresh n then 2 else 1)
  else c

/-- Setting STM CTRL.EN (R485, R492, R501). -/
def Chip.stemEnable (n : Nat) (c : Chip) : Chip :=
  if c.en (pgSTM n) then c
  else match c.stemBad n with
    | some o => c.err (pgSTM n) 0x02 (word o)
    | none =>
      let cfg := c.rd Reg.TICK_CFG
      let x := c.stemSt n
      let c1 := (c.wrb (Reg.CTRL (pgSTM n)) 0 true).setStem n { stemReset with
        rate := fld cfg 2 0, nlog := fld cfg 6 4, restart := true, ctx := x.ctx, crx := x.crx, ovf := x.ovf }
      (c1.stemResync n).stemLane n

def execStemEnable (n : Fin 4) (s : State) : Host.Outcome State Fault Refusal := s.onChip (Chip.stemEnable n)

/-- Clearing STM CTRL.EN: the link stops. -/
def Chip.stemDisable (n : Nat) (c : Chip) : Chip :=
  if c.en (pgSTM n) then
    (((c.wrb (Reg.CTRL (pgSTM n)) 0 false).setStemLink n 0).wrb (Reg.STM_STAT n) 2 false).setStem n
      { stemReset with ctx := (c.stemSt n).ctx, crx := (c.stemSt n).crx, ovf := (c.stemSt n).ovf }
  else c

/-- Whether the latched rate or block length is not the engine's (R485). -/
def Chip.stemMismatch (c : Chip) (n : Nat) : Bool :=
  let x := c.stemSt n
  x.rate != c.rdf Reg.TICK_CFG 2 0 || x.nlog != c.rdf Reg.TICK_CFG 6 4

/-- N of a link's ticks. -/
def Chip.stemN (c : Chip) (n : Nat) : Nat := 2 ^ (c.stemSt n).nlog

/-! Transmit. -/

/-- A word as it is packed (R482). -/
def stemWordBytes (w32 : Bool) (w : Word) : List Byte :=
  if w32 then wordBytes w else (sampleBytes 3 w).reverse

/-- The payload of words: blocks of eight bytes, the last padded (R482). -/
def stemPayload (w32 : Bool) (ws : List Word) : List Byte :=
  let l := ws.flatMap (stemWordBytes w32)
  l ++ List.replicate ((8 - l.length % 8) % 8) 0

/-- The CRC of a frame (R483). -/
def stemCrc (header : BitVec 56) (control payload : List Byte) : Word :=
  crc32 (natBytes 7 header.toNat ++ control ++ payload)

/-- The header field (R481). -/
def stemHeader (restart ctrl master w32 : Bool) (rate nlog nch : Nat) (tick : Word) : BitVec 56 :=
  BitVec.ofNat 56 (b2n restart * 2 ^ 51 + b2n ctrl * 2 ^ 50 + b2n master * 2 ^ 49 + b2n w32 * 2 ^ 48 + rate * 2 ^ 45 +
    nlog * 2 ^ 42 + nch * 2 ^ 32 + tick.toNat)

/-- A link's transmitter at a strobe of the running Tick Unit (R485, R487); a withheld block of its queue is faded (R217). -/
def Dev.stemTxStrobe (n : Nat) (d : Dev) : Dev :=
  let c := d.chip
  if !(c.en (pgSTM n) && c.stemCfg n 1 && c.tickRuns) then
    d.chipOp (fun c => if c.tickRuns then c else c.setStem n { c.stemSt n with words := [], tick := none, restart := true })
  else if c.stemMismatch n then d.chipOp (fun c => c.wrb (Reg.STM_STAT n) 6 true)
  else
    let (ws, d1) :=
      if c.stemCfg n 5 then
        let (l, under, f, d0) :=
          Dev.playStrobe (c.rdf (Reg.STM_Q n) 9 0) 7 n (c.tick.idx % c.tickN) c.tickN (c.stemSt n).txFade (c.stemTxCh n) d
        let d1 := d0.chipOp (fun c => c.setStem n { c.stemSt n with txFade := f })
        (l, if under then d1.chipOp (fun c => (c.count (Reg.STM_TX_UNDER n)).irq (pgSTM n) 11) else d1)
      else ((List.range (c.stemTxCh n)).map (fun i => c.sinkWord (0x800 + (c.rdf (Reg.STM_TXCH n) 26 16 + i))), d)
    d1.chipOp (fun c =>
      let x := c.stemSt n
      let x1 := if c.tick.idx = 0 then { x with words := [], tick := some (c.tick.count.setWidth 32) } else x
      match x1.tick with
      | none => c.wrb (Reg.STM_STAT n) 6 false
      | some t =>
        let l := x1.words ++ ws
        let x2 := if c.tick.idx + 1 = c.stemN n
          then { x1 with words := [], tick := none, full := x1.full ++ [(t, l)] } else { x1 with words := l }
        (c.setStem n x2).wrb (Reg.STM_STAT n) 6 false)

/-- Whether the transmitter idles after a frame of `b` payload blocks: the next burst starts 1.0 µs later at the least
(R495), in hundredths of a nanosecond. -/
def Chip.stemIdles (c : Chip) (n b : Nat) : Bool :=
  let blk := if c.rdb (Reg.LANE_CFG (4 + n)) 0 then 256 else 640
  c.stemCfg n 4 && decide ((5 + b) * blk + 600000 ≤ c.stemN n * 100000000000 / rateHz (c.stemSt n).rate)

/-- The oldest complete frame enters the transmit PCS (R480 to R483, R487, R495, R498). -/
def Chip.stemSend (n : Nat) (c : Chip) : Chip :=
  let x := c.stemSt n
  match (if c.idleReq (pgSTM n) then [] else x.full) with
  | [] => c
  | (t, ws) :: rest =>
    if !(c.en (pgSTM n) && c.stemCfg n 1 && c.tickRuns) || c.stemMismatch n then c.setStem n { x with full := [] }
    else
      let ctl := ((x.ctx.head?).getD []).flatMap wordBytes
      let control := if x.ctx.isEmpty then List.replicate 16 0 else ctl
      let w32 := c.stemCfg n 3
      let h := stemHeader x.restart (!x.ctx.isEmpty) (c.stemCfg n 0) w32 x.rate x.nlog (c.stemTxCh n) t
      let p := stemPayload w32 ws
      let f : StemFrame := { header := h, control := control, payload := p, crc := stemCrc h control p
                             blocks := p.length / 8, broken := false, start := c.now }
      let c1 := ((c.setStem n { x with full := rest, sent := some f, restart := false, ctx := x.ctx.drop 1 }).count
        (Reg.STM_TX_FRAMES n)).wr (Reg.STM_TX_LASTTICK n) t
      if c1.stemIdles n f.blocks && c1.en (pgLANE (4 + n)) && c1.rdb (Reg.LANE_CFG (4 + n)) 1 then c1.fastIdleBegin (4 + n)
      else c1

def execStemFrameSend (n : Fin 4) (s : State) : Host.Outcome State Fault Refusal := s.onChip (Chip.stemSend n)

/-- Whether AUTOIDLE is in effect on a lane (R495). -/
def Chip.autoIdle (c : Chip) (lane : Nat) : Bool :=
  decide (4 ≤ lane ∧ lane ≤ 7) && c.en (pgSTM (lane - 4)) && c.stemCfg (lane - 4) 4

/-- The burst before the next marker (R495). -/
def Chip.stemBurst (n : Nat) (c : Chip) : Chip :=
  if c.autoIdle (4 + n) && (c.lane (4 + n)).fast then c.idleExit (4 + n) else c

def execStemIdleBurst (n : Fin 4) (s : State) : Host.Outcome State Fault Refusal := s.onChip (Chip.stemBurst n)

/-- CTX_CTL.SEND (R498). -/
def Chip.ctxSend (n : Nat) (v : Word) (c : Chip) : Chip :=
  let x := c.stemSt n
  if !bit v 0 then c
  else if 8 ≤ x.ctx.length then c.err (pgSTM n) 0x03 0
  else c.setStem n { x with ctx := x.ctx ++ [(List.range 4).map (fun w => c.rd (Reg.STM_CTX n w))] }

def execCtxSend (n : Fin 4) (v : Word) (s : State) : Host.Outcome State Fault Refusal := s.onChip (Chip.ctxSend n v)

/-- A read of STMn_CRX_POP (R499): a pop shows an overflow since the last one. -/
def Chip.crxPop (n : Nat) (c : Chip) : Chip :=
  let x := c.stemSt n
  match x.crx with
  | [] => c.ret 0
  | (m, t) :: rest =>
    let c1 := forUpTo 4 (fun w c => c.wr (Reg.STM_CRX n w) (m[w]?.getD 0)) (c.setStem n { x with crx := rest, ovf := false })
    (c1.wr (Reg.STM_CRX_TICK n) t).ret (word (2 ^ 31 + b2n x.ovf * 2 ^ 30 + rest.length))

def execCrxPop (n : Fin 4) (s : State) : Host.Outcome State Fault Refusal := s.onChip (Chip.crxPop n)

/-! Receive. -/

/-- Header fields (R481). -/
def stemFFld (f : StemFrame) (hi lo : Nat) : Nat := f.header.toNat / 2 ^ lo % 2 ^ (hi + 1 - lo)
def stemFTick (f : StemFrame) : Word := f.header.setWidth 32
def stemFNch (f : StemFrame) : Nat := stemFFld f 41 32
def stemFN (f : StemFrame) : Nat := 2 ^ stemFFld f 44 42

/-- Whether a frame is a boot frame (R484, R632). -/
def stemFBoot (f : StemFrame) : Bool := stemFFld f 47 45 == 7 && stemFFld f 44 42 == 7

/-- The payload blocks that the header implies (R484). -/
def stemFImplied (f : StemFrame) : Nat :=
  if (stemFBoot f) then 512 * (stemFNch f) else ceilDiv ((stemFN f) * (stemFNch f) * (if stemFFld f 48 48 = 1 then 4 else 3)) 8

/-- Whether the assembly rules of R484 hold. -/
def stemFWhole (f : StemFrame) : Bool :=
  !f.broken && decide ((stemFNch f) ≤ 512) && f.blocks == (stemFImplied f) && f.payload.length == 8 * f.blocks &&
    f.control.length == 16

/-- Word `i` of a payload (R482). -/
def stemFWord (f : StemFrame) (i : Nat) : Word :=
  if stemFFld f 48 48 = 1 then Sys2Proof.Machine.word (leAt f.payload (4 * i) 4) else Sys2Proof.Machine.word (leAt f.payload (3 * i) 3 * 256)

/-- A frame is stored in its slot (R486, R488). -/
def Dev.stemStore (d : Dev) (n : Nat) (f : StemFrame) : Dev :=
  let c := d.chip
  let ch := c.stemRxCh n
  let base := c.stemBuf n + (stemFTick f).toNat % c.stemRxf n * (c.stemN n * ch * 4)
  let d1 := forUpTo (c.stemN n * ch) (fun i d =>
    let w := if i % ch < (stemFNch f) then stemFWord f (i / ch * (stemFNch f) + i % ch) else 0
    { d with mem := d.mem.setWord (base + 4 * i) w }) d
  d1.chipOp (fun c =>
    let x := c.stemSt n
    let slot (t : Word) : Nat := t.toNat % c.stemRxf n
    c.setStem n { x with
      frames := x.frames.filter (fun e => slot e.1 != slot (stemFTick f)) ++ [((stemFTick f), f.start)]
      last := some (stemFTick f), gapFrom := some (stemFTick f), drops := 0
      first := match x.first with
        | some t => some t
        | none => some (stemFTick f) })

/-- A good frame is dropped as late or early (R491); the second in a row resynchronises (R492). -/
def Chip.stemDrop (c : Chip) (n key : Nat) : Chip :=
  let x := c.stemSt n
  let c1 := c.count key
  if 2 ≤ x.drops + 1 then c1.stemResync n else c1.setStem n { x with drops := x.drops + 1 }

/-- The frame m - D that is due (R490). -/
def Chip.stemDue (c : Chip) (n : Nat) : Option Word := (c.stemSt n).ofs.map (fun d => c.tick.count.setWidth 32 - d)

/-- What a good frame shows of the peer (R486, R494), and its control message (R499). -/
def Chip.stemPeer (c : Chip) (n : Nat) (f : StemFrame) : Chip :=
  let master := stemFFld f 49 49 == 1
  let conflict := master == c.stemCfg n 0
  let c1 := ((((c.count (Reg.STM_RX_FRAMES n)).wr (Reg.STM_RX_LASTTICK n) (stemFTick f)).wrb (Reg.STM_STAT n) 3 master).wrb
    (Reg.STM_STAT n) 5 ((stemFNch f) != c.stemRxCh n)).wrf (Reg.STM_STAT n) 17 8 (stemFNch f)
  let c2 := if conflict then (c1.wrb (Reg.STM_STAT n) 4 true).irq (pgSTM n) 9 else c1.wrb (Reg.STM_STAT n) 4 false
  if stemFFld f 50 50 = 0 then c2
  else
    let x := c2.stemSt n
    if 8 ≤ x.crx.length then (c2.setStem n { x with ovf := true }).irq (pgSTM n) 8
    else (c2.setStem n { x with crx := x.crx ++ [(bytesWords 4 f.control, stemFTick f)] }).irq (pgSTM n) 7

/-- The gap between the last stored tick and a good frame (R497). -/
def Chip.stemGap (c : Chip) (n : Nat) (f : StemFrame) : Chip :=
  match (c.stemSt n).gapFrom with
  | some u =>
    if before (u + 1) (stemFTick f) then (c.countBy (Reg.STM_RX_GAPS n) (stemFTick f - u - 1).toNat).irq (pgSTM n) 4 else c
  | none => c

/-- A good frame (R491, R492, R496, R497): the peer, the link, a resynchronisation by RESTART unless the entry to UP just
brought one, then it is stored or dropped. -/
def Dev.stemGood (d : Dev) (n : Nat) (f : StemFrame) : Dev :=
  let restart := stemFFld f 51 51 == 1
  let cg := d.chip.setStem n { d.chip.stemSt n with goodAt := some d.chip.now64 }
  let c0 := (cg.stemPeer n f).setStemLink n 2
  let c1 := if restart && d.chip.stemLink n == 2 then c0.stemResync n else c0
  let c2 := c1.stemGap n f
  let d2 : Dev := { d with chip := c2 }
  let x := c2.stemSt n
  if !restart && x.last.any (fun u => !before u (stemFTick f)) then d2.chipOp (·.stemDrop n (Reg.STM_RX_LATE n))
  else match c2.stemDue n with
    | some t =>
      if before (stemFTick f) t then d2.chipOp (·.stemDrop n (Reg.STM_RX_LATE n))
      else if !before (stemFTick f) (t + word (c2.stemRxf n)) then d2.chipOp (·.stemDrop n (Reg.STM_RX_EARLY n))
      else d2.stemStore n f
    | none => d2.stemStore n f

/-- A Stem frame arrives on a LOCKED lane (R414, R484): assembled, its CRC checked, its format compared. A frame is
broken as well when the lane leaves LOCKED inside it. -/
def Dev.stemReceive (n : Nat) (f : StemFrame) (d : Dev) : Dev :=
  let c := d.chip
  let x := c.stemSt n
  if !(c.en (pgSTM n) && c.stemCfg n 2 && (c.laneState (4 + n) == 5 || f.broken)) then d
  else if !(stemFWhole f) then d.chipOp (fun c => (c.count (Reg.STM_RX_FRAMEERR n)).irq (pgSTM n) 3)
  else if stemCrc f.header f.control f.payload ≠ f.crc then
    d.chipOp (fun c => (c.count (Reg.STM_RX_CRCERR n)).irq (pgSTM n) 2)
  else if stemFFld f 47 45 ≠ x.rate ∨ stemFFld f 44 42 ≠ x.nlog then
    d.chipOp (fun c => (c.count (Reg.STM_RX_FMTERR n)).irq (pgSTM n) 10)
  else d.stemGood n f

def execStemFrameReceived (n : Fin 4) (f : StemFrame) (s : State) : Host.Outcome State Fault Refusal :=
  s.onDev (Dev.stemReceive n f)

/-- No good frame for four tick periods (R496). -/
def Chip.stemWait (n : Nat) (c : Chip) : Chip := if c.stemLink n = 2 then c.setStemLink n 1 else c

def execStemLinkWait (n : Fin 4) (s : State) : Host.Outcome State Fault Refusal := s.onChip (Chip.stemWait n)

/-- How many samples of a stored frame have counted (R489). -/
def Chip.stemCounted (c : Chip) (n : Nat) (start : Word) : Nat :=
  if before c.now start then 0
  else min (c.stemN n) ((c.now - start).toNat * rateHz (c.stemSt n).rate / 1000000000 + 1)

/-- The fill F (R489): the counted samples that are not released. -/
def Chip.stemFill (c : Chip) (n : Nat) : Int :=
  let x := c.stemSt n
  (x.frames.foldl (fun a e => a + c.stemCounted n e.2) 0 : Nat) - ((if x.cur.isSome then x.done else 0 : Nat) : Int)

/-- At the audio boundary A(m) of a running Tick Unit (R490, R492): the frame m - D begins, or is missed; an unaligned
link aligns once the samples from t0 on reach RX_OFS. -/
def Chip.stemAtAudio (n : Nat) (c : Chip) : Chip :=
  let x := c.stemSt n
  let m : Word := c.tick.count.setWidth 32
  if !c.en (pgSTM n) then c
  else match x.ofs with
    | some d =>
      let t := m - d
      let keep := x.frames.filter (fun e => !before e.1 t)
      if keep.any (fun e => e.1 == t) then
        c.setStem n { x with frames := keep, cur := some t, done := 0 }
      else
        ((c.setStem n { x with frames := keep, cur := none, done := 0
                               k := if x.cur.isSome then 0 else x.k, fin := 0 }).count (Reg.STM_RX_MISSED n)).irq (pgSTM n) 5
    | none =>
      match x.first with
      | some t0 =>
        if (c.rdf (Reg.STM_RX_OFS n) 15 0 : Int) ≤ c.stemFill n then
          ((c.setStem n { x with ofs := some (m - t0), cur := some t0, done := 0 }).wr (Reg.STM_RX_TICKOFS n) (m - t0)).wrb
            (Reg.STM_STAT n) 2 true
        else c
      | none => c

/-- The words a link releases at a strobe (R485, R486, R490): of the frame in release, else the fade and zeros. -/
def Dev.stemRelease (n : Nat) (d : Dev) : Dev :=
  let c := d.chip
  if !c.en (pgSTM n) then d
  else
    let x := c.stemSt n
    let ch := c.stemRxCh n
    let dead := c.stemMismatch n || !c.stemCfg n 2
    let (ws, d1) : List Word × Dev :=
      if dead then (List.replicate ch 0, d)
      else match x.cur with
        | some t =>
          if x.done < c.stemN n ∧ c.tickRuns then
            let a := c.stemBuf n + t.toNat % c.stemRxf n * (c.stemN n * ch * 4) + 4 * (x.done * ch)
            let ws := (List.range ch).map (fun i => fadeIn (d.mem.word (a + 4 * i)) x.fin)
            let lw := ((List.range ch).zip ws).foldl (fun t e => put t e.1 e.2) x.lastW
            (ws, d.chipOp (·.setStem n { x with done := x.done + 1, lastW := lw, k := 0, fin := min 32 (x.fin + 1) }))
          else (List.replicate ch 0, d)
        | none =>
          ((List.range ch).map (fun i => fadeOut (look 0 x.lastW i) x.k),
            d.chipOp (·.setStem n { x with k := min 32 (x.k + 1) }))
    if !c.stemCfg n 2 && c.stemCfg n 6 then d1
    else if c.stemCfg n 6 then d1.pushAll (c.rdf (Reg.STM_Q n) 25 16) 7 n ws
    else d1.chipOp (fun c => forUpTo ch (fun i c =>
      c.setSource (0x800 + (c.rdf (Reg.STM_RXCH n) 26 16 + i)) (ws[i]?.getD 0)) c)

/-- STMn_STATS_CLR (R502). -/
def Chip.stmStatsClr (n : Nat) (v : Word) (c : Chip) : Chip :=
  if bit v 0 then forUpTo 11 (fun i c => c.wr (Reg.STM_TX_FRAMES n + 4 * i) 0) c else c

def execStmStatsClr (n : Fin 4) (v : Word) (s : State) : Host.Outcome State Fault Refusal :=
  s.onChip (Chip.stmStatsClr n v)

/-- A write of 0x040 to 0x054: only while EN = 0 (R501). -/
def Chip.stemLockedWrite (n key : Nat) (v : Word) (c : Chip) : Chip :=
  if c.en (pgSTM n) then c.err (pgSTM n) 0x01 (word (key % 0x1000)) else c.wr key v

/-- STMn_STAT, STMn_FILL and STMn_CTX_STAT as they read. -/
def Chip.stemView (c : Chip) (n key : Nat) : Option Word :=
  if key = Reg.STM_STAT n then some (setBit (c.rd key) 6 (c.en (pgSTM n) && c.stemMismatch n))
  else if key = Reg.STM_FILL n then some ((BitVec.ofInt 16 (c.stemFill n)).setWidth 32)
  else if key = Reg.STM_CTX_STAT n then some (word (8 - (c.stemSt n).ctx.length))
  else none

/-- A reset that reaches page STMn (R500). -/
def Chip.resetStem (n : Nat) (c : Chip) : Chip := { c.resetPage (pgSTM n) with stem := drop (· == n) c.stem }

end Sys2Proof.Machine
end

