-- ==== Sys2Proof/Machine/Speaker.lean ====
section
/-! DEFINITION. Speaker drive (R503 to R532): the channel states, shorts and retries, diagnostics, the loop's monitors,
Station Avoid. The words of the channels stand in Machine/Output.lean. -/

namespace Sys2Proof.Machine

/-- Channel `n` beside its registers. -/
def Chip.spkSt (c : Chip) (n : Nat) : SpkSt := look spkReset c.spk n
def Chip.setSpk (c : Chip) (n : Nat) (x : SpkSt) : Chip := { c with spk := put c.spk n x }

/-- STATE (R514): 0 OFF, 1 MUTED, 2 DIAG, 3 START, 4 PLAY, 5 STOPPING, 6 SHORT, 7 LATCHED. -/
def Chip.spkState (c : Chip) (n : Nat) : Nat := c.rdf (Reg.SPK_STAT n) 2 0

/-- START, PLAY and STOPPING count as playing (R514). -/
def playingState (s : Nat) : Bool := 3 ≤ s && s ≤ 5

/-- RETRIES (R530). -/
def Chip.spkRetries (c : Chip) (n : Nat) : Nat := c.rdf (Reg.SPK_STAT n) 5 4
def Chip.setRetries (c : Chip) (n v : Nat) : Chip := c.wrf (Reg.SPK_STAT n) 5 4 v

/-- The channel enters a state: IRQ_RAW.STATE on a change, LATCH_ANY on entry to LATCHED (R514, R531); a channel that does
not play does not switch. -/
def Chip.setSpkState (c : Chip) (n v : Nat) : Chip :=
  if c.spkState n = v then c
  else
    let c1 := (c.wrf (Reg.SPK_STAT n) 2 0 v).irq (pgSPK n) 6
    let c2 := if v = 7 then c1.irq pgSPKC 0 else c1
    if playingState v then c2
    else (c2.wrb (Reg.SPK_STAT n) 9 false).setSpk n
      { c2.spkSt n with switch := false, rampV := 0, m := 0, limit := false, clean := 0, low := 0 }

/-- SPKn_FLT_N is low (R530). -/
def Chip.fltLow (c : Chip) (n : Nat) : Bool := c.rdb (Reg.SPK_STAT n) 8

/-- The level of SPKn_FLT_N: IRQ_RAW.FLT_IN at its falling edge (R528). -/
def Chip.setFlt (c : Chip) (n : Nat) (low : Bool) : Chip :=
  let c1 := c.wrb (Reg.SPK_STAT n) 8 low
  if low && !c.fltLow n then c1.irq (pgSPK n) 5 else c1

/-- A channel is refused a command (R515). -/
def Chip.spkRefuse (c : Chip) (n code info : Nat) : Chip := c.err (pgSPK n) code (word info)

/-! Station Avoid. -/

/-- Whether f is permitted (R512). -/
def Chip.saPermits (c : Chip) (f : Nat) : Bool :=
  let d : Nat := max 1 (c.rdf Reg.SPKC_SA_CFG 7 0)
  (List.range 16).all (fun i =>
    !c.rdb Reg.SPKC_SA_EN i ||
      [1, 2, 3].all (fun h => decide ((d : Int) ≤ (((h * f : Nat) : Int) - (c.rdf (Reg.SPKC_SA_F i) 14 0 : Int)).natAbs)))

/-- The candidates in the order of R513: FREQ, FREQ - 1, FREQ + 1, and so on to the span. -/
def saCandidates (freq span : Nat) : List Nat :=
  freq :: (List.range span).flatMap (fun k => [freq - (k + 1), freq + (k + 1)])

/-- The frequency the channel switches at (R513); none when Station Avoid finds no permitted one. -/
def Chip.spkFreq (c : Chip) (n : Nat) : Option Nat :=
  let freq := c.rdf (Reg.SPK_CFG n) 10 0
  if c.rdb (Reg.SPK_CFG n) 16 then
    (saCandidates freq (c.rdf Reg.SPKC_SA_CFG 23 16)).find? (fun f => 300 ≤ f && f ≤ 1200 && c.saPermits f)
  else some freq

/-! Shorts (R519 to R522). -/

/-- A detector acts on a playing channel: SHORT, or LATCHED when RETRIES = 3. Cause 1 COMP, 2 LOAD, 3 FLT. -/
def Chip.spkShort (n cause : Nat) (c : Chip) : Chip :=
  if !playingState (c.spkState n) then c
  else
    let c1 := ((c.wrf (Reg.SPK_STAT n) 7 6 cause).count (Reg.SPK_SHORTS n)).irq (pgSPK n) 0
    if c.spkRetries n = 3 then (c1.irq (pgSPK n) 1).setSpkState n 7 else c1.setSpkState n 6

/-- The comparator of R520: in DIAG it is a finding of the phase (R518). -/
def Chip.spkComp (n : Nat) (c : Chip) : Chip :=
  if c.spkState n = 2 then c.setSpk n { c.spkSt n with trip := true } else c.spkShort n 1

def execComparatorTrip (n : Fin 16) (s : State) : Host.Outcome State Fault Refusal := s.onChip (Chip.spkComp n)

/-- SPKn_FLT_N falls (R522, R528). -/
def Chip.spkFault (n : Nat) (c : Chip) : Chip :=
  let c1 := (c.setFlt n true).irq (pgSPK n) 5
  if c1.spkState n = 2 then c1.setSpk n { c1.spkSt n with fault := true } else c1.spkShort n 3

/-- SPKn_FLT_N as a command finds it (R524): its fall acts before the command. -/
def Chip.spkFltSeen (n : Nat) (low : Bool) (c : Chip) : Chip :=
  if low && !c.fltLow n then c.spkFault n else c.setFlt n low

def execStageFault (n : Fin 16) (s : State) : Host.Outcome State Fault Refusal := s.onChip (Chip.spkFault n)

/-! Commands. -/

/-- The first register that makes a PLAY or a DIAG invalid (R529). -/
def Chip.spkInvalid (c : Chip) (n : Nat) (play : Bool) : Option Nat :=
  let freq := c.rdf (Reg.SPK_CFG n) 10 0
  if freq < 300 ∨ 1200 < freq then some (Reg.SPK_CFG n)
  else if c.rdf (Reg.SPK_MOD n) 7 0 = 0 then some (Reg.SPK_MOD n)
  else if c.rdf (Reg.SPK_SENSE n) 15 0 = 0 ∨ c.rdf (Reg.SPK_SENSE n) 31 16 = 0 then some (Reg.SPK_SENSE n)
  else if play ∧ c.rdf (Reg.SPK_LOOP n) 15 0 = 0 then some (Reg.SPK_LOOP n)
  else none

/-- Foxglove's pin path at the channel (R538); `fgPin` of every output stands in Machine/Foxglove.lean. -/
def Chip.spkHeld (c : Chip) (n : Nat) : Bool :=
  let s := c.rdf Reg.FG_STATE 2 0
  s == 0 || s == 3 || !c.fg.alive || c.fg.soft || (look guardReset c.fg.guards (520 + n)).pin

/-- A PLAY or DIAG that the state admits: refused under R515, R529 and R513, else `go` with f_act set when the
channel leaves MUTED. -/
def Chip.spkLaunch (c : Chip) (n : Nat) (play : Bool) (go : Chip → Chip) : Chip :=
  if c.spkHeld n then c.spkRefuse n 0x05 0
  else if c.fltLow n then c.spkRefuse n 0x08 0
  else match c.spkInvalid n play with
    | some k => c.spkRefuse n 0x02 (k % 0x1000)
    | none =>
      match c.spkFreq n with
      | none => if c.spkState n = 1 then c.spkRefuse n 0x04 0 else go c
      | some f => go (if c.spkState n = 1 then c.wrf (Reg.SPK_STAT n) 26 16 f else c)

/-- The channel enters START (R516): SPKn_EN high, not yet switching. -/
def Chip.spkStart (n : Nat) (c : Chip) : Chip := c.setSpkState n 3

/-- SPKn_CMD.PLAY (R515); a channel acknowledged for IDLE_REQ starts nothing (R55, R528). -/
def Chip.spkPlay (n : Nat) (c : Chip) : Chip :=
  match c.spkState n with
  | 1 => if c.idleReq (pgSPK n) then c else c.spkLaunch n true (Chip.spkStart n)
  | 2 => c.spkRefuse n 0x07 0
  | 7 => c.spkRefuse n 0x06 0
  | _ => c

def execSpkPlay (n : Fin 16) (fltLow : Bool) (s : State) : Host.Outcome State Fault Refusal :=
  s.onChip (fun c => (c.spkFltSeen n fltLow).spkPlay n)

/-- A diagnostic run ends (R518): result, node and R; what the run did not give is free. -/
def Chip.diagResult (c : Chip) (n code : Nat) (node : Option Bool) (r : Option Nat) : Chip :=
  let w := c.freeNow 32
  let bitN := (node.map b2n).getD (fld w 3 3)
  let bitsR := (r.map (min 0xFFFF)).getD (fld w 31 16)
  ((c.freeNext).wr (Reg.SPK_DIAG_RES n) (word (code + 8 * bitN + 0x1_0000 * bitsR))).irq (pgSPK n) 2

/-- SPKn_CMD.MUTE (R515): the ramp falls from its present value, in parts of 20,000,000 per ns. -/
def Chip.spkRamp (c : Chip) (n : Nat) : Nat :=
  let x := c.spkSt n
  let t := (c.now - x.rampAt).toNat
  match c.spkState n with
  | 3 => if x.switch then min 20000000 t else 0
  | 4 => 20000000
  | 5 => x.rampV - 4 * t
  | _ => 0

def Chip.spkMute (n : Nat) (c : Chip) : Chip :=
  match c.spkState n with
  | 3 | 4 =>
    let c1 := c.setSpk n { c.spkSt n with rampV := c.spkRamp n, rampAt := c.now }
    c1.setSpkState n 5
  | 2 => (c.diagResult n 6 none none).setSpkState n 1
  | 6 => (c.setRetries n 0).setSpkState n 1
  | _ => c

def execSpkMute (n : Fin 16) (s : State) : Host.Outcome State Fault Refusal := s.onChip (Chip.spkMute n)

/-- SPKn_CMD.DIAG (R515, R517). -/
def Chip.spkDiag (n : Nat) (c : Chip) : Chip :=
  match c.spkState n with
  | 1 | 7 =>
    if c.idleReq (pgSPK n) then c else c.spkLaunch n false (fun c =>
      (c.setSpk n { c.spkSt n with back := c.spkState n, phase := 0, trip := false, fault := false }).setSpkState n 2)
  | 3 | 4 | 5 | 6 => c.spkRefuse n 0x03 0
  | _ => c

def execSpkDiag (n : Fin 16) (fltLow : Bool) (s : State) : Host.Outcome State Fault Refusal :=
  s.onChip (fun c => (c.spkFltSeen n fltLow).spkDiag n)

/-- SPKn_CMD.CLEAR (R515). -/
def Chip.spkClear (n : Nat) (c : Chip) : Chip :=
  if c.spkState n = 7 then (c.setRetries n 0).setSpkState n 1 else c

def execSpkClear (n : Fin 16) (s : State) : Host.Outcome State Fault Refusal := s.onChip (Chip.spkClear n)

/-- A write of SPKn_CMD: its bits in ascending order (R669). -/
def Chip.spkCmd (n : Nat) (v : Word) (c : Chip) : Chip :=
  let act (b : Nat) (f : Chip → Chip) (c : Chip) : Chip := if bit v b then f c else c
  act 3 (Chip.spkClear n) (act 2 (Chip.spkDiag n) (act 1 (Chip.spkMute n) (act 0 (Chip.spkPlay n) c)))

/-- CTRL.EN of a channel (R514). -/
def Chip.spkEnable (n : Nat) (on : Bool) (c : Chip) : Chip :=
  let c1 := c.wrb (Reg.CTRL (pgSPK n)) 0 on
  if on then (if c.spkState n = 0 then c1.setSpkState n 1 else c1) else c1.setSpkState n 0

def execSpkEnable (n : Fin 16) (on : Bool) (s : State) : Host.Outcome State Fault Refusal :=
  s.onChip (Chip.spkEnable n on)

/-! Soft start and soft stop (R516). -/

/-- 50 µs after START switching begins with m = 0. -/
def Chip.softSwitch (n : Nat) (c : Chip) : Chip :=
  if c.spkState n = 3 ∧ !(c.spkSt n).switch then
    c.setSpk n { c.spkSt n with switch := true, m := 0, rampAt := c.now, rampV := 0 }
  else c

def execSoftStartSwitching (n : Fin 16) (s : State) : Host.Outcome State Fault Refusal := s.onChip (Chip.softSwitch n)

/-- The ramp reaches 1 and the channel enters PLAY. -/
def Chip.softStarted (n : Nat) (c : Chip) : Chip :=
  if c.spkState n = 3 ∧ (c.spkSt n).switch then c.setSpkState n 4 else c

def execSoftStartDone (n : Fin 16) (s : State) : Host.Outcome State Fault Refusal := s.onChip (Chip.softStarted n)

/-- The soft stop ends in MUTED. -/
def Chip.softStopped (n : Nat) (c : Chip) : Chip := if c.spkState n = 5 then c.setSpkState n 1 else c

def execSoftStopDone (n : Fin 16) (s : State) : Host.Outcome State Fault Refusal := s.onChip (Chip.softStopped n)

/-! Retries (R522). -/

/-- 100 ms after entering SHORT (R522). -/
def Chip.spkRetry (n : Nat) (low : Bool) (c : Chip) : Chip :=
  let c1 := c.spkFltSeen n low
  if c.spkState n = 6 ∧ !low ∧ c.spkRetries n < 3 then (c1.setRetries n (c.spkRetries n + 1)).spkStart n else c1

def execShortRetry (n : Fin 16) (fltLow : Bool) (s : State) : Host.Outcome State Fault Refusal :=
  s.onChip (Chip.spkRetry n fltLow)

/-- One second in PLAY (R522). -/
def Chip.spkSettled (n : Nat) (c : Chip) : Chip := if c.spkState n = 4 then c.setRetries n 0 else c

def execRetryReset (n : Fin 16) (s : State) : Host.Outcome State Fault Refusal := s.onChip (Chip.spkSettled n)

/-- Foxglove's pin-level mute asserts at the channel (R523): FG_MUTE in every state. -/
def Chip.spkFgMute (n : Nat) (c0 : Chip) : Chip :=
  let c := c0.irq (pgSPK n) 4
  let s := c.spkState n
  if 2 ≤ s ∧ s ≤ 6 then
    let c1 := if s = 2 then c.diagResult n 6 none none else c
    (c1.setRetries n 0).setSpkState n 1
  else c

/-! The loop (R507, R508, R521). -/

/-- The mean of a list, truncated toward zero. -/
def meanOf (l : List Int) : Int := Int.tdiv (l.foldl (· + ·) 0) l.length

/-- The samples of the last `ns` nanoseconds. -/
def recent {α : Type} (now : Word) (ns : Nat) (l : List (Word × α)) : List (Word × α) :=
  l.filter (fun e => (now - e.1).toNat ≤ ns)

/-- VDC and IPEAK (R530). -/
def Chip.spkMeasure (n : Nat) (v i : Int) (c : Chip) : Chip :=
  let x := c.spkSt n
  let vs := (c.now, v) :: recent c.now 50000000 x.volts
  let is := (c.now, i.natAbs) :: recent c.now 10000000 x.amps
  let c1 := c.setSpk n { x with volts := vs, amps := is }
  let peak := is.foldl (fun a e => max a e.2) 0
  (c1.stat (Reg.SPK_VDC n) (BitVec.ofInt 32 (meanOf (vs.map (·.2))))).stat (Reg.SPK_IPEAK n) (word (min 0xFFFF (peak / 10)))

/-- The current limit (R508): an episode ends after 64 loop periods without limiting. -/
def Chip.spkLimit (n : Nat) (i : Int) (c : Chip) : Chip :=
  let lim := c.rdf (Reg.SPK_ILIM n) 15 0
  let isOver := decide (lim ≠ 0 ∧ lim * 10 < i.natAbs)
  let x := c.spkSt n
  let c1 := (c.wrb (Reg.SPK_STAT n) 9 isOver).setSpk n { x with limit := isOver, clean := if isOver then 64 else x.clean - 1 }
  if isOver ∧ x.clean = 0 then (c1.count (Reg.SPK_CLIPS n)).irq (pgSPK n) 3 else c1

/-- m of the next period: the spec gives the loop by its bandwidth alone, so m is a free value within MMAX / 256
(R506, R507), and below the present one while the current is limited. -/
def Chip.spkModulate (n : Nat) (c : Chip) : Chip :=
  let x := c.spkSt n
  let most : Int := c.rdf (Reg.SPK_MOD n) 7 0 * 2 ^ 23
  let lim : Int := if x.limit then max 0 ((x.m.natAbs : Int) - 1) else most
  (c.setSpk n { x with m := clampInt (-lim) lim (c.freeNow 32).toInt }).freeNext

/-- The impedance monitor (R521): 500 mA, and |V| / |I| < RSHORT in 64 loop periods. -/
def Chip.spkMonitor (n : Nat) (v i : Int) (c : Chip) : Chip :=
  let r := c.rdf (Reg.SPK_DIAG_LIM n) 7 0
  let x := c.spkSt n
  let low := decide (500 ≤ i.natAbs ∧ 10 * v.natAbs < r * i.natAbs)
  if low ∧ x.low = 63 then c.spkShort n 2
  else c.setSpk n { x with low := if low then x.low + 1 else 0 }

/-- A loop period of a switching channel. -/
def Chip.spkLoop (n : Nat) (v i : Int) (c : Chip) : Chip :=
  if playingState (c.spkState n) ∧ (c.spkSt n).switch then
    (((c.spkMeasure n v i).spkLimit n i).spkModulate n).spkMonitor n v i
  else c

def execLoopPeriod (n : Fin 16) (vDiffMv iMa : BitVec 32) (s : State) : Host.Outcome State Fault Refusal :=
  s.onChip (Chip.spkLoop n vDiffMv.toInt iMa.toInt)

/-! Diagnostics (R517, R518). -/

/-- The finding of a phase: result and node; none when the phase is good. -/
def Chip.diagFinding (c : Chip) (n : Nat) (f : DiagFinding) : Option (Nat × Option Bool) :=
  let x := c.spkSt n
  let node := x.phase % 2 == 1
  let trip := f.compTrip || x.trip
  let fault := f.fltLow || x.fault
  if x.phase < 2 then
    if f.stuckLow then some (2, some node)
    else if trip then some (2, some !node)
    else if fault then some (2, some node)
    else none
  else if x.phase < 4 then
    if f.stuckHigh then some (3, some node)
    else if trip then some (3, some !node)
    else if fault then some (3, some node)
    else none
  else if f.r10m < c.rdf (Reg.SPK_DIAG_LIM n) 7 0 * 10 ∨ trip ∨ fault then some (5, none)
  else if c.rdf (Reg.SPK_DIAG_LIM n) 23 16 * 50 < f.r10m then some (4, none)
  else none

/-- The end of a phase of a diagnostic run. -/
def Chip.spkDiagPhase (n : Nat) (f : DiagFinding) (c0 : Chip) : Chip :=
  let c := c0.setFlt n f.fltLow
  let x := c.spkSt n
  if c.spkState n ≠ 2 then c
  else
    let r := if x.phase = 4 then some f.r10m else none
    match c.diagFinding n f with
    | some (code, node) => (c.diagResult n code node r).setSpkState n x.back
    | none =>
      if x.phase = 4 then (c.diagResult n 1 none r).setSpkState n x.back
      else c.setSpk n { x with phase := x.phase + 1, trip := false, fault := false }

def execDiagPhase (n : Fin 16) (f : DiagFinding) (s : State) : Host.Outcome State Fault Refusal :=
  s.onChip (Chip.spkDiagPhase n f)

/-! Registers. -/

/-- SPKn_STATS_CLR (R530). -/
def Chip.spkStatsClr (n : Nat) (v : Word) (c : Chip) : Chip :=
  if bit v 0 then (c.wr (Reg.SPK_SHORTS n) 0).wr (Reg.SPK_CLIPS n) 0 else c

def execSpkStatsClr (n : Fin 16) (v : Word) (s : State) : Host.Outcome State Fault Refusal :=
  s.onChip (Chip.spkStatsClr n v)

/-- A write of a register that plays no part while the channel works (R529). -/
def Chip.spkCfgWrite (c : Chip) (n k : Nat) (v : Word) : Chip :=
  if 2 ≤ c.spkState n ∧ c.spkState n ≤ 6 then c.spkRefuse n 0x01 (k % 0x1000) else c.wr k v

/-- A write of SPKn_VOL: a new target (R267, R505). -/
def Chip.spkVolWrite (n : Nat) (v : Word) (c : Chip) : Chip :=
  let x := c.spkSt n
  (c.wr (Reg.SPK_VOL n) v).setSpk n { x with vol := x.vol.retarget v c.now }

/-- The timeout of a pending volume step (R267). -/
def Chip.spkVolTimeout (n : Nat) (c : Chip) : Chip := c.setSpk n { c.spkSt n with vol := (c.spkSt n).vol.apply }

/-- A write of the station list (R532). -/
def Chip.saWrite (c : Chip) (k : Nat) (v : Word) : Chip :=
  let busy := (List.range 16).any (fun n => c.rdb (Reg.SPK_CFG n) 16 && decide (2 ≤ c.spkState n ∧ c.spkState n ≤ 6))
  if busy then c.err pgSPKC 0x01 0 else c.wr k v

/-- SPKC_PLAYING and SPKC_LATCHED (R532). -/
def Chip.spkPlaying (c : Chip) : Word := bitsOf (fun n => decide (n < 16) && playingState (c.spkState n))
def Chip.spkLatched (c : Chip) : Word := bitsOf (fun n => decide (n < 16) && c.spkState n == 7)

/-- A reset that reaches page SPKn (R527); the level of SPKn_FLT_N stays what it is. -/
def Chip.resetSpk (n : Nat) (c : Chip) : Chip :=
  ((c.resetPage (pgSPK n)).wrb (Reg.SPK_STAT n) 8 (c.fltLow n)).setSpk n spkReset

/-! The bridge's pins (R504, R506, R509 to R511, R514), in grid steps of 62.5 ps. -/

/-- SPKn_EN: high from DIAG to STOPPING, unless Foxglove's pin path holds it low. -/
def Chip.spkEnPin (c : Chip) (n : Nat) : Bool := 2 ≤ c.spkState n && c.spkState n ≤ 5 && !c.spkHeld n

/-- Whether the gates switch: in DIAG the probe pulses, while playing once the soft start has begun. -/
def Chip.spkSwitches (c : Chip) (n : Nat) : Bool :=
  c.spkEnPin n && (c.spkState n == 2 || (c.spkSt n).switch)

/-- The dead time in force (R510). -/
def Chip.spkDeadTime (c : Chip) (n : Nat) : Nat := clampNat 80 3200 (c.rdf (Reg.SPK_DT n) 11 0)

/-- Where period `k` begins, counted from where the common reference of f_act begins its first (R509, R511): rounded to the
grid, the rounding error carried on. -/
def Chip.spkPeriodAt (c : Chip) (n k : Nat) : Nat :=
  let f := max 1 (c.rdf (Reg.SPK_STAT n) 26 16)
  (2 * (16 * k + n) * 1000000 + f) / (2 * f)

/-- An on-time after dead time, none when it is shorter than TMIN (R506). -/
def Chip.spkOnTime (c : Chip) (n : Nat) (t : Int) : Option Nat :=
  let on := t - c.spkDeadTime n
  if 0 < on ∧ (16 * c.rdf (Reg.SPK_MOD n) 23 16 : Int) ≤ on then some on.toNat else none

/-- The on-times of the high and the low gate of half-bridge A, or B, in period `k` (R506): duty (1 + m) / 2, or (1 - m) / 2.
A half-bridge with a gate that has none keeps its state for the period. -/
def Chip.spkGates (c : Chip) (n k : Nat) (b : Bool) : Option Nat × Option Nat :=
  let len : Int := (c.spkPeriodAt n (k + 1) : Int) - c.spkPeriodAt n k
  let m := if b then -(c.spkSt n).m else (c.spkSt n).m
  let high := len * (2 ^ 31 + m) / 2 ^ 32
  (c.spkOnTime n high, c.spkOnTime n (len - high))

end Sys2Proof.Machine
end

