-- ==== Sys2Proof/Machine/Foxglove.lean ====
section
/-! DEFINITION. Foxglove (R533 to R562): states, causes, the Output Guard's limits and detectors, seal and release. The
words that pass the guards stand in Machine/Output.lean; what FORCE_QUIET_IN does to a pair in Machine/Marigold.lean. -/

namespace Sys2Proof.Machine

/-! State, causes and paths. -/

/-- FG_STATE.STATE (R537): 0 HOLD, 1 RUN, 2 QUIET, 3 FAULT. -/
def Chip.fgState (c : Chip) : Nat := c.rdf Reg.FG_STATE 2 0

/-- A quiet cause by its bit of FG_QCAUSE: 0 WDOG, 1 SAFE, 2 FQI, 3 STANDBY, 4 SW. -/
def Chip.fgCause (c : Chip) (b : Nat) : Bool := c.rdb Reg.FG_QCAUSE b

/-- A soft global cause: WDOG, SAFE, SW. A hard cause of the SAP and AES3 outputs: FQI, STANDBY (R538). -/
def Chip.fgSoft (c : Chip) : Bool := c.fgCause 0 || c.fgCause 1 || c.fgCause 4
def Chip.fgHard (c : Chip) : Bool := c.fgCause 2 || c.fgCause 3

/-- HOLD and FAULT assert both paths of every output (R537). -/
def Chip.fgBoth (c : Chip) : Bool := c.fgState == 0 || c.fgState == 3

/-- Guard `g` and its bits in GUARD_TRIPw and GUARD_LOCKw (R561). -/
def Chip.guard (c : Chip) (g : Nat) : GuardSt := look guardReset c.fg.guards g
def Chip.setGuard (c : Chip) (g : Nat) (x : GuardSt) : Chip := { c with fg := { c.fg with guards := put c.fg.guards g x } }
def Chip.tripped (c : Chip) (g : Nat) : Bool := c.rdb (Reg.GUARD_TRIP (g / 32)) (g % 32)
def Chip.lockedOut (c : Chip) (g : Nat) : Bool := c.rdb (Reg.GUARD_LOCK (g / 32)) (g % 32)

/-- Whether the pin path of output `g` is asserted (R536 to R539). -/
def Chip.fgPin (c : Chip) (g : Nat) : Bool :=
  c.fgBoth || !c.fg.alive || c.fg.soft || (decide (g < 520) && c.fgHard) || (c.guard g).pin

/-- Whether DOUT of SAPp, or the pins of transmitter n, are at high impedance (R538: the pin group). -/
def Chip.sapPinned (c : Chip) (p : Nat) : Bool := (List.range 32).any (fun s => c.fgPin (8 + 32 * p + s))
def Chip.aesPinned (c : Chip) (n : Nat) : Bool := c.fgPin (2 * n) || c.fgPin (2 * n + 1)

/-- PAIRED, the role Marigold reports (R566), and TAKEOVER_OUT (R548). -/
def Chip.paired (c : Chip) : Bool := c.rdb Reg.FG_CFG 16
def Chip.roleActive (c : Chip) : Bool := c.rdf Reg.MGLD_ROLE 2 0 == 1
def Chip.takeoverOut (c : Chip) : Bool :=
  c.fg.totest || (c.paired && c.roleActive && (c.fgState == 1 || c.fgState == 2))

/-- Foxglove enters a state (R537): FG_HIST and IRQ_RAW; HOLD and FAULT assert the Z path at once. -/
def Chip.fgEnter (c : Chip) (v : Nat) : Chip :=
  let c1 := ((c.wrf Reg.FG_STATE 2 0 v).wrb Reg.FG_HIST v true).irq pgFG
    (match v with
      | 0 => 5
      | 1 => 0
      | 2 => 1
      | _ => 2)
  if v = 0 ∨ v = 3 then { c1 with fg := { c1.fg with gain := 0 } } else c1

/-- A quiet cause is raised or cleared; with the last soft one the global pin path is released (R539). -/
def Chip.fgSetCause (c : Chip) (b : Nat) (on : Bool) : Chip :=
  let c1 := c.wrb Reg.FG_QCAUSE b on
  if c1.fgSoft then c1 else { c1 with fg := { c1.fg with soft := false } }

/-- STANDBY follows PAIRED and the reported role; it clears by its own wait (R548). -/
def Chip.fgStandby (c : Chip) : Chip := if c.paired && !c.roleActive then c.fgSetCause 3 true else c

/-- RUN and QUIET follow the quiet causes (R537). -/
def Chip.fgFollow (c : Chip) : Chip :=
  let quiet := c.rdf Reg.FG_QCAUSE 4 0 != 0
  if c.fgState = 1 ∧ quiet then c.fgEnter 2
  else if c.fgState = 2 ∧ !quiet then c.fgEnter 1
  else c

/-- MGLD_ROLE.ROLE_CONFLICT and its flag (R567, R584). -/
def Chip.mgldConflict (c : Chip) : Chip := (c.wrb Reg.MGLD_ROLE 12 true).irq pgMGLD 6

/-- TOTEST ends with HOLD, and TAKEOVER_OUT's rise is timed (R548, R584): on an ACTIVE unit, within 10 µs of
FORCE_QUIET_IN's, it is a conflict. -/
def Chip.fgTake (c : Chip) : Chip :=
  let c1 := if c.fgState = 0 then c else { c with fg := { c.fg with totest := false } }
  let at' := if c1.takeoverOut then some (c1.fg.takeAt.getD c1.now64) else none
  let near := match c1.fg.fqiAt with
    | some t => decide (c1.now64 - t < 10000)
    | none => false
  let c2 := { c1 with fg := { c1.fg with takeAt := at' } }
  if near && c1.roleActive && c1.takeoverOut && c1.fg.takeAt.isNone then c2.mgldConflict else c2

/-- What follows from any change at Foxglove: its state, TAKEOVER_OUT, and MUTED for each speaker channel whose pin path
now asserts (R523, R537, R548). -/
def Chip.fgSettle (old c : Chip) : Chip :=
  let c1 := c.fgStandby.fgFollow.fgTake
  forUpTo 16 (fun n c => if !old.fgPin (520 + n) && c.fgPin (520 + n) then c.spkFgMute n else c) c1

/-- A change at Foxglove with what follows from it. -/
def Chip.fgDo (c : Chip) (f : Chip → Chip) : Chip := c.fgSettle (f c)

/-- FAULT (R537), with its bit of FG_FAULT (R559): 0 XCHK, 1 COPY, 2 OSC, 3 SUPPLY. -/
def Chip.fgFault (c : Chip) (b : Nat) : Chip :=
  let c1 := c.wrb Reg.FG_FAULT b true
  if c.fgState = 3 then c1 else c1.fgEnter 3

/-! Trips (R538, R544). -/

/-- The output's windows, stuck run and duty windows restart. -/
def GuardSt.restart (x : GuardSt) : GuardSt :=
  { x with sum := 0, cnt := 0, win := none, dcRun := 0, last := 0, run := 0, duty := 0 }

/-- A detector trips output `g`: 1 CEIL, 2 DC, 3 STUCK, 4 DUTY, 5 GATE. Detectors act in RUN and QUIET, and not on an
output whose trip is held. -/
def Chip.fgTrip (g cause : Nat) (c : Chip) : Chip :=
  if c.fgBoth || c.tripped g then c
  else
    let x := c.guard g
    let times := c.now64 :: x.times.filter (fun t => decide (c.now64 - t ≤ 10000000000))
    let fourth := decide (4 ≤ times.length)
    let hard := cause == 4 || cause == 5 || (cause == 1 && decide (520 ≤ g))
    let c1 := ((c.wrb (Reg.GUARD_TRIP (g / 32)) (g % 32) true).irq pgGUARD 0).setGuard g
      { x with times := times, timed := false, pin := hard || fourth }
    let c2 := { c1 with fg := { c1.fg with cause := put c1.fg.cause g cause } }
    if fourth then (c2.wrb (Reg.GUARD_LOCK (g / 32)) (g % 32) true).irq pgGUARD 1 else c2

/-- A trip with what follows from it. -/
def Chip.fgTripped (g cause : Nat) (c : Chip) : Chip := c.fgDo (Chip.fgTrip g cause)

/-- Whether the held trip of `g` is soft (R538): DC or STUCK without a lockout. -/
def Chip.softTrip (c : Chip) (g : Nat) : Bool :=
  let k := look 0 c.fg.cause g
  c.tripped g && !c.lockedOut g && (k == 2 || k == 3)

/-- Software clears one trip (R544): the pin path is released and the detectors restart; not in LOCKOUT. -/
def Chip.tripClearOne (g : Nat) (c : Chip) : Chip :=
  if c.tripped g && !c.lockedOut g then
    (c.wrb (Reg.GUARD_TRIP (g / 32)) (g % 32) false).setGuard g { (c.guard g).restart with timed := false, pin := false }
  else c

/-- A write of GUARD_TRIPw. -/
def Chip.tripClear (w : Nat) (v : Word) (c : Chip) : Chip :=
  c.fgDo (forUpTo 32 (fun b c => if bit v b && decide (32 * w + b < 536) then c.tripClearOne (32 * w + b) else c))

def execTripClear (w : Fin 17) (v : Word) (s : State) : Host.Outcome State Fault Refusal :=
  s.onChip (Chip.tripClear w v)

/-- DCTHR in force and whether the DC detector works (R541). -/
def Chip.dcThr (c : Chip) (g : Nat) : Nat :=
  let t := c.rdf (Reg.GUARD_G g) 23 16
  if 520 ≤ g then min t 40 else t
def Chip.dcOn (c : Chip) (g : Nat) : Bool := c.rdb (Reg.GUARD_G g) 28 || decide (520 ≤ g)

/-- A DC averaging window ends (R541); the detector of a held trip is idle (R544). -/
def Chip.dcWindow (g : Nat) (c : Chip) : Chip :=
  let x := c.guard g
  match (if c.fgBoth || c.tripped g then none else x.win) with
  | none => c
  | some (sum, n) =>
    let isOver := decide (((c.dcThr g * 2 ^ 19 * n : Nat) : Int) < sum.natAbs)
    let run := if isOver then x.dcRun + 1 else 0
    let c1 := c.setGuard g { x with win := none, mean := Int.tdiv sum n, dcRun := run }
    if c.rdf (Reg.GUARD_G g) 26 24 + 1 ≤ run then c1.fgTripped g 2 else c1

def execDcWindow (g : Fin 536) (s : State) : Host.Outcome State Fault Refusal := s.onChip (Chip.dcWindow g)

/-- A 20 ms duty window ends (R543); `mean` is the mean of duty(HA) - duty(HB) in Q1.31. -/
def Chip.dutyWindow (n : Nat) (mean : Int) (c : Chip) : Chip :=
  let g := 520 + n
  let x := c.guard g
  if c.fgBoth || c.tripped g then c
  else
    let run := if c.dcThr g * 2 ^ 19 < mean.natAbs then x.duty + 1 else 0
    let c1 := c.setGuard g { x with duty := run }
    if 2 ≤ run then c1.fgTripped g 4 else c1

def execDutyWindow (n : Fin 16) (mean : BitVec 32) (s : State) : Host.Outcome State Fault Refusal :=
  s.onChip (Chip.dutyWindow n mean.toInt)

/-- A gate pin differs from its command for 200 ns (R543). -/
def execGateTrip (n : Fin 16) (s : State) : Host.Outcome State Fault Refusal := s.onChip (Chip.fgTripped (520 + n) 5)

/-- Both pins of a half-bridge are high for 10 ns (R543): they are driven low, and GATE trips. -/
def Chip.overlap (n : Nat) (c : Chip) : Chip := c.fgTripped (520 + n) 5

def execOverlapDetect (n : Fin 16) (_b : Bool) (s : State) : Host.Outcome State Fault Refusal := s.onChip (Chip.overlap n)

/-- 1 ms after a soft verdict (R538): the global pin path, or that of an output. A SAP or AES3 output's asserts only
while its word after the Z path is not zero. -/
def Chip.pinTimer (g : Option Nat) (c : Chip) : Chip :=
  c.fgDo (fun c =>
    match g with
    | none => if c.fgSoft then { c with fg := { c.fg with soft := true } } else c
    | some g =>
      let x := c.guard g
      if c.softTrip g then c.setGuard g { x with timed := true, pin := x.pin || decide (520 ≤ g) || x.out != 0 } else c)

def execPinPathTimer (g : Option (Fin 536)) (s : State) : Host.Outcome State Fault Refusal :=
  s.onChip (Chip.pinTimer (g.map Fin.val))

/-! The Z path. -/

/-- A Z gain moves at a sample strobe (R538, R539): a hard cause sets it to 0, a soft one lowers it, else it rises. -/
def zStep (hard soft : Bool) (n : Nat) : Nat := if hard then 0 else if soft then n - 1 else min 32 (n + 1)

/-- Every Z gain moves (R538, R539). -/
def Chip.zRamp (c : Chip) : Chip :=
  let gs := c.fg.guards.map (fun e =>
    let soft := c.softTrip e.1
    (e.1, { e.2 with gain := zStep (c.tripped e.1 && !soft) soft e.2.gain }))
  { c with fg := { c.fg with
      guards := gs, gain := zStep c.fgBoth c.fgSoft c.fg.gain, gainP := zStep c.fgHard false c.fg.gainP } }

/-- The Z gain applied to output `g`, in 32nds (R539). -/
def Chip.zGain (c : Chip) (g : Nat) : Nat :=
  let n := min (c.guard g).gain c.fg.gain
  if g < 520 then min n c.fg.gainP else n

/-! The Output Guard (R540 to R542). -/

/-- The limit c of R540. -/
def Chip.ceil (c : Chip) (g : Nat) : Int := min (c.rdf (Reg.GUARD_G g) 15 0 * 2 ^ 16) (2 ^ 31 - 1)

/-- The clamp. -/
def Chip.guardClamp (c : Chip) (g : Nat) (w : Word) : Word := BitVec.ofInt 32 (clampInt (-c.ceil g) (c.ceil g) w.toInt)

/-- The longest permitted run of one non-zero word, as 1,000 times its samples (R542, R561). -/
def Chip.stuckLimit (c : Chip) : Nat := clampNat 1 100 (c.rdf Reg.GUARD_CFG 6 0) * c.fs

/-- A word joins the DC window: a complete one waits to be judged. -/
def GuardSt.dcSample (x : GuardSt) (n : Nat) (w : Word) : GuardSt :=
  let sum := x.sum + w.toInt
  if n ≤ x.cnt + 1 then { x with sum := 0, cnt := 0, win := some (sum, x.cnt + 1) } else { x with sum := sum, cnt := x.cnt + 1 }

/-- A word joins the run of identical words; zeros make no run. -/
def GuardSt.stuckSample (x : GuardSt) (w : Word) : GuardSt :=
  { x with last := w, run := if w = 0 then 0 else if w = x.last then x.run + 1 else 1 }

/-- The detectors see the word `w` that leaves the guard. -/
def Chip.guardDetect (g : Nat) (w : Word) (c : Chip) : Chip :=
  if c.fgBoth then (if look guardReset c.fg.guards g = guardReset then c else c.setGuard g (c.guard g).restart)
  else if c.tripped g then c
  else
    let x := c.guard g
    let x1 := if c.dcOn g then x.dcSample (c.fs / 100) w else x
    let stk := c.rdb (Reg.GUARD_G g) 27
    let x2 := if stk then x1.stuckSample w else x1
    let c1 := c.setGuard g x2
    if c.ceil g < w.toInt.natAbs then c1.fgTripped g 1
    else if stk && decide (c.stuckLimit < x2.run * 1000) then c1.fgTripped g 3
    else c1

/-- Output `g` forms the word that enters its serializer from `w` (R538 to R542): guard, detectors, Z path. A held CEIL
trip, or a soft one past its timer, asserts the pin path of a SAP or AES3 output at a word that is not zero. -/
def Chip.guardWord (g : Nat) (w : Word) (c : Chip) : Word × Chip :=
  let w1 := c.guardClamp g w
  let z := c.zGain g
  let out := if z = 32 then w1 else scaleTrunc w1 z 32
  let x := c.guard g
  let held := c.tripped g && (look 0 c.fg.cause g == 1 || x.timed)
  let pin := x.pin || (held && out != 0)
  let c1 := if pin = x.pin ∧ out = x.out then c else c.setGuard g { x with pin := pin, out := out }
  (out, c1.guardDetect g w1)

/-! Seal (R550 to R552). -/

/-- GUARD_STAT.SEALED. -/
def Chip.sealed (c : Chip) : Bool := c.rdb Reg.GUARD_STAT 0

/-- The 539 sealed words in the order of R550. -/
def Chip.sealedWords (c : Chip) : List Word :=
  c.rd Reg.GUARD_CFG :: (List.range 536).map (fun g => c.rd (Reg.GUARD_G g)) ++ [c.rd Reg.FG_CFG, c.rd Reg.FG_WDOG]

/-- A write of GUARD_SEAL. -/
def Chip.guardSeal (v : Word) (c : Chip) : Chip :=
  if fld v 31 16 ≠ 0x5EA1 then c.err pgGUARD 0x02 (word (Reg.GUARD_SEAL % 0x1000))
  else if bit v 0 && !c.sealed then ((c.wrb Reg.GUARD_STAT 0 true).wrb Reg.GUARD_STAT 2 true).irq pgGUARD 2
  else c

def execGuardSeal (v : Word) (s : State) : Host.Outcome State Fault Refusal := s.onChip (Chip.guardSeal v)

/-- The copy into FA and FB completes. -/
def Chip.sealCopied (c : Chip) : Chip :=
  if c.rdb Reg.GUARD_STAT 2 then
    let ws := c.sealedWords
    let c1 := { c with fg := { c.fg with copyA := ws, copyB := ws } }
    ((c1.wrb Reg.GUARD_STAT 2 false).wrb Reg.GUARD_STAT 1 true).wr Reg.GUARD_CRC (crc32 (ws.flatMap wordBytes))
  else c

/-- FA and FB compare their copies with each other and with the registers (R552). -/
def Chip.copyCompare (c : Chip) : Chip :=
  if c.rdb Reg.GUARD_STAT 1 && !(c.fg.copyA == c.sealedWords && c.fg.copyB == c.sealedWords) then
    c.fgDo (fun c => c.fgFault 1)
  else c

/-- A write of a sealed register of page `p` (R551). -/
def Chip.sealedWrite (c : Chip) (p k : Nat) (v : Word) : Chip :=
  if c.sealed then c.err p 0x01 (word (k % 0x1000)) else c.fgDo (fun c => c.wr k v)

/-! Commands (R548, R553, R554). -/

/-- A command with its key; a wrong key is recorded. -/
def Chip.fgKeyed (v : Word) (f : Chip → Chip) (c : Chip) : Chip :=
  if fld v 31 16 = 0xF0C5 then f c else c.err pgFG 0x02 0

/-- The level of SAFE_N at a command. -/
def Chip.safeLevel (c : Chip) (safeN : Bool) : Chip := { c with fg := { c.fg with safeLow := !safeN } }

/-- SAFE clears only while SAFE_N is high (R547). -/
def Chip.safeClear (c : Chip) : Chip := if c.fg.safeLow then c else c.fgSetCause 1 false

/-- A refused RELEASE (R553). -/
def Chip.releaseRefused (c : Chip) (info : Nat) : Chip := ((c.irq pgFG 4).wrb Reg.FG_HIST 4 true).err pgFG 0x03 (word info)

/-- FG_CMD.RELEASE (R553). -/
def Chip.fgRelease (c : Chip) : Chip :=
  if c.fgState = 3 then c.releaseRefused 2
  else if c.fgState ≠ 0 then c.releaseRefused 3
  else if !c.sealed then c.releaseRefused 1
  else if !c.rdb Reg.GUARD_STAT 1 then c.releaseRefused 4
  else c.fgDo (fun c =>
    let c1 := c.safeClear
    c1.fgEnter (if c1.rdf Reg.FG_QCAUSE 4 0 = 0 then 1 else 2))

def execRelease (v : Word) (safeN : Bool) (s : State) : Host.Outcome State Fault Refusal :=
  s.onChip (fun c => (c.safeLevel safeN).fgKeyed v (fun c => if bit v 0 then c.fgRelease else c))

/-- FG_CMD.RESUME (R547, R554). -/
def Chip.fgResume (c : Chip) : Chip := c.fgDo (fun c => (c.fgSetCause 4 false).safeClear)

def execResume (v : Word) (safeN : Bool) (s : State) : Host.Outcome State Fault Refusal :=
  s.onChip (fun c => (c.safeLevel safeN).fgKeyed v (fun c => if bit v 1 then c.fgResume else c))

/-- FG_CMD.SWQUIET (R554). -/
def Chip.fgSwquiet (c : Chip) : Chip := c.fgDo (fun c => c.fgSetCause 4 true)

def execSwquiet (v : Word) (s : State) : Host.Outcome State Fault Refusal :=
  s.onChip (Chip.fgKeyed v (fun c => if bit v 2 then c.fgSwquiet else c))

/-- FG_CMD TOTEST set: only in HOLD (R548). -/
def Chip.fgTotest (c : Chip) : Chip :=
  if c.fgState = 0 then c.fgDo (fun c => { c with fg := { c.fg with totest := true } }) else c.err pgFG 0x03 3

def execTotestSet (v : Word) (s : State) : Host.Outcome State Fault Refusal :=
  s.onChip (Chip.fgKeyed v (fun c => if bit v 3 then c.fgTotest else c))

/-- FG_CMD TOTEST clear. -/
def Chip.fgTotestEnd (c : Chip) : Chip := c.fgDo (fun c => { c with fg := { c.fg with totest := false } })

def execTotestClear (v : Word) (s : State) : Host.Outcome State Fault Refusal :=
  s.onChip (Chip.fgKeyed v (fun c => if bit v 4 then c.fgTotestEnd else c))

/-- A write of FG_CMD: its bits in ascending order (R669). -/
def Chip.fgCmd (v : Word) (c : Chip) : Chip :=
  let act (b : Nat) (f : Chip → Chip) (c : Chip) : Chip := if bit v b then f c else c
  c.fgKeyed v (fun c => act 4 Chip.fgTotestEnd (act 3 Chip.fgTotest (act 2 Chip.fgSwquiet (act 1 Chip.fgResume
    (act 0 Chip.fgRelease c)))))

/-! Watchdog and external signals (R545 to R548). -/

/-- TIMEOUT in µs. -/
def Chip.fgTimeout (c : Chip) : Nat := clampNat 20 2000 (c.rdf Reg.FG_WDOG 10 0)

/-- A feed of the tick watchdog, `gap` µs after the last one (R545). -/
def Chip.fgFeed (gap : Nat) (c : Chip) : Chip :=
  let c1 := if c.fg.fedAny ∧ c.rdf Reg.FG_FEEDGAP 15 0 < gap then c.stat Reg.FG_FEEDGAP (word (min gap 0xFFFF)) else c
  let c2 := { c1 with fg := { c1.fg with fed := true, fedAny := true } }
  if c.fg.fed ∧ gap ≤ c.fgTimeout then c2.fgDo (fun c => c.fgSetCause 0 false) else c2

/-- CW+1,016: a feed when the verdict passed or the output commit advanced a path (R23). -/
def Chip.windowFeed (gap : Nat) (c : Chip) : Chip :=
  if c.windowOpen && (c.ledger.ok || c.ledger.advanced) then c.fgFeed gap else c

def execTickWatchdogFeed (gapUs : Nat) (s : State) : Host.Outcome State Fault Refusal := s.onChip (Chip.windowFeed gapUs)

/-- No feed for TIMEOUT (R545). -/
def Chip.fgExpiry (c : Chip) : Chip :=
  let c1 := { c with fg := { c.fg with fed := false } }
  if c.fgCause 0 then c1 else (c1.count Reg.FG_WDOG_TRIPS).fgDo (fun c => c.fgSetCause 0 true)

def execWdogExpiry (s : State) : Host.Outcome State Fault Refusal := s.onChip Chip.fgExpiry

/-- A failed verdict (R546). -/
def Chip.fgOverrun (c : Chip) : Chip := (c.count Reg.FG_OVERRUNS).irq pgFG 3

/-- SAFE_N low (R61, R547). -/
def Chip.fgSafe (c : Chip) : Chip := ((c.hubAssert 232).safeLevel false).fgDo (fun c => c.fgSetCause 1 true)

def execSafeAssert (s : State) : Host.Outcome State Fault Refusal := s.onChip Chip.fgSafe

/-- FORCE_QUIET_IN rises (R61, R548). -/
def Chip.fgFqi (c : Chip) : Chip :=
  let c1 := c.hubAssert 233
  let c2 := { c1 with fg := { c1.fg with fqiAt := some (c1.fg.fqiAt.getD c1.now64) } }
  c2.fgDo (fun c => c.fgSetCause 2 true)

/-- FORCE_QUIET_IN has been low for 2 µs (R538). -/
def Chip.fgFqiEnd (c : Chip) : Chip :=
  { c with fg := { c.fg with fqiAt := none } }.fgDo (fun c => c.fgSetCause 2 false)

def execFqiClear (s : State) : Host.Outcome State Fault Refusal := s.onChip Chip.fgFqiEnd

/-- STANDBY clears 2 µs after its level ended (R538, R548). -/
def Chip.standbyEnd (c : Chip) : Chip :=
  if c.paired && !c.roleActive then c else c.fgDo (fun c => c.fgSetCause 3 false)

def execStandbyClear (s : State) : Host.Outcome State Fault Refusal := s.onChip Chip.standbyEnd

/-! Faults of Foxglove itself (R535, R536). -/

/-- One check channel holds a verdict that the other does not reach: guard `g`, 0xFFFF for a global cause. -/
def Chip.fgCross (g : BitVec 16) (c : Chip) : Chip :=
  c.fgDo (fun c => (c.wrf Reg.FG_FAULT 31 16 g.toNat).fgFault 0)

/-- The keep-alive stops: the pin path asserts by itself. -/
def Chip.keepaliveLost (c : Chip) : Chip := c.fgDo (fun c => { c with fg := { c.fg with alive := false } })

def execKeepaliveLoss (s : State) : Host.Outcome State Fault Refusal := s.onChip Chip.keepaliveLost

/-- A supply or oscillator monitor trips. -/
def Chip.fgMonitor (osc : Bool) (c : Chip) : Chip := c.fgDo (fun c => c.fgFault (if osc then 2 else 3))

/-! Registers. -/

/-- FG_STATS_CLR (R559). -/
def Chip.fgStatsClr (v : Word) (c : Chip) : Chip :=
  if bit v 0 then ((c.wr Reg.FG_OVERRUNS 0).wr Reg.FG_WDOG_TRIPS 0).wr Reg.FG_FEEDGAP 0 else c

def execFgStatsClr (v : Word) (s : State) : Host.Outcome State Fault Refusal := s.onChip (Chip.fgStatsClr v)

/-- Whether any output's own pin path, or the keep-alive's, is asserted. -/
def Chip.anyPin (c : Chip) : Bool := !c.fg.alive || c.fg.guards.any (fun e => e.2.pin)

/-- MUTE_OUT (R549). -/
def Chip.muteOut (c : Chip) : Bool := c.fgBoth || c.fg.soft || (c.rdb Reg.FG_CFG 8 && c.anyPin)

/-- FAULT_N is low (R549); before the seal only in FAULT (R559, R622). -/
def Chip.faultLow (c : Chip) : Bool :=
  let fn := c.rdf Reg.FG_CFG 7 0
  let sel (b : Nat) : Bool := fn.testBit b
  c.fgState == 3 || (c.sealed &&
    ((sel 6 && c.fgCause 0) || (sel 7 && c.fgCause 1) ||
      (List.range 536).any (fun g => (c.tripped g && sel (look 0 c.fg.cause g - 1)) || (c.lockedOut g && sel 5))))

/-- FG_STATE as it reads (R559). -/
def Chip.fgStateView (c : Chip) : Word :=
  let z := decide (c.fg.gain < 32) || decide (c.fg.gainP < 32)
  let p := c.fgBoth || !c.fg.alive || c.fg.soft || c.fgHard
  word (c.fgState + 8 * b2n z + 16 * b2n p + 32 * b2n c.muteOut + 64 * b2n c.faultLow + 128 * b2n c.takeoverOut)

/-- FG_PINS as it reads (R559). -/
def Chip.fgPinsView (c : Chip) : Word := word (b2n (!c.fg.safeLow) + 2 * b2n c.fg.fqiAt.isSome)

/-- GUARD_TRIP_INFO and GUARD_DCMEAN as they read (R561). -/
def Chip.tripInfo (c : Chip) : Word :=
  let g := c.rdf Reg.GUARD_TRIP_SEL 9 0
  let x := c.guard g
  let n := (x.times.filter (fun t => decide (c.now64 - t ≤ 10000000000))).length
  if 536 ≤ g then 0
  else word (b2n (c.tripped g) + 2 * b2n (c.lockedOut g) + 4 * b2n x.pin + 16 * look 0 c.fg.cause g + 256 * min 15 n)
def Chip.dcMean (c : Chip) : Word :=
  (BitVec.ofInt 16 (Int.tdiv (c.guard (c.rdf Reg.GUARD_TRIP_SEL 9 0)).mean (2 ^ 16))).setWidth 32

/-- The guards after a CHIP or SYSTEM reset, or entry to Listen (R535, R557): unsealed, no trip, no copies. -/
def Chip.resetGuard (c : Chip) : Chip :=
  let c1 := c.resetPage pgGUARD
  { c1 with fg := { c1.fg with guards := [], cause := [], copyA := [], copyB := [] } }

/-- The assertion of a SYSTEM reset and entry to Listen (R535): HOLD unless in FAULT, TOTEST clear, the seal gone. -/
def Chip.fgHold (c : Chip) : Chip :=
  c.fgDo (fun c =>
    let c1 := { c with fg := { c.fg with totest := false } }.resetGuard
    if c1.fgState = 3 then c1 else c1.fgEnter 0)

/-- A CHIP reset (R557): every register and the supervisor's state; the levels at the pins act again. -/
def Chip.fgChipReset (c : Chip) : Chip :=
  c.fgDo (fun c =>
    let fqi := c.fg.fqiAt
    let low := c.fg.safeLow
    let c1 := { (c.resetPage pgFG).resetGuard with fg := { fgReset with safeLow := low, fqiAt := fqi } }
    let c2 := if low then c1.fgSetCause 1 true else c1
    if fqi.isSome then c2.fgSetCause 2 true else c2)

/-- A BLOCK reset of GUARD (R551): ignored after the seal. -/
def Chip.guardSrst (c : Chip) : Chip :=
  if c.sealed then c.err pgGUARD 0x01 (word (Reg.CTRL pgGUARD % 0x1000)) else c.resetGuard

end Sys2Proof.Machine
end

