-- ==== Sys2Proof/Machine/Output.lean ====
section
/-! DEFINITION. The outputs: queue feeds (R337 to R339), the words of the serial audio ports (R326), the AES3
transmitters (R347) and the speaker channels (R505) at a sample strobe, and the frames sent. -/

namespace Sys2Proof.Machine

/-! Output feeds. -/

/-- m of the audio boundary A(m) (R15): TICK_COUNT, or one past it at the boundary after a stop (R34). -/
def Chip.audioTick (c : Chip) : BitVec 48 := if c.tickRuns then c.tick.count else c.tick.count + 1

/-- An endpoint's output feed: its kind, its ID, its queue, how many channels it selects and whether it counts its late
blocks and underruns at a port's registers. -/
structure Feed where
  kind : Nat
  id   : Nat
  q    : Nat
  ch   : Nat
  late : Option Nat
  page : Nat
  und  : Option Nat

/-- How a feed finds its queue at A(m) (R338): an underrun, or a block after the discard of `late` earlier ones. On a queue
that is disabled or another's, its pop is refused (R101, R111). -/
def Dev.feedFind (f : Feed) (n : Nat) (want : Word) : Nat → Dev → Bool × Dev
  | 0, d => (false, d)
  | fuel + 1, d =>
    let c := d.chip
    let x := c.queue f.q
    let size := n * f.ch + 1
    if x.ckind ≠ f.kind ∨ x.cid ≠ f.id ∨ !c.qEnabled f.q then (false, (d.pop f.q f.kind f.id).2.2)
    else if x.ccred < size then (false, d)
    else
      let diff := (d.mem.word (x.addr x.pop) - want).toInt
      if diff = 0 then (true, d)
      else if diff < 0 then
        let d1 := d.chipOp (fun c =>
          let c1 := c.setQueue f.q { x with pop := x.pop + word size }
          (match f.late with
            | some k => (c1.count k).irq f.page 6
            | none => c1))
        d1.feedFind f n want fuel
      else (false, d)

/-- `n` words popped by a feed. -/
def Dev.feedPop (f : Feed) : Nat → Dev → List Word × Dev
  | 0, d => ([], d)
  | n + 1, d =>
    let (_, w, d1) := d.pop f.q f.kind f.id
    let (ws, d2) := d1.feedPop f n
    (w :: ws, d2)

/-- An underrun at A(m) (R339): counted unless the verdict withheld the block or a start or a stop leaves none. -/
def Chip.feedUnderrun (f : Feed) (irq : Nat) (c : Chip) : Chip :=
  if c.blockless then c
  else
    let c1 := match f.und with
      | some k => c.count k
      | none => c
    (c1.irq f.page irq).err f.page 0x03 0

/-- The feed at A(m) (R217, R218, R338, R339). -/
def Dev.feedBlock (f : Feed) (irq : Nat) (x : FeedSt) (d : Dev) : FeedSt × Dev :=
  let c := d.chip
  let n := c.tickN
  if c.blockWithheld f.q f.kind f.id then ({ x with mode := 3, k := 0, words := [], base := x.last }, d)
  else
    let want : Word := (c.audioTick - 2).setWidth 32
    let (found, d1) := if c.tick.block then d.feedFind f n want 0x1_0000 else (false, d)
    if found then
      let (ws, d2) := d1.feedPop f (n * f.ch + 1)
      let y := { x with mode := 1, words := ws.drop 1, k := 32 }
      (if x.mode = 2 then { y with fin := 0, finN := false }
        else if x.mode = 3 then { y with fin := 0, finN := true } else y, d2)
    else
      (if x.mode = 2 then x else { x with mode := 2, k := 0, words := [], base := x.last }, d1.chipOp (Chip.feedUnderrun f irq))

/-- A strobe of a feed with `ch` channels: the words of its channels (R218, R339), which are the last ones played from
then on. -/
def FeedSt.strobe (x0 : FeedSt) (n ch : Nat) : List Word × FeedSt :=
  let x := if x0.mode = 1 ∧ x0.words = [] then { x0 with mode := 2, k := 0, base := x0.last } else x0
  let from' (f : Word → Word) : List Word := (List.range ch).map (fun i => f (look 0 x.base i))
  let len := if x.finN then n else 32
  let on := decide (x.fin + 1 < len)
  let (ws, y) : List Word × FeedSt := match x.mode with
    | 1 => ((x.words.take ch).map (fun w => if x.fin < len then scaleTrunc w (x.fin + 1) len else w),
        { x with words := x.words.drop ch, fin := if on then x.fin + 1 else 32, finN := x.finN && on })
    | 2 => (from' (fun w => fadeOut w x.k), { x with k := min 32 (x.k + 1) })
    | 3 => (from' (fun w => if x.k < n then scaleTrunc w (n - 1 - x.k) n else 0), { x with k := min n (x.k + 1) })
    | _ => (from' (fun _ => 0), x)
  (ws, if x.mode = 0 then y else { y with last := ws.zipIdx.map (fun e => (e.2, e.1)) })

/-! Serial audio ports. -/

/-- The slots that the feed of a port supplies, ascending. -/
def Chip.sapFed (c : Chip) (p : Nat) : List Nat :=
  if feedEn (c.rd (Reg.SAP_QOUT p)) then indices 32 (fun s => bit (c.rd (Reg.SAP_QOUT_SEL p)) s) else []

/-- The output feed of a port. -/
def Chip.sapFeed (c : Chip) (p : Nat) : Feed :=
  { kind := 4, id := p, q := feedQueue (c.rd (Reg.SAP_QOUT p)), ch := (c.sapFed p).length, late := some (Reg.SAP_LATE p)
    page := pgSAP p, und := some (Reg.SAP_UNDERRUNS p) }

/-- A port's feed at an audio boundary. -/
def Dev.sapFeedBlock (p : Nat) (d : Dev) : Dev :=
  if d.chip.en (pgSAP p) && feedEn (d.chip.rd (Reg.SAP_QOUT p)) then
    let (x, d1) := d.feedBlock (d.chip.sapFeed p) 4 (d.chip.sapSt p).feed
    d1.chipOp (fun c => c.setSap p { c.sapSt p with feed := x })
  else d

/-- A word rounded half up to its top `bits` bits and clamped (R328). -/
def narrowTo (bits : Nat) (w : Word) : Word :=
  let s := 32 - bits
  BitVec.ofInt 32 (clampInt (-(2 ^ 31)) (2 ^ 31 - 2 ^ s) (roundHalfUp w.toInt s * 2 ^ s))

/-- A trim at a sample: the new trim and the trimmed word (R267, R332). -/
def trimSample (z : ZcSt) (zc : Word) (now prev w : Word) : ZcSt × Word :=
  let z1 := (z.sample (bit zc 0) (fld zc 13 8 + 1) now prev w).1
  (z1, trimmed w z1.gain)

/-- Slot `s` of port `p` forms its word from the one selected for it (R326, R341): sample `k` of the fade-in, trim, Output
Guard, conversion. -/
def Chip.sapForm (p s : Nat) (chosen : Word) (k : Nat) (c : Chip) : Chip :=
  let x := c.sapSt p
  let w0 := fadeIn chosen k
  let (z, w1) := trimSample (look trimReset x.trims s) (c.rd (Reg.SAP_ZC p)) c.now (look 0 x.sel s) w0
  let (w2, c1) := c.guardWord (8 + 32 * p + s) w1
  let out := if c.rateMismatch p then 0 else narrowTo (c.sapDataW p) w2
  let y := c1.sapSt p
  let trims := if look trimReset y.trims s = z then y.trims else put y.trims s z
  c1.setSap p { y with trims := trims, sel := put y.sel s w0, out := put y.out s out }

/-- Slot `s` of port `p` at a strobe, from the fed words `fed` or its sink; a slot of the Direct Mixer forms its word at its
load (R263, R264). -/
def Chip.sapSlotOut (p : Nat) (fed : List (Nat × Word)) (s : Nat) (c : Chip) : Chip :=
  if (c.dmixOverride p s).isSome then c
  else
    let chosen := match fed.find? (fun e => e.1 == s) with
      | some e => e.2
      | none => c.sinkWord (0x100 + 32 * p + s)
    c.sapForm p s chosen (c.sapSt p).outFin

/-- An enabled port at a sample strobe: every slot forms its word. -/
def Chip.sapStrobe (p : Nat) (c : Chip) : Chip :=
  if !c.en (pgSAP p) then c
  else
    let x := c.sapSt p
    let slots := c.sapFed p
    let (ws, f) := if feedEn (c.rd (Reg.SAP_QOUT p)) then x.feed.strobe c.tickN slots.length else ([], x.feed)
    let c1 := c.setSap p { x with feed := f }
    let c2 := forUpTo (c.sapSlots p) (Chip.sapSlotOut p (slots.zip ws)) c1
    let y := c2.sapSt p
    c2.setSap p { y with outFin := if y.lost || y.back then y.outFin else min 32 (y.outFin + 1) }

/-- The bits of the active output mask that have a slot (R336). -/
def Chip.sapOutMask (c : Chip) (p : Nat) : Word := c.rd (Reg.SAP_OUTMASK_ACT p) &&& word (2 ^ c.sapSlots p - 1)

/-- Whether SAPp_DOUT is driven (R326, R330). -/
def Chip.sapDriven (c : Chip) (p : Nat) : Bool :=
  c.en (pgSAP p) && c.sapOutMask p != 0 && !c.sapAsync p && !c.sapPinned p

/-- The words on DOUT in a frame (R326, R336); a slot at high impedance is not listed. -/
def Chip.sapFrameWords (c : Chip) (p : Nat) : Tbl Word :=
  if !c.sapDriven p then []
  else
    let x := c.sapSt p
    let tri := c.rdb (Reg.SAP_FMT p) 17
    (List.range (c.sapSlots p)).filterMap (fun s =>
      if c.rdb (Reg.SAP_OUTMASK_ACT p) s then some (s, look 0 x.out s) else if tri then none else some (s, 0))

/-! Loads of the Direct Mixer (R263, R266). -/

/-- Whether two ports share BCLK and FS: a port its own, two masters of one format the strobes (R333; log entry 131). -/
def Chip.sapShares (c : Chip) (p q : Nat) : Bool :=
  p == q || (c.en (pgSAP p) && c.en (pgSAP q) && c.sapMaster p && c.sapMaster q && c.sapSlots p == c.sapSlots q &&
    c.sapSlotW p == c.sapSlotW q && (c.sapSt p).rate == (c.sapSt q).rate)

/-- Whether the word of input slot `a` reaches output slot `o` in the same frame (R266): from 180 ns between capture and load
on, not below 170 ns; between them either, as `open'` says. -/
def Chip.dmReaches (c : Chip) (p a o : Nat) (open' : Bool) : Bool :=
  let t : Int := (2 * ((o : Int) - a - 1) * c.sapSlotW p + 1) * 1000000000
  let b : Int := c.sapBclk p
  if 360 * b ≤ t then true else if t < 340 * b then false else open'

/-- The inputs in force on port `p`: index and slot. -/
def Chip.dmInputs (c : Chip) (p : Nat) : List (Nat × Nat) :=
  (c.dmix.inCfg.filter (fun e => bit e.2 0 && dmPort e.2 == p && decide (dmSlot e.2 < c.sapSlots p))).map (fun e => (e.1, dmSlot e.2))

/-- The ports sharing frames with `q` of which a word may reach slot `o` in the same frame. -/
def Chip.dmFeeds (c : Chip) (q o : Nat) : List Nat :=
  (List.range 16).filter (fun p => c.en (pgSAP p) && !(c.sapSt p).lost && !(c.sapSt p).back && c.sapShares p q &&
    (c.dmInputs p).any (fun e => c.dmReaches p e.2 o true))

/-- Slot `o` of port `q` loads: the sum as it stands, without the words of this frame, of the ports `got`, that were
captured too late for it. -/
def Chip.dmLoad (q o : Nat) (got : List Nat) (c : Chip) : Chip :=
  match (if c.en pgDMIX then c.dmixDriver q o else none) with
  | none => c
  | some j =>
    let open' := c.freeNow 1 == 1
    let late := got.flatMap (fun p => ((c.dmInputs p).filter (fun e => !c.dmReaches p e.2 o open')).map (·.1))
    (c.freeNext.sapForm q o (c.dmixOutLess j late) ((c.sapSt q).outFin - 1))

/-- A load that was due is made; the frame under way sends its word. -/
def Chip.dmLoadDue (q : Nat) (x : DmLoad) (c : Chip) : Chip :=
  let c1 := c.dmLoad q x.slot x.got
  let y := c1.sapSt q
  c1.setSap q { y with dout := y.dout.map (fun e =>
    if e.1 = x.slot && c1.rdb (Reg.SAP_OUTMASK_ACT q) x.slot then (e.1, look 0 y.out x.slot) else e) }

/-- The words of port `p`'s frame have come, or have been dropped: the loads that awaited them last are made. -/
def Chip.dmArrived (p : Nat) (came : Bool) (c : Chip) : Chip :=
  forUpTo 16 (fun q c =>
    let x := c.sapSt q
    let l := x.due.map (fun (e : DmLoad) =>
      if e.wait.contains p then { e with wait := e.wait.filter (· != p), got := if came then p :: e.got else e.got } else e)
    if x.due.isEmpty then c
    else (l.filter (fun e => e.wait.isEmpty)).foldl (fun c e => c.dmLoadDue q e)
      (c.setSap q { x with due := l.filter (fun e => !e.wait.isEmpty) })) c

/-- The loads of a frame of port `q` (R263, R264, R266). Before the frame's own words have come, a slot that one of them may
reach awaits them; after them, the load leaves out those that are too late. -/
def Chip.dmLoads (q : Nat) (after : Bool) (c : Chip) : Chip :=
  forUpTo (c.sapSlots q) (fun o c =>
    if (c.dmixOverride q o).isNone then c
    else if after then
      c.dmLoad q o ((List.range 16).filter (fun p => p == q || (c.sapShares p q && (c.sapSt p).edge == .received)))
    else match c.dmFeeds q o with
      | [] => c.dmLoad q o []
      | l => c.setSap q { c.sapSt q with due := (c.sapSt q).due ++ [{ slot := o, wait := l, got := [] }] }) c

/-- A received frame, and the loads that it brings. -/
def Dev.sapFrame (p : Nat) (f : SapFrame) (d : Dev) : Dev :=
  let x := d.chip.sapSt p
  let d1 := d.sapFrameIn p f
  if !d.chip.en (pgSAP p) || d.chip.idleAck (pgSAP p) || x.lost || x.back then d1
  else d1.chipOp (Chip.dmArrived p (f.slip != .dropped && !d.chip.sapAsync p))

def execSapFrameReceived (p : Fin 16) (f : SapFrame) (s : State) : Host.Outcome State Fault Refusal :=
  s.onDev (Dev.sapFrame p f)

/-- A frame leaves the port (R333, R336, R340): its masks latch at the FS edge, the slots of the Direct Mixer load, d_out, 0
for a master, is reported. -/
def Chip.sapSent (p : Nat) (dOut : Nat) (c : Chip) : Chip :=
  if !c.en (pgSAP p) || c.idleAck (pgSAP p) then c
  else
    let x0 := c.sapSt p
    let c0 := x0.due.foldl (fun c e => c.dmLoadDue p e) (c.setSap p { x0 with due := [] })
    let c1 := c0.sapSync true p
    if x0.lost || x0.back then c1
    else
      let c2 := c1.dmLoads p (x0.edge == .received)
      (c2.wrf (Reg.SAP_DLY p) 31 16 (if c2.sapMaster p then 0 else dOut)).setSap p
        { c2.sapSt p with dout := c2.sapFrameWords p }

def execSapFrameSent (p : Fin 16) (dOut : BitVec 16) (s : State) : Host.Outcome State Fault Refusal :=
  s.onChip (Chip.sapSent p dOut.toNat)

/-! AES3 transmitters. -/

/-- The output feed of a transmitter. -/
def Chip.aesFeed (c : Chip) (n : Nat) : Feed :=
  { kind := 5, id := n, q := feedQueue (c.rd (Reg.AES_TXQ n)), ch := 2, late := none, page := pgAES n, und := none }

/-- A transmitter's feed at an audio boundary. -/
def Dev.aesFeedBlock (n : Nat) (d : Dev) : Dev :=
  if d.chip.aesTx n && feedEn (d.chip.rd (Reg.AES_TXQ n)) then
    let (x, d1) := d.feedBlock (d.chip.aesFeed n) 7 (d.chip.aesSt n).feed
    d1.chipOp (fun c => c.setAes n { c.aesSt n with feed := x })
  else d

/-- Channel `ch` of transmitter `n` forms its word. -/
def Chip.aesChannelOut (n : Nat) (fed : List Word) (ch : Nat) (c : Chip) : Chip :=
  let x := c.aesSt n
  let chosen := if feedEn (c.rd (Reg.AES_TXQ n)) then fed[ch]?.getD 0 else c.sinkWord (0x010 + 2 * n + ch)
  let (z, w1) := trimSample (look trimReset x.trims ch) (c.rd (Reg.AES_ZC n)) c.now (look 0 x.sel ch) chosen
  let (w2, c1) := c.guardWord (2 * n + ch) w1
  let y := c1.aesSt n
  let trims := if look trimReset y.trims ch = z then y.trims else put y.trims ch z
  c1.setAes n { y with trims := trims, sel := put y.sel ch chosen, out := put y.out ch (narrowTo 24 w2) }

/-- An enabled transmitter at a sample strobe. -/
def Chip.aesStrobe (n : Nat) (c : Chip) : Chip :=
  if !c.aesTx n then c
  else
    let x := c.aesSt n
    let (ws, f) := if feedEn (c.rd (Reg.AES_TXQ n)) then x.feed.strobe c.tickN 2 else ([], x.feed)
    forUpTo 2 (Chip.aesChannelOut n ws) (c.setAes n { x with feed := f })

/-- Bit `j` of six active words from index `b` on (R345, R347). -/
def activeBit (t : Tbl Word) (b j : Nat) : Bool := bit (look 0 t (b + j / 32)) (j % 32)

/-- Channel status bit `j` of channel `ch` as it is sent: byte 23 is the CRCC under CRCGEN (R347). -/
def Chip.sentStatus (c : Chip) (n ch j : Nat) : Bool :=
  let t := (c.aesSt n).active
  let raw := (List.range 192).map (activeBit t (6 * ch))
  if c.rdb (Reg.AES_CFG n) 5 && decide (184 ≤ j) then (crcc raw).testBit (j - 184) else activeBit t (6 * ch) j

/-- A subframe as it is sent: the audio in [31:8], status, user and validity bit in [2], [1] and [0]. -/
def Chip.sentSubframe (c : Chip) (n ch : Nat) : Word :=
  let x := c.aesSt n
  look 0 x.out ch ||| word (4 * b2n (c.sentStatus n ch x.frame) + 2 * b2n (activeBit x.active (12 + 6 * ch) x.frame) +
    b2n (c.rdb (Reg.AES_TXV n) ch))

/-- A frame leaves transmitter `n` (R347): its pins are driven while TXEN = 1 and the pin path is released. -/
def Chip.aesSent (n : Nat) (c : Chip) : Chip :=
  if !c.aesTx n then c
  else
    let x := c.aesSt n
    c.setAes n { x with
      frame := (x.frame + 1) % 192
      dout := if c.aesPinned n then [] else [(0, c.sentSubframe n 0), (1, c.sentSubframe n 1)] }

def execAesFrameSent (n : Fin 4) (s : State) : Host.Outcome State Fault Refusal := s.onChip (Chip.aesSent n)

/-! Speaker channels. -/

/-- An enabled speaker channel at a sample strobe (R505): sink, volume, guard, ramp gain. -/
def Chip.spkStrobe (n : Nat) (c : Chip) : Chip :=
  if c.spkState n = 0 then c
  else
    let x := c.spkSt n
    let w := c.sinkWord (0x300 + n)
    let (z, w1) := trimSample x.vol (c.rd (Reg.SPK_ZC n)) c.now x.x w
    let (w2, c1) := c.guardWord (520 + n) w1
    c1.setSpk n { c1.spkSt n with vol := z, x := w, out := scaleTrunc w2 (c1.spkRamp n) 20000000 }

/-! Gains by timeout (R267). -/

/-- The timer of a pending step runs out. -/
def Chip.zcTimeout (g : ZcGain) (c : Chip) : Chip :=
  match g with
  | .dmix i j => c.dmixTimeout i j
  | .sap p s => c.trimTimeout p s
  | .aes n ch => c.aesTrimTimeout n ch
  | .spk n => c.spkVolTimeout n

def execZcTimeout (g : ZcGain) (s : State) : Host.Outcome State Fault Refusal := s.onChip (Chip.zcTimeout g)

end Sys2Proof.Machine
end

