-- ==== Sys2Proof/Machine/Marigold.lean ====
section
/-! DEFINITION. Marigold (R563 to R591): roles, heartbeat and take-over, the inputs through the mirror, the journal, the
snapshot and the record that the active sends. How a received record is applied stands in Machine/Mirror.lean. -/

namespace Sys2Proof.Machine

/-! Roles (R566). -/

/-- MGLD_ROLE.ROLE: 0 OFF, 1 ACTIVE, 2 STANDBY, 3 JOINING, 4 YIELDED. -/
def Chip.mgldRole (c : Chip) : Nat := c.rdf Reg.MGLD_ROLE 2 0

/-- STANDBY and JOINING use received records (R566). -/
def Chip.mgldReceives (c : Chip) : Bool := c.mgldRole == 2 || c.mgldRole == 3

/-- EPOCH. -/
def Chip.mgldEpoch (c : Chip) : Nat := c.rdf Reg.MGLD_EPOCH 15 0

/-- A change of role (R566, R567): Foxglove follows the reported role (R548). -/
def Chip.mgldSetRole (r : Nat) (c : Chip) : Chip :=
  if c.mgldRole = r then c
  else
    let c1 := (c.wrf Reg.MGLD_ROLE 2 0 r).irq pgMGLD 0
    let c2 := if r = 1 then c1.wr Reg.MGLD_EPOCH (word ((c1.mgldEpoch + 1) % 2 ^ 16)) else c1
    let c4 := (c2.wrf Reg.MGLD_ROLE 19 16 0).wrb Reg.MGLD_ROLE 10 false
    { c4 with mgld := { c4.mgld with row := 0, hand := false, lock := false } }

/-- The change with what follows at Foxglove. -/
def Chip.mgldBecome (c : Chip) (r : Nat) : Chip := c.fgDo (Chip.mgldSetRole r)

/-- A take-over (R584): the unit forwards its own inputs from the next block. -/
def Chip.mgldTakeover (c : Chip) : Chip :=
  let c0 := c.mgldBecome 1
  let c1 := { c0 with mgld := { c0.mgld with isOver := true } }
  ((c1.count Reg.MGLD_FAILOVERS).wr Reg.MGLD_FO_SHORT c.now).irq pgMGLD 1

/-- FORCE_QUIET_IN rises (R548, R584): a unit in ACTIVE whose TAKEOVER_OUT has been high for 10 µs yields; within 10 µs
of each other the two rises are a conflict. -/
def Chip.fqiAssert (c : Chip) : Chip :=
  let rise := c.fg.fqiAt.isNone
  let c1 := c.fgFqi
  if rise && c.mgldRole == 1 then
    match c.fg.takeAt with
    | some t => if 10000 ≤ c.now64 - t then c1.mgldBecome 4 else c1.mgldConflict
    | none => c1
  else c1

def execFqiAssert (s : State) : Host.Outcome State Fault Refusal := s.onChip Chip.fqiAssert

/-! Configuration (R563, R573, R578). -/

/-- NPAIR and NWIN, at most 32. -/
def Chip.npair (c : Chip) : Nat := min 32 (c.rdf Reg.MGLD_CFG 5 0)
def Chip.nwin (c : Chip) : Nat := min 32 (c.rdf Reg.MGLD_CFG 13 8)

/-- QIN, QM and the block of pair `i` in words. -/
def Chip.pairIn (c : Chip) (i : Nat) : Nat := c.rdf (Reg.MGLD_PAIR i) 9 0
def Chip.pairOut (c : Chip) (i : Nat) : Nat := c.rdf (Reg.MGLD_PAIR i) 25 16
def Chip.pairQuota (c : Chip) (i : Nat) : Nat := (c.queue (c.pairOut i)).quota

/-- Base and bytes of state window `k`. -/
def Chip.winBase (c : Chip) (k : Nat) : Nat := c.rdf (Reg.MGLD_WIN_BASE k) 31 5 * 32
def Chip.winBytes (c : Chip) (k : Nat) : Nat := 32 * c.rdf (Reg.MGLD_WIN_SIZE k) 15 0

/-- The state bytes of a record. -/
def Chip.stateBytes (c : Chip) : Nat := (List.range c.nwin).foldl (fun a k => a + c.winBytes k) 0

/-- The MEC of a window in X or Y data; none for another region (R578). -/
def winMec (a n : Nat) : Option Nat :=
  let o := a % 0x10_0000
  if 0x4000_0000 ≤ a ∧ a < 0x4200_0000 ∧ ((0x2_0000 ≤ o ∧ o + n ≤ 0x3_8000) ∨ (0x4_0000 ≤ o ∧ o + n ≤ 0x5_8000)) then
    some ((a - 0x4000_0000) / 0x10_0000)
  else none

/-- Whether a window lies in one of its regions. -/
def Chip.winOk (c : Chip) (k : Nat) : Bool :=
  let a := c.winBase k
  let n := c.winBytes k
  (decide (0x2000_0000 ≤ a) && decide (a + n ≤ 0x2200_0000)) || (winMec a n).isSome

/-- The banks of buffer `b`, ascending, and OFS. -/
def Chip.bufBanks (c : Chip) (b : Nat) : List Nat :=
  indices 64 (fun i => if i < 32 then c.rdb (Reg.MGLD_BUF_BANKS_LO b) i else c.rdb (Reg.MGLD_BUF_BANKS_HI b) (i - 32))
def Chip.bufOfs (c : Chip) (b : Nat) : Nat := c.rdf (Reg.MGLD_BUF_OFS b) 8 0

/-- The address of the 1 KiB piece `j` of buffer `b` (R578). -/
def Chip.bufPiece (c : Chip) (b j : Nat) : Nat :=
  let l := c.bufBanks b
  bankBase (l[j % max 1 l.length]?.getD 0) + 1024 * (c.bufOfs b + j / max 1 l.length)

/-- Whether a buffer holds `n` bytes without passing the end of a bank. -/
def Chip.bufOk (c : Chip) (b n : Nat) : Bool :=
  let l := c.bufBanks b
  n == 0 || (decide (0 < l.length) && decide (c.bufOfs b + ceilDiv (ceilDiv n 1024) (max 1 l.length) ≤ 512))

/-- The bytes of [a, a + n) that lie in bank `b`. -/
def bytesInBank (b a n : Nat) : Nat := min (a + n) (bankBase b + 0x8_0000) - max a (bankBase b)

/-- The bytes of `n` buffer bytes that lie in bank `b`. -/
def Chip.bufInBank (c : Chip) (buf n b : Nat) : Nat :=
  let l := c.bufBanks buf
  (List.range (ceilDiv n 1024)).foldl (fun s j =>
    if l[j % max 1 l.length]? = some b then s + min 1024 (n - 1024 * j) else s) 0

/-- The window bytes in bank `b`. -/
def Chip.winInBank (c : Chip) (b : Nat) : Nat :=
  (List.range c.nwin).foldl (fun s k =>
    if inBankMem (c.winBase k) then s + bytesInBank b (c.winBase k) (c.winBytes k) else s) 0

/-- The checks of R578. -/
def Chip.windowsOk (c : Chip) : Bool :=
  let n := c.stateBytes
  let mec := (List.range c.nwin).foldl (fun s k => if inBankMem (c.winBase k) then s else s + c.winBytes k) 0
  (List.range c.nwin).all c.winOk && (List.range 3).all (fun b => c.bufOk b n) && decide (mec ≤ 30 * 1024) &&
    (List.range 64).all (fun b => (List.range 3).all (fun buf =>
      decide (c.winInBank b + c.bufInBank buf n b ≤ 15 * 1024)))

/-- The blocks of the whole-record limit over `lanes` lanes of rate code `r` (R573). -/
def Chip.recordLimit (c : Chip) (r lanes : Nat) : Nat :=
  8 * c.tickN * (lanes * (if r = 1 then 25000000000 else 10000000000)) / (10 * c.fs * 64)

/-- The bytes of a record with `n` data bytes (R573): both Marker and Trailer pairs, the data rounded up to 16. -/
def recordBytes (n : Nat) : Nat := 32 + ceilDiv n 16 * 16

/-- The input bytes of a record. -/
def Chip.inputBytes (c : Chip) : Nat := (List.range c.npair).foldl (fun a i => a + 4 * c.pairQuota i) 0

/-- Whether the record of the configuration fits `lanes` lanes. -/
def Chip.recordFits (c : Chip) (r lanes : Nat) : Bool :=
  decide (recordBytes (8 + c.inputBytes + 4096 + c.stateBytes) ≤ 8 * c.recordLimit r lanes)

/-- Setting MGLD CTRL.EN (R563, R567, R573, R578). -/
def Chip.mgldEnable (pairRole : Bool) (c : Chip) : Chip :=
  let r := c.rdf (Reg.LANE_CFG 8) 0 0
  let bits (n : Nat) : Bool := c.rdf (Reg.LANE_CFG n) 2 1 == 3
  if c.en pgMGLD then c
  else if r = c.rdf (Reg.LANE_CFG 9) 0 0 ∧ bits 8 ∧ bits 9 ∧ c.recordFits r 2 ∧ c.windowsOk then
    let c1 := { (c.wrb (Reg.CTRL pgMGLD) 0 true) with mgld := { mgldReset with rate := r, edge := c.mgld.edge } }
    let c2 := (c1.wr Reg.MGLD_BUDGET (word (8 * c.recordLimit r 2))).wrb Reg.MGLD_ROLE 8 pairRole
    c2.mgldBecome (if pairRole then 1 else 3)
  else c.err pgMGLD 0x02 (word (Reg.CTRL pgMGLD % 0x1000))

def execMgldEnable (pairRole : Bool) (s : State) : Host.Outcome State Fault Refusal := s.onChip (Chip.mgldEnable pairRole)

/-- Clearing CTRL.EN: OFF, and no bond. -/
def Chip.mgldDisable (c : Chip) : Chip :=
  if c.en pgMGLD then
    { ((c.wrb (Reg.CTRL pgMGLD) 0 false).wrb Reg.MGLD_ROLE 11 false).mgldBecome 0 with mgld := mgldReset }
  else c

/-- Whether Marigold holds BCLK and FS of port `p` at high impedance (R588), and whether a master drives them. -/
def Chip.clocksHeld (c : Chip) (p : Nat) : Bool := c.rdb Reg.MGLD_CLKHOLD p && c.mgldRole != 1
def Chip.sapClocksDriven (c : Chip) (p : Nat) : Bool := c.en (pgSAP p) && c.sapMaster p && !c.clocksHeld p

/-- What Marigold says of LANE8's or LANE9's rate (R563). -/
def Chip.mgldRefuses (c : Chip) (n : Nat) : Bool :=
  decide (8 ≤ n) && c.en pgMGLD && c.rdf (Reg.LANE_CFG n) 0 0 != c.mgld.rate

/-- A write of a register that is locked while EN = 1 (R590). -/
def Chip.mgldCfgWrite (c : Chip) (k : Nat) (v : Word) : Chip :=
  if c.en pgMGLD then c.err pgMGLD 0x01 (word (k % 0x1000)) else c.wr k v

/-! One lane (R565). -/

/-- Whether both lanes are LOCKED at both ends. -/
def Chip.bothLanes (c : Chip) (peer : Nat) : Bool :=
  c.laneState 8 == 5 && c.laneState 9 == 5 && peer / 4 % 4 == 3

/-- ONE_LANE from the next record on. -/
def Chip.mgldLanes (c : Chip) (peer : Nat) : Chip :=
  let one := !c.bothLanes peer
  (c.wrb Reg.MGLD_ROLE 11 one).irqIf (one && !c.rdb Reg.MGLD_ROLE 11) pgMGLD 9

/-! The Control Journal (R576). -/

/-- Whether an address lies in a journal window and not in a page that is never journaled. -/
def Chip.journaled (c : Chip) (a : Nat) : Bool :=
  (List.range 8).any (fun j =>
    let base := c.rdf (Reg.MGLD_JWIN_BASE j) 31 12 * 4096
    let n := c.rdf (Reg.MGLD_JWIN_SIZE j) 19 0 * 4096
    decide (base ≤ a ∧ a < base + n)) &&
  (match c.region a with
    | .page p _ => !(decide (p ≤ 4) || p == 0x16 || p == 0x7C)
    | _ => true)

/-- One word joins the journal of the tick; the 513th and later overflow it. -/
def Chip.journalWord (c : Chip) (a w : Word) : Chip :=
  if c.mgld.journal.length < 512 then { c with mgld := { c.mgld with journal := c.mgld.journal ++ [(a, w)] } }
  else ({ c with mgld := { c.mgld with jovf := true } }.count Reg.MGLD_JOVF_COUNT).irq pgMGLD 7

/-- A write by ST0, ST1 or the Host Port has its response: `n` bytes at `a`, their words in address order. -/
def Chip.journalWrite (c : Chip) (a n : Nat) (ws : List Word) : Chip :=
  if c.mgldRole = 1 && c.tickRuns && c.journaled a then
    if n < 4 then c.irq pgMGLD 8
    else ws.zipIdx.foldl (fun c e => c.journalWord (word (a + 4 * e.2)) e.1) c
  else c

/-! Snapshot and record (R571 to R574, R579). -/

/-- A list cut into pieces of 1 KiB. -/
def kilobytes : Nat → List Byte → List (List Byte)
  | 0, _ => []
  | fuel + 1, l => if l.isEmpty then [] else l.take 1024 :: kilobytes fuel (l.drop 1024)

/-- Bytes written into buffer `b` from its start (R578). -/
def Dev.stageWrite (d : Dev) (b : Nat) (l : List Byte) : Dev :=
  (kilobytes (l.length / 1024 + 1) l).zipIdx.foldl (fun d e => d.fixedWrite 2 (d.chip.bufPiece b e.2) e.1) d

/-- `n` bytes of buffer `b` from its start. -/
def Dev.stageRead (d : Dev) (b n : Nat) : List Byte × Dev :=
  (List.range (ceilDiv n 1024)).foldl (fun (x : List Byte × Dev) j =>
    let (l, d1) := x.2.fixedRead 2 (x.2.chip.bufPiece b j) (min 1024 (n - 1024 * j))
    (x.1 ++ l, d1)) ([], d)

/-- The bytes of state window `k`: Bank Memory by the direct port, MEC data by the local window target. -/
def Dev.winRead (d : Dev) (k : Nat) : List Byte × Dev :=
  let a := d.chip.winBase k
  let n := d.chip.winBytes k
  if inBankMem a then d.fixedRead 2 a n else let (_, l, d1) := d.wideRead 12 a n; (l, d1)

/-- Bytes written into state window `k`. -/
def Dev.winWrite (d : Dev) (k : Nat) (l : List Byte) : Dev :=
  let a := d.chip.winBase k
  if inBankMem a then d.fixedWrite 2 a l else (d.wideWrite 12 a l).2

/-- The whole state section, every window in ascending order. -/
def Dev.stateRead (d : Dev) : List Byte × Dev :=
  (List.range d.chip.nwin).foldl (fun (x : List Byte × Dev) k =>
    let (l, d1) := x.2.winRead k
    (x.1 ++ l, d1)) ([], d)

/-- A state section written into the windows. -/
def Dev.stateWrite (d : Dev) (l : List Byte) : Dev :=
  ((List.range d.chip.nwin).foldl (fun (x : List Byte × Dev) k =>
    let n := x.2.chip.winBytes k
    (x.1.drop n, x.2.winWrite k (x.1.take n))) (l, d)).2

/-- The state section of the record applied in this tick goes from RXBUF into the windows, when the unit's own verdict
passed (R579). -/
def Dev.mirrorCopy (d : Dev) : Dev :=
  match d.chip.mgld.state with
  | some n =>
    if d.chip.ledger.ok then
      let (l, d1) := d.stageRead 2 n
      (d1.stateWrite l).chipOp (fun c => { c with mgld := { c.mgld with copied := true } })
    else d
  | none => d

/-- The mirror snapshot of a Commit Window (R579): the copy of an applied record, and on the active the snapshot into the
staging buffer that is not streamed. -/
def Dev.mirrorSnapshot (d : Dev) : Dev :=
  let c := d.chip
  if !(c.en pgMGLD && c.tickRuns) then d
  else
    let d1 := d.mirrorCopy
    if c.mgldRole = 1 then
      let (l, d2) := d1.stateRead
      d2.stageWrite (1 - c.mgld.stream) l
    else d1

def execMirrorSnapshot (s : State) : Host.Outcome State Fault Refusal := s.onDev Dev.mirrorSnapshot

/-- CW+1,000: the staging buffers exchange roles (R23). -/
def Chip.stagingSwap (c : Chip) : Chip :=
  if c.en pgMGLD && c.tickRuns then { c with mgld := { c.mgld with stream := 1 - c.mgld.stream } } else c

def execStagingExchange (s : State) : Host.Outcome State Fault Refusal := s.onChip Chip.stagingSwap

/-- The input words of the record: of each pair the block that was forwarded. -/
def Chip.recordInputs (c : Chip) : List Word :=
  (List.range c.npair).flatMap (fun i => (look [] c.mgld.fwd i).take (c.pairQuota i))

/-- The bytes of a record (R571). -/
def recordData (inputs : List Word) (journal : List (Word × Word)) (st : List Byte) : List Byte :=
  let l := natBytes 2 inputs.length ++ natBytes 2 journal.length ++ natBytes 4 st.length ++ inputs.flatMap wordBytes ++
    journal.flatMap (fun e => wordBytes e.1 ++ wordBytes e.2) ++ st
  l ++ List.replicate ((8 - l.length % 8) % 8) 0

/-- The largest and the last record length (R591). -/
def Chip.recordLength (c : Chip) (n : Nat) : Chip :=
  let c1 := c.wr Reg.MGLD_REC_LEN (word (n % 2 ^ 24))
  c1.stat Reg.MGLD_REC_MAX (word (max n (c.rd Reg.MGLD_REC_MAX).toNat))

/-- Whether every input word of the record has been forwarded (R572). -/
def Chip.inputsReady (c : Chip) : Bool :=
  c.mgld.inputs.isSome || (List.range c.npair).all (fun i => decide (c.pairQuota i ≤ (look [] c.mgld.fwd i).length))

/-- The record whose Marker carries `m` ends: its data blocks and its Trailer (R571, R574). -/
def Dev.recordEnds (m : Word × BitVec 16 × Byte) (d : Dev) : Dev :=
  let c := d.chip
  let (tick, epoch, flags) := m
  let (st, d1) := if flags.getLsbD 1 then (([] : List Byte), d) else d.stageRead c.mgld.stream c.stateBytes
  let data := recordData (c.mgld.inputs.getD c.recordInputs) c.mgld.jrec st
  let sent : MirrorRecord :=
    { tick := tick, epoch := epoch, flags := flags, data := data, crc := crc32 data, blocks := data.length / 8 }
  let fwd := if c.mgld.inputs.isSome then c.mgld.fwd else c.mgld.fwd.map (fun e => (e.1, e.2.drop (c.pairQuota e.1)))
  d1.chipOp (fun c =>
    { c with mgld := { c.mgld with sent := some sent, fwd := fwd, jrec := [], inputs := none, begun := none } }.recordLength
      (recordBytes data.length))

/-- A record under way ends once its last input word has been forwarded (R572). -/
def Dev.recordGoesOn (d : Dev) : Dev :=
  match d.chip.mgld.begun with
  | some m => if d.chip.inputsReady then d.recordEnds m else d
  | none => d

/-- Record n leaves the active (R571 to R574): its Marker at once, the rest as soon as its inputs are there; HANDOVER yields
the role as the Marker leaves (R585). With IDLE_REQ = 1 no record begins (R55, R590). -/
def Dev.recordSend (d0 : Dev) : Dev :=
  let d := d0.chipOp (fun c => if c.mgldRole = 1 then c.mgldLanes c.mgld.peer.toNat else c)
  let c := d.chip
  match c.mgld.recTick with
  | none => d0
  | some t =>
    if !(c.en pgMGLD && c.tickRuns && c.mgldRole == 1) || c.idleReq pgMGLD then d0
    else
      let tight := c.rdb Reg.MGLD_ROLE 11 && !c.recordFits c.mgld.rate 1
      let nostate := !c.mgld.recOk || tight
      let hand := c.mgld.hand
      let flags := b2n c.mgld.jrecOvf + 2 * b2n nostate + 4 * b2n hand
      let d1 := (d.chipOp (fun c => { c with mgld := { c.mgld with
        recTick := none, hand := false
        begun := some (t.setWidth 32, BitVec.ofNat 16 c.mgldEpoch, BitVec.ofNat 8 flags) } })).recordGoesOn
      if hand then d1.chipOp (fun c => c.mgldBecome 4) else d1

def execRecordSend (s : State) : Host.Outcome State Fault Refusal := s.onDev Dev.recordSend

/-! Inputs through the mirror (R575). -/

/-- A word pushed into QM of pair `i`. -/
def Dev.pairPush (d : Dev) (i : Nat) (w : Word) : Dev := d.pushed (d.chip.pairOut i) 8 0 w

/-- Marigold takes a word of pair `i`: pushed when its block is already substituted, dropped when its block came with the
record; else forwarded in ACTIVE, and kept for a substitution on a receiving unit or one that took over in this tick. A unit
that yielded forwards for the record in progress (R566). -/
def Dev.mirrorWord (i : Nat) (d : Dev) : Dev :=
  let c := d.chip
  let sends := c.mgldRole = 1 ∨ (c.mgldRole = 4 ∧ c.mgld.begun.isSome)
  if i < c.npair ∧ c.en pgMGLD ∧ (sends ∨ c.mgldReceives) then
    let q := c.pairIn i
    let nch := max 1 ((c.queue q).quota / c.tickN)
    let at' := look 0 c.mgld.inPos i
    let (r, f, d0) := Dev.play q 8 0 (at' / nch) c.tickN (look blockFadeReset c.mgld.inFade i) (at' % nch) d
    let d1 := d0.chipOp (fun c => { c with mgld := { c.mgld with
      inFade := put c.mgld.inFade i f
      inPos := if r.isSome then put c.mgld.inPos i ((at' + 1) % (nch * c.tickN)) else c.mgld.inPos } })
    match r with
    | some w =>
      let keep (d : Dev) : Dev := d.chipOp (fun c =>
        { c with mgld := { c.mgld with fwd := put c.mgld.fwd i (look [] c.mgld.fwd i ++ [w]) } })
      let owe := look 0 c.mgld.owe i
      let skip := look 0 c.mgld.skip i
      if 0 < owe then
        (d1.pairPush i w).chipOp (fun c => { c with mgld := { c.mgld with owe := put c.mgld.owe i (owe - 1) } })
      else if 0 < skip then d1.chipOp (fun c => { c with mgld := { c.mgld with skip := put c.mgld.skip i (skip - 1) } })
      else if decide sends && !c.mgld.isOver then keep (d1.pairPush i w)
      else keep d1
    | none => d1
  else d

/-- A word of pair `i`, which may complete the record under way. -/
def Dev.mirrorInput (i : Nat) (d : Dev) : Dev := (d.mirrorWord i).recordGoesOn

def execMirrorInputForward (i : Fin 32) (s : State) : Host.Outcome State Fault Refusal := s.onDev (Dev.mirrorInput i)

/-- Pair `i` at the engine boundary E(b+1) of a receiving unit: with record b applied its own block is dropped, else it
takes the record's place, as far as its words have come. -/
def Dev.pairBoundary (i : Nat) (d : Dev) : Dev :=
  let c := d.chip
  let ws := look [] c.mgld.fwd i
  let n := c.pairQuota i
  let ready := ws.take n
  let set (c : Chip) (owe skip : Nat) : Chip := { c with mgld := { c.mgld with
    fwd := put c.mgld.fwd i (ws.drop n), owe := put c.mgld.owe i owe, skip := put c.mgld.skip i skip } }
  if c.mgld.applied then d.chipOp (fun c => set c (look 0 c.mgld.owe i) (look 0 c.mgld.skip i + (n - ready.length)))
  else (ready.foldl (fun d w => d.pairPush i w) d).chipOp (fun c =>
    set c (look 0 c.mgld.owe i + (n - ready.length)) (look 0 c.mgld.skip i))

/-! Markers, Status and deadlines. -/

/-- A Marker arrives (R567, R568, R570, R583, R591). -/
def Chip.mgldMarker (tick : Word) (epoch : BitVec 16) (flags : Byte) (c : Chip) : Chip :=
  if !c.en pgMGLD then c
  else
    let c1 := (c.wr Reg.MGLD_PEER_TICK tick).wr Reg.MGLD_PEER_SHORT c.now
    let lock := c.tickRuns && tick == c.tick.count.setWidth 32 && decide ((c.now - c.mgld.edge).toNat ≤ 1000)
    let seen (c : Chip) : Chip :=
      { c.wrb Reg.MGLD_ROLE 10 lock with mgld := { c.mgld with lock := lock, marker := some tick, beat := true } }
    match c.mgldRole with
    | 1 => c1.mgldConflict
    | 3 => seen (c1.wr Reg.MGLD_EPOCH (epoch.setWidth 32))
    | 2 =>
      if epoch.toNat = c.mgldEpoch then
        let c2 := seen (c1.wrf Reg.MGLD_ROLE 19 16 0)
        if flags.getLsbD 2 then
          { c2 with mgld := { c2.mgld with finish := some tick } }.mgldTakeover
        else if lock then c2
        else
          let c3 := c2.mgldBecome 3
          c3.irq pgMGLD 5
      else c1.count Reg.MGLD_RX_EPOCHERR
    | _ => c1

def execMarkerReceived (tick : Word) (epoch : BitVec 16) (flags : Byte) (s : State) : Host.Outcome State Fault Refusal :=
  s.onChip (Chip.mgldMarker tick epoch flags)

/-- A Status arrives at the active (R564, R582). -/
def Chip.mgldStatus (flags : Byte) (c : Chip) : Chip :=
  if c.mgldRole = 1 then { c with mgld := { c.mgld with peer := flags, seenAt := some c.tick.count } } else c

def execStatusReceived (_tick : Word) (_epoch : BitVec 16) (flags : Byte) (s : State) : Host.Outcome State Fault Refusal :=
  s.onChip (Chip.mgldStatus flags)

/-- The deadline of a Marker passes (R583). -/
def Chip.mgldDeadline (c : Chip) : Chip :=
  let beat := c.mgld.beat
  let c1 := { c with mgld := { c.mgld with beat := false } }
  if beat || !c.tickRuns then c1
  else if c.mgldRole = 2 then
    let n := min 15 (c.rdf Reg.MGLD_ROLE 19 16 + 1)
    let c2 := (c1.wrf Reg.MGLD_ROLE 19 16 n).irq pgMGLD 2
    if 2 ≤ n ∧ c.rdb Reg.MGLD_CFG 16 then c2.mgldTakeover else c2
  else if c.mgldRole = 3 then c1.irq pgMGLD 2
  else c1

def execHeartbeatDeadline (s : State) : Host.Outcome State Fault Refusal := s.onChip Chip.mgldDeadline

/-! Commands (R583, R585, R586). -/

/-- A command with its key, in the role that admits it. -/
def Chip.mgldKeyed (v : Word) (f : Chip → Chip) (c : Chip) : Chip :=
  if fld v 31 16 = 0x6D67 then f c else c.err pgMGLD 0x04 0
def Chip.mgldIn (role : Nat) (f : Chip → Chip) (c : Chip) : Chip :=
  if c.mgldRole = role then f c else c.err pgMGLD 0x03 0

/-- MGLD_CMD.TAKEOVER, HANDOVER and JOIN. -/
def Chip.cmdTakeover (c : Chip) : Chip := c.mgldIn 2 Chip.mgldTakeover
def Chip.cmdHandover (c : Chip) : Chip := c.mgldIn 1 (fun c => { c with mgld := { c.mgld with hand := true } })
def Chip.cmdJoin (c : Chip) : Chip := c.mgldIn 4 (fun c => c.mgldBecome 3)

def execTakeover (v : Word) (s : State) : Host.Outcome State Fault Refusal :=
  s.onChip (Chip.mgldKeyed v (fun c => if bit v 0 then c.cmdTakeover else c))
def execHandover (v : Word) (s : State) : Host.Outcome State Fault Refusal :=
  s.onChip (Chip.mgldKeyed v (fun c => if bit v 1 then c.cmdHandover else c))
def execJoin (v : Word) (s : State) : Host.Outcome State Fault Refusal :=
  s.onChip (Chip.mgldKeyed v (fun c => if bit v 2 then c.cmdJoin else c))

/-- A write of MGLD_CMD: its bits in ascending order (R669). -/
def Chip.mgldCmd (v : Word) (c : Chip) : Chip :=
  let act (b : Nat) (f : Chip → Chip) (c : Chip) : Chip := if bit v b then f c else c
  c.mgldKeyed v (fun c => act 2 Chip.cmdJoin (act 1 Chip.cmdHandover (act 0 Chip.cmdTakeover c)))

/-- MGLD_STATS_CLR (R591). -/
def Chip.mgldStatsClr (v : Word) (c : Chip) : Chip :=
  if bit v 0 then
    [Reg.MGLD_REC_MAX, Reg.MGLD_UNMIRRORED_TICKS, Reg.MGLD_RX_CRCERR, Reg.MGLD_RX_LATE, Reg.MGLD_RX_EPOCHERR,
      Reg.MGLD_JOVF_COUNT, Reg.MGLD_REPLAY_ERR, Reg.MGLD_FAILOVERS].foldl (fun c k => c.wr k 0) c
  else c

def execMgldStatsClr (v : Word) (s : State) : Host.Outcome State Fault Refusal := s.onChip (Chip.mgldStatsClr v)

/-- MGLD_ROLE as it reads (R591): PEER_SEEN within the last two ticks (R582). -/
def Chip.mgldRoleView (c : Chip) : Word :=
  let seen := match c.mgld.seenAt with
    | some t => decide ((c.tick.count - t).toNat ≤ 2)
    | none => false
  setBit (c.rd Reg.MGLD_ROLE) 9 (c.mgldRole == 1 && seen)

/-! The engine boundary. -/

/-- The tick's journal and verdict pass to the record of the tick that ends (R572, R574, R576); what is left of a record
that never got its inputs goes with it. -/
def Chip.mgldRecord (c : Chip) : Chip :=
  { c with mgld := { c.mgld with
      fwd := if c.mgld.begun.isSome then c.mgld.fwd.map (fun e => (e.1, e.2.drop (c.pairQuota e.1))) else c.mgld.fwd
      jrec := c.mgld.journal, jrecOvf := c.mgld.jovf, journal := [], jovf := false
      recTick := some c.tick.count, recOk := c.ledger.ok } }

/-- A receiving unit at E(n+1) (R565, R570, R575, R581, R582): its own inputs or the record's, UNMIRRORED, STANDBY after 16
records applied in full, and its Status, on one lane as its own lanes demand. -/
def Dev.mgldReceiver (d : Dev) : Dev :=
  let c := d.chip
  let full := c.mgld.applied && c.mgld.copied && c.mgld.lock
  let d1 := forUpTo c.npair Dev.pairBoundary d
  d1.chipOp (fun c =>
    let c1 := if c.mgld.copied then c else (c.count Reg.MGLD_UNMIRRORED_TICKS).irq pgMGLD 3
    let row := if full then c1.mgld.row + 1 else 0
    let c2 := { c1 with mgld := { c1.mgld with row := row } }
    let c3 := if c2.mgldRole = 3 ∧ 16 ≤ row then c2.mgldBecome 2 else c2
    let flags := b2n c.mgld.applied + 2 * b2n c.mgld.lock + 4 * b2n (c.laneState 8 == 5) + 8 * b2n (c.laneState 9 == 5)
    { c3.mgldLanes 0x0C with mgld := { c3.mgld with
        status := some ((c.tick.count + 1).setWidth 32, BitVec.ofNat 16 c3.mgldEpoch, BitVec.ofNat 8 flags) } })

/-- The inputs of the record of a tick in which the unit took over: those of the record applied in it, else its own
blocks as they stand at the boundary. -/
def Chip.overInputs (c : Chip) : Option (List Word) :=
  if !c.mgld.isOver then none else if c.mgld.applied then c.mgld.inputs else some c.recordInputs

/-- Marigold at an engine boundary, before TICK_COUNT moves on. -/
def Dev.mgldBoundary (d : Dev) : Dev :=
  let c := d.chip
  if !c.en pgMGLD then d
  else
    let d1 :=
      if c.mgldRole = 1 then
        (if c.mgld.isOver then forUpTo c.npair Dev.pairBoundary d else d).chipOp Chip.mgldRecord
      else if c.mgldReceives then d.mgldReceiver
      else d
    d1.chipOp (fun c' =>
      { c' with mgld := { c'.mgld with
          edge := c'.now, applied := false, copied := false, state := none, isOver := false, finish := none, inputs := c.overInputs
          begun := none } })

/-- The first engine boundary E(L) of a start: no tick ends there. -/
def Chip.mgldStart (c : Chip) : Chip :=
  { c with mgld := { c.mgld with
      edge := c.now, applied := false, copied := false, state := none, journal := [], jovf := false, recTick := none
      begun := none } }

/-- A reset that reaches page MGLD (R589). -/
def Chip.resetMgld (c : Chip) : Chip := { (c.mgldBecome 0).resetPage pgMGLD with mgld := mgldReset }

end Sys2Proof.Machine
end

