-- ==== Sys2Proof/Machine/Link.lean ====
section
/-! DEFINITION. The commands of the serial lanes (R404 to R419): each is the lane's own operation, after which the Stem
link on that lane follows its state (R496). -/

namespace Sys2Proof.Machine

/-- What lane `n` does, and the Stem link on lanes 4 to 7 after it. -/
def Chip.laneDo (c : Chip) (n : Nat) (f : Chip → Chip) : Chip :=
  if 4 ≤ n ∧ n ≤ 7 then (f c).stemLane (n - 4) else f c

/-- IDLE_ENTER and IDLE_EXIT of software while AUTOIDLE is in effect (R495). -/
def Chip.laneIdleCmd (c : Chip) (n : Nat) (f : Chip → Chip) : Chip :=
  if c.autoIdle n then c.err (pgLANE n) 0x03 0 else f c

/-- A write of LANEn_CMD: IDLE_ENTER, IDLE_EXIT, RELOCK (R428, R669). -/
def Chip.laneCmd (n : Nat) (v : Word) (c : Chip) : Chip :=
  let c1 := if bit v 0 then c.laneIdleCmd n (·.idleEnter n) else c
  let c2 := if bit v 1 then c1.laneIdleCmd n (·.idleExit n) else c1
  if bit v 2 then c2.laneDo n (·.laneRelock n) else c2

/-- Setting LANE CTRL.EN. -/
def Chip.laneOn (n : Nat) (c : Chip) : Chip := c.laneDo n (fun c => c.laneEnable n (c.mgldRefuses n))

def execLaneEnable (n : Fin 10) (s : State) : Host.Outcome State Fault Refusal := s.onChip (Chip.laneOn n)

def execLosAssert (n : Fin 10) (s : State) : Host.Outcome State Fault Refusal :=
  s.onChip (fun c => c.laneDo n (·.losAssert n))

def execLosClear (n : Fin 10) (s : State) : Host.Outcome State Fault Refusal :=
  s.onChip (fun c => c.laneDo n (·.losClear n))

def execCdrLock (n : Fin 10) (freq : Word) (s : State) : Host.Outcome State Fault Refusal :=
  s.onChip (fun c => c.laneDo n (·.cdrLock n freq))

def execCdrLoss (n : Fin 10) (s : State) : Host.Outcome State Fault Refusal :=
  s.onChip (fun c => c.laneDo n (·.cdrLoss n))

def execLaneBlockReceived (n : Fin 10) (hdr : BitVec 2) (payload : BitVec 64) (s : State) :
    Host.Outcome State Fault Refusal :=
  s.onChip (fun c => c.laneDo n (·.laneBlock n hdr payload))

def execRelock (n : Fin 10) (s : State) : Host.Outcome State Fault Refusal :=
  s.onChip (fun c => c.laneDo n (·.laneRelock n))

def execIdleEnter (n : Fin 10) (s : State) : Host.Outcome State Fault Refusal :=
  s.onChip (fun c => c.laneIdleCmd n (·.idleEnter n))

def execIdleExit (n : Fin 10) (s : State) : Host.Outcome State Fault Refusal :=
  s.onChip (fun c => c.laneIdleCmd n (·.idleExit n))

def execTrainingBurstEnd (n : Fin 10) (s : State) : Host.Outcome State Fault Refusal :=
  s.onChip (fun c => c.burstEnd n)

def execRxIdleTimeout (n : Fin 10) (s : State) : Host.Outcome State Fault Refusal :=
  s.onChip (fun c => c.rxIdleTimeout n)

end Sys2Proof.Machine
end

