-- ==== Sys2Proof/Machine/Waits.lean ====
section
/-! DEFINITION. How a credit wait ends (R109, R111): the endpoint that waits serves its word when the credit appears, or
at once, refused, when its queue is disabled. -/

namespace Sys2Proof.Machine

/-- Core `k`, held at a QUEUE bundle of queue `q`, goes on: the bundle issues unless a HALT stops the core before it
(R109, R160). -/
def Dev.coreCredit (k q : Nat) (push : Bool) (d : Dev) : Dev :=
  let x := d.chip.core k
  if d.chip.coreState k = 3 ∧ x.hold = .credit q push then
    let d1 := d.chipOp (fun c =>
      (c.setCore k { x with hold := .none, held := x.held + (c.ecyc - x.holdAt) }).setCoreState k 1)
    if x.drain = .none then d1.reissue k else d1
  else d

/-- A Courier channel held by queue `q` runs again; its instruction goes on with the channel's next command (R276). When the
queue is disabled its push or pop is dropped with that outcome, which stops it (R111, R301). -/
def Chip.chanGo (n q : Nat) (c : Chip) : Chip :=
  if c.chanState n = 2 ∧ c.rdf (Reg.CUR_CH_STAT n) 7 5 = 7 then
    if c.qEnabled q then (c.wrf (Reg.CUR_CH_STAT n) 7 5 0).setChanState n 1
    else (c.qError q 3 n 3 0x06).chanError n (c.chanOp n) 0x06 q
  else c

/-- The waiting endpoint of one side of queue `q` serves what it waits for. -/
def Dev.endpointGo (q kind id : Nat) (consumer : Bool) (held : Option Word) (d : Dev) : Dev :=
  match held with
  | some w => d.endpointPush q kind id w
  | none =>
    if kind = 1 ∧ (d.chip.core id).hold = .credit q (!consumer) then d.coreCredit id q (!consumer)
    else if kind = 2 ∧ (d.chip.core (32 + id)).hold = .credit q (!consumer) then d.coreCredit (32 + id) q (!consumer)
    else if kind = 3 then d.chipOp (Chip.chanGo id q)
    else if kind = 10 then (if d.chip.qEnabled q then d.bankMover q else d.chipOp (·.qError q kind id 3 0x06))
    else if consumer then d.endpointPop q kind id
    else d

/-- The wait of one side of queue `q` ends, if the credit is there or the queue is disabled (R109, R111). -/
def Dev.waitEnd (q : Nat) (consumer : Bool) (d : Dev) : Dev :=
  let x := d.chip.queue q
  let waits := if consumer then x.cwait else x.pwait
  let free := !d.chip.qEnabled q || decide (0 < if consumer then x.ccred else x.pcred)
  if waits && free then
    let d1 := d.chipOp (·.setQueue q
      (if consumer then { x with cwait := false } else { x with pwait := false, pheld := none }))
    if consumer then d1.endpointGo q x.ckind x.cid true none
    else d1.endpointGo q x.pkind x.pid false x.pheld
  else d

def execCreditWaitEnd (q : Fin 1024) (consumer : Bool) (s : State) : Host.Outcome State Fault Refusal :=
  s.onDev (Dev.waitEnd q consumer)

/-- Both waits of a queue that is disabled end (R111). -/
def Dev.waitsEnd (d : Dev) (q : Nat) : Dev := (d.waitEnd q false).waitEnd q true

/-- QF_CMD.DISABLE on a queue. -/
def Dev.queueDisable (d : Dev) (q : Nat) : Dev := (d.chipOp (·.qDisable q)).waitsEnd q

def execQueueDisable (s : State) : Host.Outcome State Fault Refusal := s.onDev (fun d => d.queueDisable d.chip.qsel)

/-- The waits of every queue end: the fabric is not active (R111). -/
def Dev.allWaitsEnd (d : Dev) : Dev := d.chip.qf.qs.foldl (fun d e => d.waitsEnd e.1) d

/-- A change of QF CTRL (R111, R112). -/
def Dev.qfCtrl (d : Dev) : Dev :=
  if d.chip.qfActive then d else (d.chipOp Chip.qfDeactivated).allWaitsEnd

/-- A reset that reaches page QF (R123): every wait ends, refused. -/
def Dev.resetQueues (d : Dev) : Dev :=
  ((d.chipOp (fun c => c.mapQueues (fun _ x => { x with en := false }))).allWaitsEnd).chipOp Chip.resetQf

/-- A write of QF_CMD: its commands in ascending bit order on the selected queue (R126, R669). -/
def Dev.qfCmd (d : Dev) (v : Word) : Dev :=
  let q := d.chip.qsel
  let d1 := if bit v 0 then d.queueEnable q else d
  let d2 := if bit v 1 then d1.queueDisable q else d1
  let d3 := if bit v 2 then d2.chipOp (·.qFlush q) else d2
  if bit v 3 then d3.chipOp (·.qClrstat q) else d3

end Sys2Proof.Machine
end

