-- ==== Sys2Proof/Machine/Drain.lean ====
section
/-! DEFINITION. The beats of a matrix transaction (R312) and the drain of a master port in reset (R320, R321). -/

namespace Sys2Proof

/-- The bytes of a beat. -/
def Txn.size (t : Txn) : Nat := 2 ^ t.beatLog.val

/-- The address of beat `i`. -/
def Txn.beatAddr (t : Txn) (i : Nat) : Nat := (t.addr.toNat + i * t.size) % 2 ^ 40

/-- The bytes that beat `i` of a write stores: those whose strobe is set. -/
def Txn.beatBytes (t : Txn) (i : Nat) : List (Nat × Byte) :=
  (List.range t.size).filterMap (fun j =>
    if (t.strobes[i * t.size + j]?).getD true then some (j, Machine.byteAt t.data (i * t.size + j)) else none)

end Sys2Proof

namespace Sys2Proof.Machine

/-- What beat `i` of a transaction does at its target. -/
abbrev BeatAct := MtxOpen → Nat → Dev → Dev

/-- A beat at a memory target: a write stores, a read changes nothing. -/
def memAct : BeatAct := fun o i d =>
  if o.txn.write then (d.memBeatWrite o.txn.master (o.addrs[i]?.getD 0) o.txn.size (o.txn.beatBytes i)).2 else d

/-- A part accepted but not served whose port drains (R320, R321): a read is completed into the discard sink; of a write a
free number of beats has been transferred, the rest has its strobes clear. -/
def Dev.endPart (act : BeatAct) (p : MtxPart) (d : Dev) : Dev :=
  match d.chip.openOf p.master p.seq with
  | some o =>
    if o.txn.write then
      forUpTo ((d.chip.freeNow 8).toNat % (p.n + 1)) (fun i d => act o (p.lo + i) d) (d.chipOp Chip.freeNext)
    else forUpTo p.n (fun i d => act o (p.lo + i) d) d
  | none => d

/-- MTX_MPm_STAT.DRAINING. -/
def Chip.draining (c : Chip) (m : Nat) : Bool := c.rdb (Reg.MTX_MP_STAT m) 16
def Chip.setDraining (b : Bool) (m : Nat) (c : Chip) : Chip := c.wrb (Reg.MTX_MP_STAT m) 16 b

/-- Whether a master port has anything on its way. -/
def Chip.portBusy (c : Chip) (m : Nat) : Bool :=
  c.mtx.opn.any (fun o => o.txn.master.val == m) || c.mtx.held.any (fun t => t.master.val == m)

/-- A port whose block is reset starts to drain (R320); an idle one has drained. -/
def Chip.startDrain (m : Nat) (c : Chip) : Chip := if c.portBusy m then c.setDraining true m else c

/-- Master port `m` drains (R320): reads end in a discard sink, a write in transfer ends, requests not granted are
removed; MRESET when a write was ended or a read discarded. -/
def Dev.portDrain (act : BeatAct) (m : Nat) (d : Dev) : Dev :=
  let c := d.chip
  let own (p : MtxPart) : Bool := p.master == m
  let cut := c.mtx.acc.filter own
  let d1 := cut.foldl (fun d p => d.endPart act p) d
  let queued (o : MtxOpen) : Bool :=
    !o.targets.isEmpty && (c.mtx.wait.filter (fun p => own p && p.seq == o.seq)).length == o.targets.length
  let lost := c.mtx.opn.filter (fun o => o.txn.master.val == m && !queued o && (!o.txn.write || 0 < o.left))
  d1.chipOp (fun c =>
    let c1 := { c with mtx := { c.mtx with
      opn := c.mtx.opn.filter (fun o => o.txn.master.val != m)
      wait := c.mtx.wait.filter (fun p => !own p)
      acc := c.mtx.acc.filter (fun p => !own p)
      held := c.mtx.held.filter (fun t => t.master.val != m) } }
    match lost.head? with
    | none => c1
    | some o =>
      (c1.irq pgMTX 2).err pgMTX 0x03
        (word (m + (c.region o.txn.addr.toNat).target * 0x100 + b2n o.txn.write * 0x1_0000)))

/-- A reset ends the remote access of core `k` in the bus matrix (R168, R320, R321): one not granted is removed; one granted is
ended with MRESET, and a write has then stored its beat or not. Which of these holds are free values. -/
def Dev.remoteCut (k : Nat) (d : Dev) : Dev :=
  let x := d.chip.core k
  let port := corePort k
  (x.orphans ++ x.hold.outstanding).foldl (fun d a =>
    let granted := d.chip.freeNow 2
    let d1 := d.chipOp Chip.freeNext
    match d1.chip.remoteAddr k a.addr.toNat with
    | none => d1
    | some p =>
      if granted.getLsbD 0 = false then d1
      else
        let n := 4 * a.data.length
        let d2 := if a.write && granted.getLsbD 1 then
            (d1.memBeatWrite port p n ((List.range n).zip (a.data.flatMap wordBytes))).2 else d1
        d2.chipOp (fun c => (c.irq pgMTX 2).err pgMTX 0x03
          (word (port + (c.region p).target * 0x100 + b2n a.write * 0x1_0000)))) d

/-- The port is empty: DRAINING falls. -/
def Chip.drainDone (m : Nat) (c : Chip) : Chip :=
  if c.draining m && !c.mtx.opn.any (fun o => o.txn.master.val == m) then c.setDraining false m else c

def execDrainDone (m : Fin 15) (s : State) : Host.Outcome State Fault Refusal := s.onChip (Chip.drainDone m)

/-- Every port drains and the matrix is empty (R322). What a drained access does to a register of the fabric, the reset
itself takes back. -/
def Dev.resetMatrix (d : Dev) : Dev :=
  (forUpTo 15 (Dev.portDrain memAct) d).chipOp (fun c => { c.resetPage pgMTX with mtx := mtxReset })

/-- A BLOCK reset of MTX: its registers; traffic goes on (R322). -/
def Chip.resetMtxPage (c : Chip) : Chip :=
  let drains := indices 15 c.draining
  drains.foldl (fun c m => c.setDraining true m) (c.resetPage pgMTX)

end Sys2Proof.Machine
end

