-- ==== Sys2Proof/Machine/Power.lean ====
section
/-! DEFINITION. Resets, fuses and power states (R611 to R628, R636 to R638, R652). -/

namespace Sys2Proof.Machine

/-- Crocus and what stands beside it become `f` of what they were. -/
def Chip.pwrDo (c : Chip) (f : PwrSt → PwrSt) : Chip := { c with pwr := f c.pwr }

/-! Which level a source acts at (R612, R613): 0 CHIP, 1 SYSTEM, 2 ENGINE, 3 NONE. -/

/-- FUSE_STAT.DONE, LOADING and FAULT (R620). -/
def Chip.fuseDone (c : Chip) : Bool := c.rdb Reg.FUSE_STAT 0
def Chip.fuseLoading (c : Chip) : Bool := c.rdb Reg.FUSE_STAT 1
def Chip.fuseFault (c : Chip) : Bool := c.rdb Reg.FUSE_STAT 2

/-- MAPs of a mappable source, its reserved codes as default (R613). -/
def Chip.resetMap (c : Chip) (s : Nat) : Nat :=
  let m := c.rdf Reg.FUSE_RESET_MAP (3 * (s - 1) + 2) (3 * (s - 1))
  if 5 ≤ m then 0 else m

/-- The default level of a source (R612); `asked` for a software request. -/
def resetDefault (s asked : Nat) : Nat :=
  match s with
  | 0 | 1 | 10 | 12 => 0
  | 4 => 3
  | 7 => 2
  | 8 => asked
  | _ => 1

/-- The level at which a source acts. -/
def Chip.resetLevel (c : Chip) (s asked : Nat) : Nat :=
  if s = 0 ∨ 10 ≤ s then resetDefault s asked
  else if !c.fuseDone then 0
  else if s = 8 ∨ c.resetMap s = 0 then resetDefault s asked
  else if s = 6 ∧ 3 ≤ c.resetMap s then 1
  else c.resetMap s - 1

/-! What the levels reset (R611, and the chapter of each block). -/

/-- The Tick Unit stops at once, without a Commit Window (R36, R225, R232); the strobes return to 96 kHz (R671). Tables that a
flip has exchanged act from here on: the audio boundary that they awaited does not come (DESIGN CHOICE, log entry 130). -/
def Chip.resetTick (c : Chip) : Chip :=
  ({ c.snapStop.exchangeActs.resetPage pgTICK with tick := tickReset }).dropTable

/-- The HOST page with its mailboxes, the BOOTQ page with its FIFO (R636). -/
def Chip.resetHost (c : Chip) : Chip :=
  (c.resetPage pgHOST).pwrDo (fun p => { p with mboxIn := [], mboxOut := [], hostErr := false })
def Chip.resetBootq (c : Chip) : Chip := (c.resetPage pgBOOTQ).pwrDo (fun p => { p with bootq := [] })

/-- The blocks of the ENGINE level (R611). -/
def Dev.resetEngine (d : Dev) : Dev :=
  let d1 := (forUpTo 32 Dev.remoteCut d).chipOp (fun c =>
    forUpTo 4 (Chip.resetCur false) (forUpTo 32 (fun m c => c.resetCore m) c))
  d1.resetQueues.chipOp (fun c => c.resetPatch.resetDmix.resetTick)

/-- Registers of the pages SYS, RST and CLKPWR that lie outside the Crocus domain (R614, R636). -/
def crocusKept (k : Nat) : Bool :=
  k == Reg.RST_RESET_CAUSE || k == Reg.CLKPWR_WAKE_CFG || k == Reg.CLKPWR_WAKE_CAUSE ||
    (Reg.CLKPWR_RETAIN 0 ≤ k && k ≤ Reg.CLKPWR_RETAIN 3)
def controlPage (k : Nat) : Bool := pageOf k ≤ pgCLKPWR && !crocusKept k

/-- The blocks outside the ENGINE level that a SYSTEM reset reaches too, but for Foxglove and Bank Memory. -/
def Chip.resetBlocks (c : Chip) : Chip :=
  let c1 := ((c.resetRegs controlPage).resetHost.resetBootq).resetHub
  let c2 := ((((c1.resetTb.resetSnap false).resetAsrc.resetJack.resetAster).resetIris.resetCb0.resetStrm).resetPage pgSPKC)
  let c3 := forUpTo 2 Chip.resetDram (forUpTo 16 Chip.resetSap (forUpTo 4 Chip.resetAes c2))
  let c4 := forUpTo 4 (fun p c => c.resetEth p false) (forUpTo 10 Chip.resetLane c3)
  let c5 := forUpTo 16 Chip.resetSpk (forUpTo 4 Chip.resetStem c4)
  let c6 := (((c5.resetCore 32).resetCore 33).resetMgld).curBoot true
  c6.pwrDo (fun p => { p with entry := none, latched := [], blk := [], blkHeld := [], timeout := [], boot := bootReset })

/-- A CHIP or SYSTEM reset (R322, R535, R557, R611, R620, R636): Foxglove at the assertion, the drain of the matrix, then
every block. A CHIP reset returns the FUSE page too, but for the count of restarts. -/
def Dev.resetSystem (chip : Bool) (d : Dev) : Dev :=
  let d1 := d.chipOp (if chip then Chip.fgChipReset else Chip.fgHold)
  let d2 := (((forUpTo 2 (fun n d => d.remoteCut (32 + n)) d1).resetMatrix.resetEngine).resetBank).chipOp Chip.resetBlocks
  if chip then
    d2.chipOp (fun c =>
      let n := if c.fuseLoading then min 15 (c.rdf Reg.FUSE_STAT 11 8 + 1) else 0
      ((c.resetPage pgFUSE).wrf Reg.FUSE_STAT 11 8 n))
  else d2.chipOp (fun c => c.wrb Reg.CLKPWR_PLL 2 true)

/-- The pages that an ENGINE reset reaches. -/
def enginePage (p : Nat) : Bool :=
  (8 ≤ p && p ≤ 9) || p == pgPATCH || p == pgDMIX || (0x18 ≤ p && p < 0x1C) || (0x40 ≤ p && p < 0x60)

/-- An ENGINE reset at its assertion (R618): its ports start to drain, the DRAM controllers are to enter self-refresh, its
blocks are held in reset. -/
def Dev.engineReset (d : Dev) : Dev :=
  (d.resetEngine).chipOp (fun c =>
    let c1 := [0, 1, 2, 3, 6, 7, 8, 9].foldl (fun c m => c.startDrain m) c
    let c2 := forUpTo 2 (fun k c => c.dramSleep k 2) c1
    c2.pwrDo (fun p => { p with
      blk := drop enginePage p.blk, blkHeld := p.blkHeld.filter (fun e => !enginePage (pageOf e.1)) }))

/-- What an assertion at level `l` resets. -/
def Dev.resetAt (l : Nat) (d : Dev) : Dev :=
  let d1 := match l with
    | 0 => d.resetSystem true
    | 1 => d.resetSystem false
    | _ => d.engineReset
  d1.chipOp Chip.hubFalls

/-! Assertions (R616, R617). -/

/-- Whether a held source keeps a reset of level `l` from its sequence or its end: one of equal or broader level. -/
def Chip.heldAt (c : Chip) (l : Nat) : Bool := c.pwr.held.any (fun s => decide (c.resetLevel s 0 ≤ l))

/-- The step of R617 at which a level begins; 0 for ENGINE, which has no step there. -/
def resetStart (l : Nat) : Nat :=
  match l with
  | 0 => 1
  | 1 => 4
  | _ => 0

/-- A reset of level `l` starts, or widens the one in progress. -/
def Dev.resetBegin (s l : Nat) (d : Dev) : Dev :=
  (d.resetAt l).chipOp (fun c =>
    let c1 := c.wr Reg.RST_RESET_CAUSE (word (s + 16 * l))
    c1.pwrDo (fun p => { p with level := l, waiting := none, seq := if c.heldAt l then 0 else resetStart l }))

/-- An assertion absorbed by the reset in progress: MULTI; during the fuse load the load restarts (R616, R620). -/
def Chip.resetAbsorbed (c : Chip) : Chip :=
  let c1 := c.wrb Reg.RST_RESET_CAUSE 8 true
  if c1.fuseLoading then c1.wrf Reg.FUSE_STAT 11 8 (min 15 (c1.rdf Reg.FUSE_STAT 11 8 + 1)) else c1

/-- Source `s` asserts at level `l`; `holds` when it stays asserted. A new assertion of RESET_N retries after a fuse fault
(R620). -/
def Dev.resetAssert (s l : Nat) (holds : Bool) (d : Dev) : Dev :=
  let d1 := if holds then d.chipOp (fun c => c.pwrDo (fun p => { p with held := s :: p.held.filter (· != s) })) else d
  if l = 3 then d1.chipOp (fun c => (c.wrb Reg.RST_IGNORED s true).irq pgRST 1)
  else if s = 1 ∧ d.chip.fuseFault then
    (d1.chipOp (fun c => c.pwrDo (fun p => { p with held := p.held.filter (· != 10) }))).resetBegin s 0
  else if l < d.chip.pwr.level then d1.resetBegin s l
  else d1.chipOp Chip.resetAbsorbed

/-- A source asserts at the level its map gives. -/
def Dev.resetSource (s : Nat) (holds : Bool) (d : Dev) : Dev := d.resetAssert s (d.chip.resetLevel s 0) holds

/-- The release of POR waits for PWRGOOD; every memory holds undefined contents (R45, R614, R652). -/
def Dev.por (d : Dev) : Dev :=
  let d1 := d.undefine 0 0x3_0000_0000
  d1.chipOp (fun c =>
    { chipReset with
      freeCtr := c.freeCtr
      rdata := c.rdata
      fg := { fgReset with safeLow := c.fg.safeLow, fqiAt := c.fg.fqiAt }
      pwr := { pwrReset with seq := 0, waiting := some 0, blown := c.pwr.blown, held := c.pwr.held.filter (· != 10) } })

def execPor (s : State) : Host.Outcome State Fault Refusal := s.onDev Dev.por

/-! The sequence of R617. -/

/-- Word `w` of a copy of the fuse array: as made, with the bits blown since (R621). -/
def Chip.fuseAt (c : Chip) (copyB : Bool) (w : Nat) : Word :=
  Config.fuseWord copyB w ||| look 0 c.pwr.blown (w + if copyB then 16 else 0)

/-- The first word in which the copies differ (R620). -/
def Chip.fuseBad (c : Chip) : Option Nat :=
  (List.range (max 12 Config.fuseCount)).find? (fun w => c.fuseAt false w != c.fuseAt true w)

/-- The customer words come into their registers (R621, R639). -/
def Chip.fuseLoad (c : Chip) : Chip :=
  let c1 := ((((c.wr Reg.FUSE_RESET_MAP (c.fuseAt false 0)).wr Reg.FUSE_BOOT (c.fuseAt false 1 &&& 0xFF03)).wr
    Reg.FUSE_MAC_LO (c.fuseAt false 2)).wr Reg.FUSE_MAC_HI (c.fuseAt false 3 &&& 0xFFFF))
  forUpTo 8 (fun w c => c.wr (Reg.FUSE_KEY w) (c.fuseAt false (4 + w))) c1

/-- The load and the compare end (R620): DONE, or FAULT with the fuse-fault source, which no sequence passes. -/
def Dev.fuseStep (d : Dev) : Dev :=
  match d.chip.fuseBad with
  | none =>
    d.chipOp (fun c =>
      (c.fuseLoad.wrf Reg.FUSE_STAT 2 0 1).pwrDo (fun p => { p with seq := 4 }))
  | some w =>
    (d.chipOp (fun c => (c.wrf Reg.FUSE_STAT 2 0 4).wrf Reg.FUSE_STAT 31 16 w)).resetAssert 10 0 true

/-- Whether the boot source of SYS_BOOT.SEL is denied (R629). -/
def Chip.bootDenied (c : Chip) (sel : Nat) : Bool :=
  c.rdb Reg.FUSE_BOOT (8 + sel) || c.rdb Reg.FUSE_BOOT (8 + min sel 4) || (4 ≤ sel && c.rdb Reg.FUSE_BOOT 1)

/-- The blocks leave reset: ST0 runs from core address 0, and the Boot ROM turns to its source, or fails at once with
status 0x08 (R617, R629, R634). -/
def Chip.bootStart (c : Chip) : Chip :=
  let sel := c.rdf Reg.SYS_BOOT 2 0
  let c1 := (c.setCore 32 ((c.core 32).begin 0)).setCoreState 32 1
  if c1.bootDenied sel then c1.wrf Reg.SYS_BOOT 15 8 0x08
  else c1.pwrDo (fun p => { p with boot := { bootReset with waits := decide (sel < 4) } })

/-- The steps are through (R616): the reset ends, or waits for the sources of its level; a source of a narrower level
keeps that level's blocks alone. -/
def Chip.sequenceEnd (c : Chip) : Chip :=
  let l := c.pwr.level
  if c.heldAt l then c.pwrDo (fun p => { p with seq := 7 })
  else if c.heldAt 1 then c.pwrDo (fun p => { p with level := 1, seq := 7 })
  else if c.heldAt 2 then c.bootStart.pwrDo (fun p => { p with level := 2, seq := 0 })
  else c.bootStart.pwrDo (fun p => { p with level := 3, seq := 0 })

/-- A step completes (R617). -/
def Dev.sequenceStep (sel : BitVec 3) (d : Dev) : Dev :=
  let next (c : Chip) (n : Nat) : Chip := c.pwrDo (fun p => { p with seq := n })
  match d.chip.pwr.seq with
  | 1 => d.chipOp (fun c => next c 2)
  | 2 => d.chipOp (fun c => next (c.wrb Reg.FUSE_STAT 1 true) 3)
  | 3 => if d.chip.fuseFault || d.chip.heldAt 0 then d else d.fuseStep
  | 4 => d.chipOp (fun c => next (c.wrf Reg.CLKPWR_PLL 2 0 7) 5)
  | 5 => d.chipOp (fun c => next c 6)
  | 6 => d.chipOp (fun c => (c.wrf Reg.SYS_BOOT 2 0 sel.toNat).sequenceEnd)
  | _ => d

def execResetSequenceStep (bootSel : BitVec 3) (s : State) : Host.Outcome State Fault Refusal :=
  s.onDev (Dev.sequenceStep bootSel)

/-- A held source releases (R616): the sequence that waited for it begins, or the blocks that it held are released. The
engine PLL has relocked (R612). -/
def Chip.resetRelease (s : Nat) (c : Chip) : Chip :=
  if c.pwr.held.contains s && s != 10 then
    let c1 := c.pwrDo (fun p => { p with held := p.held.filter (· != s) })
    let c2 := if s = 7 then c1.wrb Reg.CLKPWR_PLL 0 true else c1
    let l := c2.pwr.level
    if c2.pwr.seq = 7 then c2.sequenceEnd
    else if c2.pwr.seq = 0 ∧ l < 2 ∧ c2.pwr.waiting = none ∧ !c2.heldAt l then
      c2.pwrDo (fun p => { p with seq := resetStart l })
    else c2
  else c

def execResetRelease (src : Fin 13) (s : State) : Host.Outcome State Fault Refusal := s.onChip (Chip.resetRelease src)

/-- The ENGINE reset ends (R618): its ports have drained, the DRAM is in self-refresh, no source holds it and the engine
PLL is locked; the controllers may leave self-refresh. -/
def Chip.engineRelease (c : Chip) : Chip :=
  let drained := [0, 1, 2, 3, 6, 7, 8, 9].all (fun m => !c.draining m)
  let asleep := [0, 1].all (fun k => (c.dramSt k).want != 2)
  if c.pwr.level = 2 ∧ !c.heldAt 2 ∧ drained ∧ asleep ∧ c.rdb Reg.CLKPWR_PLL 0 then
    (forUpTo 2 (fun k c => c.dramWake k 2) c).pwrDo (fun p => { p with level := 3 })
  else c

def execEngineResetRelease (s : State) : Host.Outcome State Fault Refusal := s.onChip Chip.engineRelease

/-! The sources. -/

/-- RESET_N low: a reset at its level, held while low; in Listen and Dormant, or on the way there, a wake (R612, R626 to
R628). High: its release. -/
def Dev.resetPin (low : Bool) (d : Dev) : Dev :=
  if !low then d.chipOp (Chip.resetRelease 1)
  else if 2 ≤ d.chip.pstate ∨ d.chip.pwr.entry.any (2 ≤ ·) then
    d.chipOp (fun c => (c.wake 2 1).pwrDo (fun p => { p with held := 1 :: p.held.filter (· != 1) }))
  else d.resetSource 1 true

def execResetPin (low : Bool) (s : State) : Host.Outcome State Fault Refusal := s.onDev (Dev.resetPin low)

/-- PEER_RST_IN, while MGLD CTRL.EN = 1. -/
def Dev.peerReset (d : Dev) : Dev := if d.chip.en pgMGLD then d.resetSource 5 false else d

def execPeerResetIn (s : State) : Host.Outcome State Fault Refusal := s.onDev Dev.peerReset

def execThermalTrip (s : State) : Host.Outcome State Fault Refusal := s.onDev (Dev.resetSource 6 true)

/-- The engine PLL is out of lock (R612, R638). -/
def Dev.pllLoss (d : Dev) : Dev :=
  (d.chipOp (fun c =>
    ((c.wrf Reg.CLKPWR_PLL 15 8 (min 255 (c.rdf Reg.CLKPWR_PLL 15 8 + 1))).irq pgCLKPWR 1))).resetSource 7 true
    |>.chipOp (fun c => c.wrb Reg.CLKPWR_PLL 0 false)

def execEnginePllLoss (s : State) : Host.Outcome State Fault Refusal := s.onDev Dev.pllLoss

/-- The TAP instruction SYSRST, unless JTAG_DIS. -/
def Dev.jtagReset (d : Dev) : Dev := if d.chip.rdb Reg.FUSE_BOOT 1 then d else d.resetSource 9 false

def execJtagSysrst (s : State) : Host.Outcome State Fault Refusal := s.onDev Dev.jtagReset

/-- A write of RST_SWRST (R615). -/
def Dev.softwareReset (v : Word) (d : Dev) : Dev :=
  let l := fld v 1 0
  let m := d.chip.resetMap 8
  if fld v 31 16 ≠ 0x5E75 then d.chipOp (fun c => c.err pgRST 0x01 0)
  else if l = 0 then d
  else if m = 4 ∨ (m ≠ 0 ∧ l < m) then d.chipOp (fun c => c.err pgRST 0x02 0)
  else d.resetAssert 8 (d.chip.resetLevel 8 (l - 1)) false

def execSoftwareReset (v : Word) (s : State) : Host.Outcome State Fault Refusal := s.onDev (Dev.softwareReset v)

/-- The watchdog of a Steward expires (R167, R172): its flag, and source 2 or 3. -/
def Dev.wdogFire (n : Nat) (d : Dev) : Dev :=
  (d.chipOp (fun c => (c.wdogSet n 0).irq (pgST n) 5)).resetSource (2 + n) false

/-- The count has run out: the cycles left have gone by (log entry 96). A HALTED Steward's does not count. -/
def Dev.wdogExpired (n : Nat) (d : Dev) : Dev :=
  if d.chip.rdb (Reg.ST_WDOG_CFG n) 31 && d.chip.coreState (32 + n) != 4 then d.wdogFire n else d

def execStewardWdogExpiry (st : Fin 2) (s : State) : Host.Outcome State Fault Refusal := s.onDev (Dev.wdogExpired st)

/-- A write of STn_WDOG_KICK (R167): 0x5AFE reloads the count, any other value expires the watchdog at once. -/
def Dev.wdogKick (n : Nat) (v : Word) (d : Dev) : Dev :=
  if v = 0x5AFE then d.chipOp (fun c => c.wdogLoad n) else d.wdogFire n

def execStewardWdogKick (st : Fin 2) (v : Word) (s : State) : Host.Outcome State Fault Refusal :=
  s.onDev (Dev.wdogKick st v)

/-- Foxglove does `f`: its entry to FAULT asserts source 4 (R612). -/
def Dev.foxglove (f : Chip → Chip) (d : Dev) : Dev :=
  let d1 := d.chipOp f
  if d.chip.fgState ≠ 3 ∧ d1.chip.fgState = 3 then d1.resetSource 4 false else d1

def execFgSupplyFault (osc : Bool) (s : State) : Host.Outcome State Fault Refusal :=
  s.onDev (Dev.foxglove (Chip.fgMonitor osc))

def execXchkTimeout (g : BitVec 16) (s : State) : Host.Outcome State Fault Refusal := s.onDev (Dev.foxglove (Chip.fgCross g))

def execCopyCompare (s : State) : Host.Outcome State Fault Refusal := s.onDev (Dev.foxglove Chip.copyCompare)

def execSealCopyDone (s : State) : Host.Outcome State Fault Refusal := s.onDev (Dev.foxglove Chip.sealCopied)

/-- A write of RST_PEER (R612): PEER_RST_OUT is high for 10 µs from then. -/
def Chip.peerPulse (v : Word) (c : Chip) : Chip :=
  if fld v 31 16 ≠ 0x5E75 then c.err pgRST 0x01 0
  else if bit v 0 then c.pwrDo (fun p => { p with peerAt := some c.now })
  else c

def execPeerResetPulse (v : Word) (s : State) : Host.Outcome State Fault Refusal := s.onChip (Chip.peerPulse v)

/-! Programming fuses (R621). -/

/-- A write of FUSE_PGM_CMD. -/
def Chip.fuseProgram (v : Word) (c : Chip) : Chip :=
  if fld v 31 16 ≠ 0xF05E then c.err pgFUSE 0x01 0
  else if bit v 0 then c.wrb Reg.FUSE_PGM_STAT 0 true
  else c

def execFuseProgram (v : Word) (s : State) : Host.Outcome State Fault Refusal := s.onChip (Chip.fuseProgram v)

/-- The bits of one copy of a word are blown. -/
def Chip.blow (c : Chip) (k : Nat) (v : Word) : Chip :=
  c.pwrDo (fun p => { p with blown := put p.blown k (look 0 p.blown k ||| v) })

/-- The attempt ends; which bits an attempt that fails has blown in each copy is a free value. -/
def Chip.fuseProgramDone (ok : Bool) (c : Chip) : Chip :=
  if c.rdb Reg.FUSE_PGM_STAT 0 then
    let w := c.rdf Reg.FUSE_PGM_ADDR 3 0
    let v := c.rd Reg.FUSE_PGM_DATA
    let c1 :=
      if 12 ≤ w then c
      else if ok then (c.blow w v).blow (16 + w) v
      else ((c.freeNext.freeNext).blow w (v &&& c.freeNow 32)).blow (16 + w) (v &&& c.freeNext.freeNow 32)
    (c1.wrf Reg.FUSE_PGM_STAT 1 0 (2 * b2n (!ok))).irq pgFUSE 0
  else c

def execFuseProgramDone (ok : Bool) (s : State) : Host.Outcome State Fault Refusal := s.onChip (Chip.fuseProgramDone ok)

/-! Power states (R624 to R628). -/

/-- The Tick Unit is asked to stop (R34); before its first boundary it stops at once, and with it what is armed and the
loaded table (R225, R232, R236). -/
def Chip.tickStop (c : Chip) : Chip := if c.stopsAtOnce then c.tickStopReq.snapStop.dropTable else c.tickStopReq

/-- A write of CLKPWR_PSTATE (R625). -/
def Chip.powerRequest (v : Word) (c : Chip) : Chip :=
  let r := fld v 1 0
  if 2 ≤ r ∧ fld v 31 16 ≠ 0x9A17 then c.err pgCLKPWR 0x01 0
  else if c.rdb Reg.CLKPWR_PSTAT 2 then c.err pgCLKPWR 0x02 0
  else
    let c1 := c.wr Reg.CLKPWR_PSTATE (word r)
    if r = c.pstate then c1.irq pgCLKPWR 0
    else
      let c2 := (c1.wrb Reg.CLKPWR_PSTAT 2 true).pwrDo (fun p => { p with entry := some r })
      if r = 0 then forUpTo 2 (fun k c => c.dramWake k 1) c2
      else forUpTo 2 (fun k c => c.dramSleep k 1) c2.tickStop

def execPowerStateRequest (v : Word) (s : State) : Host.Outcome State Fault Refusal := s.onChip (Chip.powerRequest v)

/-- A table of `n` free values from counter `f` on. -/
def freeTable (w n f : Nat) : Tbl (BitVec w) := (List.range n).map (fun i => (i, Config.freeBits w (f + i)))

/-- A core whose registers are undefined (R169). -/
def coreLost (f : Nat) : CoreSt :=
  { coreReset with
    d := freeTable 32 64 f, a := freeTable 80 8 (f + 64), p := freeTable 32 16 (f + 72)
    m := freeTable 32 16 (f + 88), b := freeTable 32 8 (f + 104), l := freeTable 32 8 (f + 112)
    loops := (List.range 2).map (fun i => (i, { loopReset with count := Config.freeBits 16 (f + 120 + i) }))
    estat := Config.freeBits 32 (f + 122), epc := Config.freeBits 32 (f + 123)
    cause := Config.freeBits 32 (f + 124), badaddr := Config.freeBits 32 (f + 125) }

/-- A queue whose descriptor is undefined (R124). -/
def queueLost (f q : Nat) : Queue :=
  let g := f + 4 * q
  { queueReset with
    d0 := Config.freeBits 32 g &&& 0xF7FFF, d1 := Config.freeBits 32 (g + 1) &&& 0xFF0F_FF0F
    d2 := Config.freeBits 32 (g + 2) &&& 0x37F_FFFF, d3 := Config.freeBits 32 (g + 3) &&& 0x3DFF_FFE0 }

/-- What the loss of the main rails leaves undefined beside the memories: descriptors, core registers, Shadow tables and
gate lists (R97, R124, R169, R270, R458). -/
def Chip.railsLost (c : Chip) : Chip :=
  let f := c.freeCtr
  { c with
    freeCtr := f + 0x8000
    qf := { qs := (List.range 1024).map (fun q => (q, queueLost f q)) }
    cores := (List.range 34).map (fun k => (k, coreLost (f + 0x1000 + 128 * k)))
    patch := { c.patch with shadow := (freeTable 32 0x1000 (f + 0x3000)).filterMap (fun e =>
      if sinkExists e.1 then some (e.1, e.2 &&& 0x3_0FFF) else none) }
    dmix := { c.dmix with shadow := freeTable 32 0x800 (f + 0x4000) }
    eth := (List.range 4).map (fun p => (p, { ethReset with gates := freeTable 32 1024 (f + 0x5000 + 1024 * p) })) }

/-- The main rails fall (R97, R625): Bank Memory, the local memories, Queue RAM and packet memory lose their contents, and
the unpowered pages come back with their Reset values. -/
def Dev.mainDown (d : Dev) : Dev :=
  let d1 := ((d.undefine 0x2000_0000 0x200_0000).undefine 0x3000_0000 0x20_0000)
  let d2 := (d1.undefine 0x4000_0000 0x220_0000).undefine 0x6200_0000 0x40_0000
  let keep := d2.chip.regs.filter (fun e => decide (Reg.ETH0_WAKE_CFG ≤ e.1) && pageOf e.1 == pgETH 0)
  let d3 := (((d2.resetMatrix.resetEngine).resetBank).chipOp Chip.resetBlocks).chipOp Chip.railsLost
  d3.chipOp (fun c => keep.foldl (fun c e => c.wr e.1 e.2) c)

/-- In Dormant the island rails fall too: Foxglove and the DRAM are unpowered (R557, R608). -/
def Dev.islandDown (d : Dev) : Dev :=
  let d1 := ((d.dramLose 0).dramLose 1).chipOp (fun c =>
    let c1 := forUpTo 2 (fun k c => { c.resetPage (pgDRAM k) with dram := drop (· == k) c.dram }) c
    c1.resetPage (pgETH 0))
  d1.chipOp Chip.fgChipReset

/-- The entry of Listen or Dormant is complete; a wake latched on the way ends it at once (R625, R626). -/
def Dev.sleep (r : Nat) (d : Dev) : Dev :=
  let latched := d.chip.pwr.latched
  let d1 := (d.chipOp (fun c => forUpTo 2 (fun k c => if c.dramLive k then c.selfrefEnter k 4 else c) c.fgHold)).mainDown
  let d2 := if r = 3 then d1.islandDown else d1
  let d3 := d2.chipOp (fun c =>
    (c.wrf Reg.CLKPWR_PSTAT 2 0 r).pwrDo (fun p => { p with main := false, isl := r != 3, entry := none, latched := [] }))
  match latched with
  | [] => d3
  | s :: t => d3.chipOp (fun c => c.pwrDo (fun p =>
      { p with main := true, isl := true, waiting := some (if (s :: t).contains 1 then 1 else if r = 3 then 12 else 11) }))

/-- A transition completes (R625): Quiet once the Tick Unit has stopped and the DRAM is in self-refresh, Run once the DRAM
has left it. -/
def Dev.pstateDone (d : Dev) : Dev :=
  let c := d.chip
  let quiet := !c.tick.on && [0, 1].all (fun k => (c.dramSt k).want == 0)
  let awake := [0, 1].all (fun k => !(c.dramState k == 4 && (c.dramSt k).go))
  let finish (r : Nat) : Dev := d.chipOp (fun c =>
    ((c.wrf Reg.CLKPWR_PSTAT 2 0 r).irq pgCLKPWR 0).pwrDo (fun p => { p with entry := none }))
  match c.pwr.entry with
  | none => d
  | some 0 => if awake then finish 0 else d
  | some 1 => if quiet then (finish 1).chipOp Chip.mecsQuiet else d
  | some r => if quiet then d.sleep r else d

def execPstateDone (s : State) : Host.Outcome State Fault Refusal := s.onDev Dev.pstateDone

/-- WAKE_N (R627, R628). -/
def Chip.wakePin (c : Chip) : Chip := c.wake 0 (if c.pstate = 3 ∨ c.pwr.entry = some 3 then 12 else 11)

def execWakePin (s : State) : Host.Outcome State Fault Refusal := s.onChip Chip.wakePin

/-- PWRGOOD rises: POR releases, or the sequence of a wake starts (R627, R628, R652); in Run it is ignored. -/
def Dev.pwrgood (d : Dev) : Dev :=
  match d.chip.pwr.waiting with
  | none => d
  | some 0 => d.chipOp (fun c => c.pwrDo (fun p => { p with waiting := none, seq := if c.heldAt 0 then 0 else 1 }))
  | some 11 => d.resetAssert 11 1 false
  | some s => d.resetAssert s 0 (d.chip.pwr.held.contains s)

def execPwrgoodRise (s : State) : Host.Outcome State Fault Refusal := s.onDev Dev.pwrgood

/-- PWRGOOD has not risen in 50 ms (R652): both enables fall, and the sequence repeats 1 s later, which leaves them high
and PWRGOOD awaited. -/
def Dev.pwrgoodLate (d : Dev) : Dev :=
  if d.chip.pwr.waiting.isSome then d.islandDown.chipOp (fun c => c.pwrDo (fun p => { p with main := true, isl := true }))
  else d

def execPwrgoodTimeout (s : State) : Host.Outcome State Fault Refusal := s.onDev Dev.pwrgoodLate

/-- A reading of the die temperature (R638). -/
def Chip.tempReading (t : BitVec 16) (c : Chip) : Chip :=
  let thr := fldS (c.rd Reg.SYS_TEMP_WARN) 15 0
  let up := decide (fldS (c.rd Reg.SYS_TEMP) 15 0 < thr) && decide (thr ≤ t.toInt)
  (c.wr Reg.SYS_TEMP (t.setWidth 32)).irqIf up pgSYS 0

def execTempReading (t : BitVec 16) (s : State) : Host.Outcome State Fault Refusal := s.onChip (Chip.tempReading t)

end Sys2Proof.Machine
end

