-- ==== Sys2Proof/Machine/Boot.lean ====
section
/-! DEFINITION. The Boot ROM (R629 to R634), the mailboxes of the Host Port (R635) and the BOOTQ page (R639). -/

namespace Sys2Proof.Machine

/-! The image (R630). -/

/-- The little-endian word at offset `o` of an image. -/
def imgWord (l : List Byte) (o : Nat) : Nat := leAt l o 4

/-- NSEG, SIGNED, and the bytes before the payloads. -/
def imgSegs (l : List Byte) : Nat := imgWord l 4 / 2 ^ 16 % 32
def imgSigned (l : List Byte) : Bool := (imgWord l 4).testBit 8
def imgHeader (l : List Byte) : Nat := 32 + 16 * imgSegs l + 64 * b2n (imgSigned l)

/-- A segment: its destination, its length, its CRC. -/
def imgDest (l : List Byte) (i : Nat) : Nat := imgWord l (0x20 + 16 * i) + imgWord l (0x24 + 16 * i) % 256 * 2 ^ 32
def imgLen (l : List Byte) (i : Nat) : Nat := imgWord l (0x28 + 16 * i)
def imgCrc (l : List Byte) (i : Nat) : Nat := imgWord l (0x2C + 16 * i)

/-- The bytes of the first `n` payloads. -/
def imgBytes (l : List Byte) (n : Nat) : Nat := (List.range n).foldl (fun a i => a + imgLen l i) 0

/-- Where the header area begins (R629). -/
def headerArea : Nat := 0x21FF_0000

/-- Whether `n` bytes from `a` on lie in one of the places a segment may go to (R631, R46). -/
def bootPlace (a n : Nat) : Bool :=
  let within (lo len : Nat) : Bool := lo ≤ a && a + n ≤ lo + len
  let o := a % 0x10_0000
  within 0x2000_0000 (headerArea - 0x2000_0000) || within 0x4210_0000 0x4_0000 ||
    (0x4000_0000 ≤ a && a < 0x4200_0000 &&
      (o + n ≤ 0x1_0000 || (0x2_0000 ≤ o && o + n ≤ 0x3_8000) || (0x4_0000 ≤ o && o + n ≤ 0x5_8000) ||
        (0x6_0000 ≤ o && o + n ≤ 0x7_0000)))

/-- Whether two segments share a byte. -/
def imgOverlap (l : List Byte) (i j : Nat) : Bool :=
  let a := imgDest l i
  let b := imgDest l j
  decide (a < b + imgLen l j) && decide (b < a + imgLen l i)

/-- Checks 2 and 3 of R631: 0, or the status of the first that fails (R634). -/
def imgCheck (l : List Byte) : Nat :=
  let n := imgSegs l
  if imgWord l 0 ≠ 0xAE72_4001 ∨ imgWord l 4 % 256 ≠ 1 then 0x01
  else if n = 0 ∨ 16 < n ∨ (crc32 (l.take 16 ++ (l.drop 32).take (16 * n))).toNat ≠ imgWord l 0x10 ∨
      imgWord l 0x0C ≠ imgHeader l + imgBytes l n then 0x02
  else if (List.range n).any (fun i => imgLen l i % 4 != 0 || !bootPlace (imgDest l i) (imgLen l i)) ||
      (List.range n).any (fun i => (List.range i).any (fun j => imgOverlap l i j)) then 0x05
  else 0

/-- The payload of segment `i` in an image. -/
def imgPayload (l : List Byte) (i : Nat) : List Byte := (l.drop (imgHeader l + imgBytes l i)).take (imgLen l i)

/-- The bytes at a destination. -/
def Dev.imgPlaced (d : Dev) (l : List Byte) (i : Nat) : List Byte := d.mem.bytes (imgDest l i) (imgLen l i)

/-- Check 4: the payloads are loaded in order, unless the host has placed them, and their CRCs checked; the flag tells
that all passed. -/
def Dev.imgLoad (placed : Bool) (l : List Byte) (d : Dev) : Bool × Dev :=
  (List.range (imgSegs l)).foldl (fun x i =>
    if !x.1 then x
    else
      let d1 := if placed then x.2 else { x.2 with mem := x.2.mem.setBytes (imgDest l i) (imgPayload l i) }
      ((crc32 (d1.imgPlaced l i)).toNat == imgCrc l i, d1)) (true, d)

/-- Check 5: 0, or the status of the failure. The signature covers the image without it, read back. -/
def Dev.imgVerify (d : Dev) (l : List Byte) : Nat :=
  let h := 32 + 16 * imgSegs l
  if !d.chip.rdb Reg.FUSE_BOOT 0 then 0
  else if !imgSigned l then 0x07
  else
    let key := (List.range 8).flatMap (fun w => wordBytes (d.chip.rd (Reg.FUSE_KEY w)))
    let msg := l.take h ++ (List.range (imgSegs l)).flatMap (fun i => d.imgPlaced l i)
    if Config.ed25519 key msg ((l.drop h).take 64) then 0 else 0x04

/-- The image is checked and loaded (R631): the status and the device. -/
def Dev.imgRun (placed : Bool) (l : List Byte) (d : Dev) : Nat × Dev :=
  let e := imgCheck l
  if e ≠ 0 then (e, d)
  else
    let (ok, d1) := d.imgLoad placed l
    if !ok then (0x03, d1) else (d1.imgVerify l, d1)

/-! The attempt. -/

/-- What the ROM is at. -/
def Chip.boot (c : Chip) : BootSt := c.pwr.boot
def Chip.setBoot (c : Chip) (b : BootSt) : Chip := c.pwrDo (fun p => { p with boot := b })

/-- The boot source as SYS_BOOT.SEL selects it: 0 QSPI, 1 Host Port, 2 STM0, 3 ETH0. -/
def Chip.bootSel (c : Chip) : Nat := c.rdf Reg.SYS_BOOT 2 0

/-- An attempt ends with a status (R632, R634): QSPI turns to its second copy, or stops after it; the others wait for a
new image. -/
def Chip.bootFail (c : Chip) (status : Nat) : Chip :=
  let c1 := c.wrf Reg.SYS_BOOT 15 8 status
  if c.bootSel ≠ 0 then c1.setBoot { bootReset with waits := true }
  else if c.boot.copy2 then c1.setBoot { bootReset with copy2 := true }
  else (c1.wrb Reg.SYS_BOOT 3 true).setBoot { bootReset with waits := true, copy2 := true }

/-- SYS_CTRL.REMAP takes a value: Steward caches are invalid, and REMAP = 1 ends the Plain Mode of boot (R48, R163,
R299). -/
def Chip.remap (v : Word) (c : Chip) : Chip :=
  let c1 := (c.wr Reg.SYS_CTRL (v &&& 1)).icacheInvalidate 32 |>.icacheInvalidate 33
  if bit v 0 then c1.curBoot false else c1

/-- Hand-off (R633): SYS_BOOT, REMAP, and ST0 at core address 0, in supervisor mode with LZ = 0, its cache and its watchdog
off. The contents of ST0 local memory and of the header area are undefined. -/
def Dev.bootPass (isSigned : Bool) (d : Dev) : Dev :=
  let d1 := (d.undefine 0x4200_0000 0x4_0000).undefine headerArea 0x1_0000
  d1.chipOp (fun c =>
    let c1 := ((c.wrb Reg.SYS_BOOT 4 isSigned).wrf Reg.SYS_BOOT 15 8 0).remap 1
    let c2 := (c1.wr (Reg.ST_CFG 0) 0).wr (Reg.ST_WDOG_CFG 0) 0
    ((c2.setCore 32 { (c2.core 32).begin 0 with status := 1 }).setCoreState 32 1).setBoot
      { bootReset with copy2 := c.boot.copy2 })

/-- The ROM has the image `l`: it runs the checks and hands off or fails. Nothing happens while bytes of it are still to
come. -/
def Dev.bootImage (placed : Bool) (l : List Byte) (d : Dev) : Dev :=
  if l.length < 32 + 16 * imgSegs l ∨ (imgCheck l = 0 ∧ !placed ∧ l.length < imgWord l 0x0C) then d
  else
    let d0 := { d with mem := d.mem.setBytes headerArea (l.take (imgHeader l)) }
    let (e, d1) := (if placed then d else d0).imgRun placed l
    if e = 0 then d1.bootPass (imgSigned l) else d1.chipOp (·.bootFail e)

/-- The bytes of the chunks received in order. -/
def BootSt.image (b : BootSt) : List Byte := b.chunks.flatMap (fun e => e.2)

/-- BOOT_LOAD (R629, R631, R632): from the flash bytes of the copy in turn, from the image that the host has placed once
it has pushed the word 1, or from the chunks received. -/
def Dev.bootLoad (flash : List Byte) (d : Dev) : Dev :=
  let c := d.chip
  if !c.boot.waits then d
  else match c.bootSel with
    | 0 => d.bootImage false flash
    | 1 =>
      match c.pwr.mboxIn with
      | w :: t =>
        let d1 := d.chipOp (·.pwrDo (fun p => { p with mboxIn := t }))
        if w = 1 then d1.bootImage true (d.mem.bytes headerArea (32 + 16 * 16 + 64)) else d1
      | [] => d
    | _ => d.bootImage false c.boot.image

def execBootLoad (flash : List Byte) (s : State) : Host.Outcome State Fault Refusal := s.onDev (Dev.bootLoad flash)

/-- A boot chunk from STM0 (4 KiB) or ETH0 (1,024 bytes): the one whose index is expected next is stored (R632). -/
def Chip.bootChunk (k : BootChunk) (c : Chip) : Chip :=
  let b := c.boot
  let size := if c.bootSel = 2 then 4096 else 1024
  if b.waits && (c.bootSel == 2 || c.bootSel == 3) && k.good && k.index == word b.next && k.bytes.length == size then
    c.setBoot { b with chunks := put b.chunks b.next k.bytes, next := b.next + 1 }
  else c

def execBootChunk (c : BootChunk) (s : State) : Host.Outcome State Fault Refusal := s.onChip (Chip.bootChunk c)

/-- Every 100 µs the ROM sends the index it expects next (R632). -/
def Chip.bootAck (c : Chip) : Chip :=
  let b := c.boot
  if b.waits && (c.bootSel == 2 || c.bootSel == 3) then (c.setBoot { b with acks := b.acks + 1 }).ret (word b.next) else c

def execBootAck (s : State) : Host.Outcome State Fault Refusal := s.onChip Chip.bootAck

/-- The source delivers no byte for 1 s (R632). -/
def Chip.bootTimeout (c : Chip) : Chip := if c.boot.waits then c.bootFail 0x06 else c

def execBootSourceTimeout (s : State) : Host.Outcome State Fault Refusal := s.onChip Chip.bootTimeout

/-! The mailboxes of the Host Port (R635, R639). -/

/-- The Host Port answers while CTRL.EN = 1 (R637). -/
def Chip.hostOn (c : Chip) : Bool := c.en pgHOST

/-- One word pushed by the host; a full mailbox drops it and ERR is set. -/
def Chip.mboxPush (c : Chip) (w : Word) : Chip :=
  if 16 ≤ c.pwr.mboxIn.length then c.pwrDo (fun p => { p with hostErr := true })
  else (c.pwrDo (fun p => { p with mboxIn := p.mboxIn ++ [w] })).irq pgHOST 0

def execHostMboxPush (ws : List Word) (s : State) : Host.Outcome State Fault Refusal :=
  s.onChip (fun c => if c.hostOn then ws.foldl Chip.mboxPush c else c)

/-- One word popped by the host, after 0xA5, or 0x5A and zero when empty: MBOX_OUT_EMPTY when it was the last. -/
def Chip.mboxPop (c : Chip) : Chip :=
  match c.pwr.mboxOut with
  | [] => { c.ret 0 with rwords := c.rwords ++ [0x5A, 0] }
  | w :: t =>
    let c1 := ((c.pwrDo (fun p => { p with mboxOut := t })).irqIf t.isEmpty pgHOST 1).ret w
    { c1 with rwords := c1.rwords ++ [0xA5, w] }

def execHostMboxPop (n : Nat) (s : State) : Host.Outcome State Fault Refusal :=
  s.onChip (fun c => if c.hostOn then forUpTo n (fun _ c => c.mboxPop) { c with rwords := [] } else c)

/-- The status byte: every write of the Host Port has its response within its command, so BUSY reads 0 (log entry 11). -/
def Chip.hostStatus (c : Chip) : Chip :=
  (c.pwrDo (fun p => { p with hostErr := false })).ret
    (word (2 * b2n c.pwr.hostErr + 4 * b2n (decide (16 ≤ c.pwr.mboxIn.length)) + 8 * b2n (!c.pwr.mboxOut.isEmpty)))

def execHostReadStatus (s : State) : Host.Outcome State Fault Refusal :=
  s.onChip (fun c => if c.hostOn then c.hostStatus else c)

/-- A read of HOST_MBOX_IN. -/
def Chip.mboxInRead (c : Chip) : Chip :=
  match c.pwr.mboxIn with
  | [] => c.ret 0
  | w :: t => (c.pwrDo (fun p => { p with mboxIn := t })).ret w

def execMboxInRead (s : State) : Host.Outcome State Fault Refusal := s.onChip Chip.mboxInRead

/-- A write of HOST_MBOX_OUT. -/
def Chip.mboxOutWrite (v : Word) (c : Chip) : Chip :=
  if 16 ≤ c.pwr.mboxOut.length then c.irq pgHOST 2
  else c.pwrDo (fun p => { p with mboxOut := p.mboxOut ++ [v] })

def execMboxOutWrite (v : Word) (s : State) : Host.Outcome State Fault Refusal := s.onChip (Chip.mboxOutWrite v)

/-! BOOTQ (R639). -/

/-- BUSY of the QSPI controller, and whether its transfer writes. -/
def Chip.qspiBusy (c : Chip) : Bool := c.rdb Reg.BOOTQ_STAT 0
def Chip.qspiWrites (c : Chip) : Bool := c.qspiBusy && c.rdb Reg.BOOTQ_XFER 9

/-- A write of BOOTQ_XFER. -/
def Chip.bootqXfer (v : Word) (c : Chip) : Chip :=
  if bit v 16 && c.qspiBusy then c.err pgBOOTQ 0x01 0
  else
    let c1 := c.wr Reg.BOOTQ_XFER (v &&& 0xFFFF)
    if !bit v 16 then c1
    else if fld v 11 10 = 3 then c1.err pgBOOTQ 0x02 0
    else if c.en pgBOOTQ then c1.wrb Reg.BOOTQ_STAT 0 true
    else c1

def execBootqXfer (v : Word) (s : State) : Host.Outcome State Fault Refusal := s.onChip (Chip.bootqXfer v)

/-- The words of a transfer. -/
def Chip.qspiWords (c : Chip) : Nat := ceilDiv (c.rdf Reg.BOOTQ_LEN 23 0) 4

/-- The transfer is complete: a read has brought its words into the FIFO, past its depth as the words are popped; a write
has taken its words from it, and waits while they are not there. -/
def Chip.bootqDone (data : List Word) (c : Chip) : Chip :=
  let n := c.qspiWords
  let fin (l : List Word) : Chip :=
    ((c.pwrDo (fun p => { p with bootq := l })).wrb Reg.BOOTQ_STAT 0 false).irq pgBOOTQ 0
  if !c.qspiBusy then c
  else if c.rdb Reg.BOOTQ_XFER 9 then (if n ≤ c.pwr.bootq.length then fin (c.pwr.bootq.drop n) else c)
  else fin (c.pwr.bootq ++ (data ++ List.replicate n 0).take n)

def execBootqXferDone (data : List Word) (s : State) : Host.Outcome State Fault Refusal := s.onChip (Chip.bootqDone data)

/-- A read of BOOTQ_DATA; what an empty FIFO returns is a free value. -/
def Chip.bootqRead (c : Chip) : Chip :=
  match c.pwr.bootq with
  | [] => c.freeNext.ret (c.freeNow 32)
  | w :: t => (c.pwrDo (fun p => { p with bootq := t })).ret w

def execBootqDataRead (s : State) : Host.Outcome State Fault Refusal := s.onChip Chip.bootqRead

/-- A write of BOOTQ_DATA. A word that overfills the FIFO, which no transfer empties, leaves its contents undefined
(R286): free values. -/
def Chip.bootqWrite (v : Word) (c : Chip) : Chip :=
  if 64 ≤ c.pwr.bootq.length && !c.qspiWrites then
    { c.pwrDo (fun p => { p with bootq := (freeTable 32 64 c.freeCtr).map (·.2) }) with freeCtr := c.freeCtr + 64 }
  else c.pwrDo (fun p => { p with bootq := p.bootq ++ [v] })

def execBootqDataWrite (v : Word) (s : State) : Host.Outcome State Fault Refusal := s.onChip (Chip.bootqWrite v)

/-- BOOTQ_STAT, HOST_MBOX_LEVEL (R639). -/
def Chip.bootqStat (c : Chip) : Word := word (b2n c.qspiBusy + min 64 c.pwr.bootq.length * 256)
def Chip.mboxLevel (c : Chip) : Word := word (c.pwr.mboxIn.length + c.pwr.mboxOut.length * 0x1_0000)

/-- The level of a Courier request line (R285): BOOTQ, HOST, CB0, Iris, Jack Sense; 8 to 31 are reserved. -/
def Chip.reqLine (c : Chip) (r : Nat) : Bool :=
  match r with
  | 0 => 8 ≤ c.pwr.bootq.length
  | 1 => c.pwr.bootq.length ≤ 56
  | 2 => 4 ≤ c.pwr.mboxIn.length
  | 3 => c.pwr.mboxOut.length ≤ 12
  | 4 => c.cb0RxLine
  | 5 => c.cb0TxLine
  | 6 => c.irisLine
  | 7 => 8 ≤ c.jack.raws.length
  | _ => false

end Sys2Proof.Machine
end

