-- ==== Sys2Proof/Machine/Fabric.lean ====
section
/-! DEFINITION. The register fabric: reads and writes of register pages (R7 to R9, R52 to R59), the header's requests,
and the BLOCK reset (R619). A key is the page number times 0x1000 plus the offset (R52). -/

namespace Sys2Proof.Machine

/-! Idle requests (R55, R56). -/

/-- Whether core `k` is idle: not running, no remote access outstanding (R170, R172). -/
def Chip.coreIdle (c : Chip) (k : Nat) : Bool :=
  let s := c.coreState k
  (s == 0 || s == 2 || s == 4) && (c.core k).orphans.isEmpty

/-- Whether the block of a page is in a state in which it acknowledges an idle request (each page's own rule). -/
def Chip.idleReady (c : Chip) (p : Nat) : Bool :=
  match pageKind p with
  | some (.tickP, _) => !c.tick.on
  | some (.bankP, _) => !c.bank.bist && c.bank.reqs.all (fun e => e.2.trans.isNone && e.2.ready.isNone)
  | some (.snapP, _) => c.snap.flip.isNone && c.snap.glide.isNone && c.glideBusy == 0
  | some (.patchP, _) =>
    (List.range 128).all (fun i => !epEn (c.rd (Reg.PATCH_EIP_CFG i)) && !epEn (c.rd (Reg.PATCH_EOP_CFG i)))
  | some (.curP, n) => (List.range 8).all (fun i => c.chanStopped (8 * n + i))
  | some (.mecP, m) => c.coreIdle m
  | some (.stP, n) => c.coreIdle (32 + n)
  | some (.irisP, _) => !c.irisRuns
  | some (.cb0P, _) => !c.cb0.onLine
  | some (.spkP, n) => c.spkState n == 0 || c.spkState n == 1 || c.spkState n == 7
  | some (.dramP, k) => c.dramState k == 4 || c.dramState k == 0
  | some (.mgldP, _) => c.mgld.begun.isNone
  | some _ => true
  | none => false

/-- Whether a block that is ready acknowledges at the request itself; the others do at the end of a block, a frame or a
record (R355, R428, R501, R590). -/
def Chip.idleAtOnce (c : Chip) (p : Nat) : Bool :=
  match pageKind p with
  | some (.sapP, n) => !c.en p || !(c.sapMaster n || c.rdb (Reg.SAP_LINK n) 0)
  | some (.laneP, _) | some (.stmP, _) => !c.en p
  | _ => true

/-- STAT.IDLE_ACK rises (R56). -/
def Chip.ackIdle (c : Chip) (p : Nat) : Chip := c.wrb (Reg.STAT p) 1 true

/-- CTRL.IDLE_REQ is written 1 (R55). -/
def Dev.idleBegin (p : Nat) (d : Dev) : Dev :=
  let d1 := d.chipOp (fun c => c.wrb (Reg.CTRL p) 2 true)
  let d2 := match pageKind p with
    | some (.qfP, _) => d1.qfCtrl
    | some (.dramP, k) => d1.chipOp (fun c => c.dramSleep k 5)
    | _ => d1
  d2.chipOp (fun c => if c.idleReady p && c.idleAtOnce p then c.ackIdle p else c)

/-- CTRL.IDLE_REQ is written 0: IDLE_ACK returns to 0. -/
def Dev.idleEnd (p : Nat) (d : Dev) : Dev :=
  let d1 := d.chipOp (fun c => (c.wrb (Reg.CTRL p) 2 false).wrb (Reg.STAT p) 1 false)
  match pageKind p with
  | some (.qfP, _) => d1.qfCtrl
  | some (.dramP, k) => d1.chipOp (fun c => c.dramWake k 5)
  | _ => d1

/-! BLOCK resets (R619). -/

/-- The master port of a block (R309), which a reset of the block drains (R320). -/
def blockPort : PageKind → Nat → Option Nat
  | .mecP, m => some (m / 8)
  | .stP, n => some (4 + n)
  | .curP, n => some (6 + n)
  | .ethP, p => some (ethPort p)
  | .mgldP, _ => some 12
  | .hostP, _ => some 13
  | _, _ => none

/-- The pages whose SRST has no effect (R551, R558, R619). -/
def blockFixed : PageKind → Bool
  | .sysP | .rstP | .clkpwrP | .fuseP | .fgP => true
  | _ => false

/-- What a BLOCK reset of a page resets, by the chapter of the block. -/
def Dev.blockClear (pk : PageKind) (i : Nat) (d : Dev) : Dev :=
  match pk with
  | .hubP => d.chipOp Chip.resetHub
  | .mtxP => d.chipOp Chip.resetMtxPage
  | .bankP => d.resetBank
  | .qfP => d.resetQueues
  | .tickP => d.chipOp Chip.resetTick
  | .snapP => d.chipOp (Chip.resetSnap true)
  | .patchP => d.chipOp Chip.resetPatch
  | .dmixP => d.chipOp Chip.resetDmix
  | .dramP => d.chipOp (Chip.resetDram i)
  | .asterP => d.chipOp Chip.resetAster
  | .tbP => d.chipOp Chip.resetTb
  | .jackP => d.chipOp Chip.resetJack
  | .stP => (d.remoteCut (32 + i)).chipOp (fun c => (c.abandonWait (32 + i)).resetCore (32 + i))
  | .hostP => d.chipOp Chip.resetHost
  | .bootqP => d.chipOp Chip.resetBootq
  | .guardP => d.chipOp Chip.guardSrst
  | .curP => d.chipOp (fun c => (forUpTo 8 (fun j c => c.chanUnwait (8 * i + j)) c).resetCur true i)
  | .sapP => d.chipOp (Chip.resetSap i)
  | .aesP => d.chipOp (Chip.resetAes i)
  | .asrcP => d.chipOp Chip.resetAsrc
  | .mecP => (d.remoteCut i).chipOp (fun c => (c.abandonWait i).resetCore i)
  | .laneP => d.chipOp (fun c => c.laneDo i (Chip.resetLane i))
  | .irisP => d.chipOp Chip.resetIris
  | .ethP => d.chipOp (Chip.resetEth i true)
  | .strmP => d.chipOp Chip.resetStrm
  | .cb0P => d.chipOp Chip.resetCb0
  | .stmP => d.chipOp (Chip.resetStem i)
  | .mgldP => d.chipOp Chip.resetMgld
  | .spkP => d.chipOp (Chip.resetSpk i)
  | .spkcP => d.chipOp (fun c => c.resetPage pgSPKC)
  | .sysP | .rstP | .clkpwrP | .fuseP | .fgP => d

/-- The phase of a page's BLOCK reset: 0 none, 1 idle request, 2 reset. -/
def Chip.blkPhase (c : Chip) (p : Nat) : Nat := look 0 c.pwr.blk p
def Chip.setBlk (c : Chip) (p v : Nat) : Chip := c.pwrDo (fun s => { s with blk := put s.blk p v })

/-- The block is reset, with or without IDLE_ACK; its master port starts to drain (R320, R619). -/
def Dev.blockReset (forced : Bool) (p : Nat) (d : Dev) : Dev :=
  match pageKind p with
  | none => d
  | some (pk, i) =>
    let port := blockPort pk i
    let busy := port.any d.chip.portBusy
    let d1 := d.chipOp (fun c =>
      let c1 := (c.setBlk p 2).wr Reg.RST_BLK_LAST (word (p + 256 * b2n forced + 512 * b2n busy))
      if forced then
        (c1.wr Reg.RST_FORCED_COUNT (satInc (c1.rd Reg.RST_FORCED_COUNT))).irq pgRST 0
      else c1)
    let d2 := (d1.blockClear pk i).chipOp Chip.hubFalls
    match port with
    | some m => d2.chipOp (Chip.startDrain m)
    | none => d2

/-- A write of CTRL.SRST (R619): the idle request of the block; after the seal GUARD refuses it (R551). -/
def Dev.blockRequest (p : Nat) (d : Dev) : Dev :=
  match pageKind p with
  | none => d
  | some (pk, i) =>
    if blockFixed pk || d.chip.blkPhase p != 0 then d
    else if pk = .guardP ∧ d.chip.sealed then d.chipOp Chip.guardSrst
    else
      let d1 := d.chipOp (fun c => c.setBlk p 1)
      let d2 := if pk = .dramP then d1.chipOp (fun c => c.dramSleep i 3) else d1
      if d2.chip.idleReady p && d2.chip.idleAtOnce p then d2.blockReset false p else d2

/-- The block becomes idle: IDLE_ACK rises, and a BLOCK reset that waits for it goes on. -/
def Dev.idleAcked (p : Nat) (d : Dev) : Dev :=
  if !d.chip.idleReady p then d
  else
    let d1 := if d.chip.idleReq p then d.chipOp (fun c => c.ackIdle p) else d
    if d1.chip.blkPhase p = 1 then d1.blockReset false p else d1

/-- The timeout expires without IDLE_ACK: the block is reset as forced. -/
def Dev.blockTimeout (p : Nat) (d : Dev) : Dev := if d.chip.blkPhase p = 1 then d.blockReset true p else d

/-! The header (R54 to R59). -/

/-- CTRL.EN of a page is written (each page's own rule). PAIR_ROLE is at the pin: a free value here. -/
def Dev.enWrite (pk : PageKind) (i p : Nat) (on : Bool) (d : Dev) : Dev :=
  let plain (c : Chip) : Chip := c.wrb (Reg.CTRL p) 0 on
  if pageEnFixed pk then d
  else match pk with
  | .tickP => d.chipOp (if on then Chip.tickStart else Chip.tickStop)
  | .qfP => (d.chipOp plain).qfCtrl
  | .sapP => d.chipOp (fun c => if on then c.sapEnable i else if c.en p then c.sapDisable i else c)
  | .aesP => d.chipOp (fun c => if on then c.aesEnable i else if c.en p then c.aesDisable i else c)
  | .asrcP => d.chipOp (Chip.asrcEnable on)
  | .laneP => d.chipOp (fun c => if on then c.laneOn i else c.laneDo i (·.laneDisable i))
  | .ethP => d.chipOp (fun c => if on then c.ethEnable i else plain c)
  | .stmP => d.chipOp (fun c => if on then c.stemEnable i else c.stemDisable i)
  | .mgldP => d.chipOp (fun c => if on then c.freeNext.mgldEnable (c.freeNow 1 == 1) else c.mgldDisable)
  | .spkP => d.chipOp (Chip.spkEnable i on)
  | .mecP => d.chipOp (fun c => if on then plain c else (plain c).coreDisabled i)
  | .stP => d.chipOp (fun c => if on then plain c else (plain c).coreDisabled (32 + i))
  | _ => d.chipOp plain

/-- A write of CTRL (R55): FREEZE, IDLE_REQ and EN, then SRST (R669). -/
def Dev.ctrlWrite (pk : PageKind) (i p : Nat) (v : Word) (d : Dev) : Dev :=
  let d1 := d.chipOp (fun c => c.wrb (Reg.CTRL p) 3 (bit v 3))
  let d2 := if bit v 2 then (if d1.chip.idleReq p then d1 else d1.idleBegin p)
    else if d1.chip.idleReq p then d1.idleEnd p else d1
  let d3 := d2.enWrite pk i p (bit v 0)
  if bit v 1 then d3.blockRequest p else d3

/-- A write of IRQ_FORCE (R57): the flags that the page has. -/
def Chip.irqForce (pk : PageKind) (i p : Nat) (v : Word) (c : Chip) : Chip :=
  c.wr (Reg.IRQ_RAW p) (c.rd (Reg.IRQ_RAW p) ||| (v &&& pageIrqBits pk i))

/-- A write of ERR_CODE (R58): the record is cleared when CODE matches. -/
def Chip.errClear (p : Nat) (v : Word) (c : Chip) : Chip :=
  let code := c.rdf (Reg.ERR_CODE p) 7 0
  if code ≠ 0 ∧ fld v 7 0 = code then (c.wr (Reg.ERR_CODE p) 0).wr (Reg.ERR_INFO p) 0 else c

/-- A write to the header of a page. -/
def Dev.headerWrite (pk : PageKind) (i p o : Nat) (v : Word) (d : Dev) : Dev :=
  match o with
  | 0x008 => d.ctrlWrite pk i p v
  | 0x010 => d.chipOp (fun c => (c.wr (Reg.IRQ_RAW p) (c.rd (Reg.IRQ_RAW p) &&& ~~~v)).hubFalls)
  | 0x014 => d.chipOp (fun c => (c.wr (Reg.IRQ_MASK p) (v &&& pageIrqBits pk i)).hubFalls)
  | 0x01C => d.chipOp (Chip.irqForce pk i p v)
  | 0x020 => d.chipOp (Chip.errClear p v)
  | 0x028 =>
    if pk = .patchP ∨ pk = .dmixP then
      d.chipOp (fun c => c.wr (Reg.SHADOW_CTL p) ((c.rd (Reg.SHADOW_CTL p) &&& ~~~7) ||| (v &&& 7)))
    else d
  | _ => d

/-- STAT.BUSY, where a page defines it. -/
def Chip.busyFlag (c : Chip) (pk : PageKind) (i : Nat) : Bool :=
  let runs (k : Nat) : Bool := c.coreState k == 1 || c.coreState k == 3
  match pk with
  | .tickP => c.tick.on
  | .bankP => c.bank.bist || c.bank.reqs.any (fun e => e.2.trans.isSome)
  | .snapP => c.snap.flip.isSome || c.snap.glide.isSome || c.glideBusy != 0
  | .curP => (List.range 8).any (fun j => !c.chanStopped (8 * i + j))
  | .mecP => runs i
  | .stP => runs (32 + i)
  | _ => false

/-- STAT as it reads (R56). -/
def Chip.statView (c : Chip) (pk : PageKind) (i p : Nat) : Word :=
  let on := if pk = .tickP then c.tick.on else c.en p
  word (b2n on + 2 * b2n (c.idleAck p) + 4 * b2n (c.busyFlag pk i) + 8 * b2n (c.rdf (Reg.ERR_CODE p) 7 0 != 0))

/-- A read of the header of a page. -/
def Chip.headerRead (c : Chip) (pk : PageKind) (i p o : Nat) : Word :=
  match o with
  | 0x00C => c.statView pk i p
  | 0x018 => c.rd (Reg.IRQ_RAW p) &&& c.rd (Reg.IRQ_MASK p)
  | 0x01C => 0
  | _ => c.rd (0x1000 * p + o)

/-! Writes of block registers. -/

/-- A write by its access code alone (R8). -/
def Chip.plainWrite (r : RegRow) (k : Nat) (v : Word) (c : Chip) : Chip :=
  match r.acc with
  | .rw => c.wr k ((c.rd k &&& ~~~r.mask) ||| (v &&& r.mask))
  | .w1c => c.wr k (c.rd k &&& ~~~(v &&& r.mask))
  | .w1s => c.wr k (c.rd k ||| (v &&& r.mask))
  | .ro | .wo => c

/-- SNAP_CMD: its commands in ascending bit order (R245, R669). -/
def Chip.snapCmd (v : Word) (c : Chip) : Chip :=
  let act (b : Nat) (f : Chip → Chip) (c : Chip) : Chip := if bit v b then f c else c
  let c1 := act 3 Chip.flipNowActs (act 2 Chip.flipDisarm (act 1 Chip.flipArmNext (act 0 Chip.flipArm c)))
  act 11 Chip.glideStop (act 10 Chip.glideDisarm (act 9 Chip.glideArmNext (act 8 Chip.glideArm c1)))

/-- BANK_BIST_CTL: ALG, then START and ABORT (R91, R94, R669). -/
def Dev.bistCtl (v : Word) (d : Dev) : Dev :=
  let d1 := d.chipOp (fun c =>
    let c1 := c.wrf Reg.BANK_BIST_CTL 1 0 (fld v 1 0)
    if bit v 8 then c1.bistStart v else c1)
  if bit v 9 then d1.bistEnd else d1

/-- STn_CFG: LZ and ICEN, then ICINV (R163, R173). -/
def Chip.stCfgWrite (n : Nat) (v : Word) (c : Chip) : Chip :=
  let c1 := c.wr (Reg.ST_CFG n) (v &&& 3)
  if bit v 2 then c1.icacheInvalidate (32 + n) else c1

/-- MTX_STATS_CLR (R324): grants, waits, error counts and the largest tracker count. -/
def Chip.mtxStatsClr (v : Word) (c : Chip) : Chip :=
  if bit v 0 then
    let c1 := forUpTo 13 (fun t c => (c.wr (Reg.MTX_TP_GRANTS t) 0).wr (Reg.MTX_TP_WAITMAX t) 0) c
    ((c1.wr Reg.MTX_DECERR_COUNT 0).wr Reg.MTX_SLVERR_COUNT 0).wrf Reg.MTX_TRACK 25 16 (min 512 c.mtx.opn.length)
  else c

/-- Registers of a Courier channel: locked but in IDLE, DONE and ERROR (R277), the command, CFG at any time. -/
def Chip.chanWrite (n r k : Nat) (v w : Word) (c : Chip) : Chip :=
  if r = 0x04 then c.chanCmd n v
  else if r = 0x00 then c.wr k w
  else c.chanLocked n k w

/-- Registers of an ETH page with a behaviour of their own; the others by `plain`. -/
def Chip.ethWrite (p k o : Nat) (v w : Word) (plain : Chip → Chip) (c : Chip) : Chip :=
  if 0x044 ≤ o ∧ o ≤ 0x04C then c.ethLockedWrite p k w
  else if o = 0x110 then c.gclCmd p v
  else if o = 0x118 then c.gclDataWrite p v
  else if o = 0x624 then c.ethStatsClr p v
  else if 0x800 ≤ o then (if c.pstate = 0 then plain c else c)
  else if 0x200 ≤ o ∧ o < 0x600 then
    let tx := decide (o < 0x400)
    let n := o % 0x200 / 0x20
    let r := o % 0x20
    if r = 0x00 ∨ r = 0x04 then c.ringBaseWrite p tx n r w
    else if r = 0x08 then c.ringCfgWrite p tx n w
    else if r = 0x0C then c.ringTailWrite p tx n w
    else c
  else plain c

/-- Registers of an SPK page with a behaviour of their own (R505, R529, R530). -/
def Chip.spkWrite (n k o : Nat) (v w : Word) (plain : Chip → Chip) (c : Chip) : Chip :=
  if o = 0x05C then c.spkVolWrite n v
  else if o = 0x060 then plain c
  else if o = 0x064 then c.spkCmd n v
  else if o = 0x088 then c.spkStatsClr n v
  else c.spkCfgWrite n k w

/-- Registers of a core page with a behaviour of their own (R160, R161, R167, R171, R173); `b` is 0x060 on a MEC and
0x064 on a Steward, where the register window begins. -/
def Dev.coreWrite (k b o : Nat) (v : Word) (plain : Chip → Chip) (d : Dev) : Dev :=
  if o = 0x040 then d.runctl k v
  else if o = b + 4 then d.chipOp (Chip.regCommit k v)
  else if o = b + 8 then d.chipOp (Chip.regStage k false v)
  else if o = b + 12 then d.chipOp (Chip.regStage k true v)
  else d.chipOp plain

/-- A write of a block register: what its chapter gives it, else its access code alone. `v` is the word written, `w`
the word that an RW register takes from it. -/
def Dev.blockWrite (pk : PageKind) (i k o : Nat) (v w : Word) (plain : Chip → Chip) (d : Dev) : Dev :=
  match pk with
  | .sysP => d.chipOp (if o = 0x040 then Chip.remap v else plain)
  | .rstP =>
    if o = 0x044 then d.softwareReset v
    else if o = 0x050 then
      d.chipOp (fun c => c.pwrDo (fun p => { p with timeout := put p.timeout (c.rdf Reg.RST_TO_SEL 7 0) w }))
    else d.chipOp (if o = 0x058 then Chip.peerPulse v else plain)
  | .clkpwrP => d.chipOp (if o = 0x040 then Chip.powerRequest v else plain)
  | .fuseP => d.chipOp (if o = 0x088 then Chip.fuseProgram v else plain)
  | .fgP =>
    if o = 0x04C then d.chipOp (Chip.fgCmd v)
    else if o = 0x050 ∨ o = 0x054 then d.chipOp (fun c => c.sealedWrite pgFG k w)
    else d.chipOp (if o = 0x06C then Chip.fgStatsClr v else plain)
  | .hubP =>
    d.chipOp (fun c =>
      if o = 0x044 then c.hubDone 0 v else if o = 0x054 then c.hubDone 1 v else if o = 0x064 then c.hubDone 2 v
      else if o = 0x070 then c.hubSwset v
      else if o = 0x074 then c.hubWclkDivWrite v
      else if 0x400 ≤ o ∧ o < 0x800 then c.hubCfgWrite ((o - 0x400) / 4) v
      else plain c)
  | .mtxP =>
    d.chipOp (fun c =>
      if o = 0x140 then c.mtxStatsClr v else if 0x058 ≤ o ∧ o ≤ 0x064 then c else plain c)
  | .bankP =>
    if o = 0x068 then d.bistCtl v
    else d.chipOp (fun c =>
      if o < 0x050 then c.bankStateWrite ((o - 0x040) / 4) v
      else if o = 0x0E0 then c.conflictClr v else plain c)
  | .qfP =>
    if o = 0x044 then d.qfCmd v
    else d.chipOp (fun c => if 0x060 ≤ o ∧ o < 0x070 then c.qfDescWrite ((o - 0x060) / 4) w else plain c)
  | .tickP =>
    d.chipOp (fun c =>
      if o = 0x040 ∨ o = 0x044 ∨ o = 0x050 ∨ o = 0x054 then c.tickCfgWrite k w
      else if o = 0x068 then c.ecycClr v else plain c)
  | .snapP => d.chipOp (if o = 0x050 then Chip.snapCmd v else plain)
  | .patchP =>
    d.chipOp (fun c =>
      if 0x200 ≤ o then
        let out := decide (0x600 ≤ o)
        let p := if out then (o - 0x600) / 8 else (o - 0x200) / 8
        if o % 8 = 0 then c.epCfgWrite out p w else c.epQWrite out p w
      else if 0x100 ≤ o then
        let g := (o - 0x100) / 16
        if o % 16 = 0 then c.genType g v else if o % 16 = 0xC then c.genSeed g v else plain c
      else plain c)
  | .dmixP => d.chipOp plain
  | .dramP =>
    if o = 0x04C then d.dramCmd i v
    else d.chipOp (fun c =>
      if o ≤ 0x048 then c.dramCfgWrite i k w else if o = 0x074 then c.dramStatsClr i v else plain c)
  | .asterP =>
    d.chipOp (fun c =>
      let c1 := if o = 0x06C then c.asterCmd v
        else if 0x080 ≤ o ∧ o < 0x0B0 then c.refCfgWrite ((o - 0x080) / 4) w
        else if 0x0C0 ≤ o ∧ o < 0x0F0 then c.refNomWrite ((o - 0x0C0) / 4) w
        else if 0x140 ≤ o ∧ o < 0x150 then c.clkCfgWrite ((o - 0x140) / 4) w
        else if o = 0x150 then c.ppsCfgWrite w
        else if o = 0x154 then c.frameCfgWrite w else plain c
      c1.asterEval)
  | .tbP =>
    d.chipOp (fun c => if o = 0x044 then c.incCommit v else if o = 0x074 then c.tbCmd v else plain c)
  | .jackP => d.chipOp (if o = 0x06C then Chip.jackReclass v else plain)
  | .stP =>
    if o = 0x05C then d.wdogKick i v
    else if o = 0x050 then d.chipOp (Chip.stCfgWrite i v)
    else if o = 0x058 then d.chipOp (fun c => c.wdogCfgWrite i w)
    else d.coreWrite (32 + i) 0x064 o v plain
  | .hostP => d.chipOp (if o = 0x048 then Chip.mboxOutWrite v else plain)
  | .bootqP =>
    d.chipOp (if o = 0x044 then Chip.bootqXfer v else if o = 0x050 then Chip.bootqWrite v else plain)
  | .guardP =>
    d.chipOp (fun c =>
      if o = 0x040 then c.guardSeal v
      else if o = 0x04C ∨ 0x400 ≤ o then c.sealedWrite pgGUARD k w
      else if 0x100 ≤ o ∧ o < 0x180 then c.tripClear ((o - 0x100) / 4) v else plain c)
  | .curP =>
    d.chipOp (fun c =>
      if o = 0x040 then c.flagClear v else if o = 0x044 then c.flagSet v else if o = 0x04C then c.plainRelease i v
      else if 0x100 ≤ o then c.chanWrite (8 * i + (o - 0x100) / 0x80) (o % 0x80) k v w else plain c)
  | .sapP =>
    d.chipOp (fun c =>
      if o = 0x040 ∨ (0x054 ≤ o ∧ o ≤ 0x060) then c.sapLocked i k w
      else if o = 0x044 ∨ o = 0x048 then c.sapMaskWrite (o == 0x048) i w
      else if 0x100 ≤ o then c.trimWrite i ((o - 0x100) / 4) v else plain c)
  | .aesP =>
    d.chipOp (fun c =>
      if o = 0x040 then c.aesCfgWrite i v
      else if o = 0x048 ∨ o = 0x04C then c.aesLockedWrite i k w
      else if o = 0x054 ∨ o = 0x058 then c.aesTrimWrite i ((o - 0x054) / 4) v
      else if o = 0x074 then c.txcsCommit i v else plain c)
  | .asrcP =>
    d.chipOp (fun c =>
      let g := (o - 0x040) / 16
      if o % 16 = 0 then c.asrcCfgWrite g v else if o % 16 = 4 then c.asrcQWrite g v else c)
  | .mecP =>
    if o = 0x050 then d.chipOp (fun c => c.sstatClear i (v &&& 0x1F))
    else if o = 0x07C then d.chipOp (Chip.mecStatsClr i v)
    else d.coreWrite i 0x060 o v plain
  | .laneP =>
    d.chipOp (fun c =>
      if o = 0x040 then c.laneDo i (fun c => c.laneCfgWrite i v)
      else if o = 0x04C then c.laneCmd i v else plain c)
  | .irisP =>
    d.chipOp (fun c => if o ≤ 0x048 then c.irisCfgWrite k w else if o = 0x04C then c.irisCmd v else plain c)
  | .ethP => d.chipOp (fun c => (c.ethWrite i k o v w plain).hubFalls)
  | .strmP =>
    if o = 0x080 then d.strmEnable true v
    else if o = 0x100 then d.strmEnable false v
    else d.chipOp (fun c =>
      if o = 0x04C then c.strmStatsClr v else if 0x080 ≤ o then c.strmWrite o w else plain c)
  | .cb0P =>
    d.chipOp (fun c =>
      if 0x044 ≤ o ∧ o ≤ 0x04C then c.cb0LockedWrite k w
      else if o = 0x060 then c.cb0TxPush v
      else if o = 0x068 then c.cb0Txflush v
      else if o = 0x070 then c.mdioAccess v
      else if o = 0x090 then c.cb0StatsClr v else plain c)
  | .stmP =>
    d.chipOp (fun c =>
      if o ≤ 0x054 then c.stemLockedWrite i k w
      else if o = 0x06C then c.ctxSend i v
      else if o = 0x07C then c.stmStatsClr i v else plain c)
  | .mgldP =>
    d.chipOp (fun c =>
      if o = 0x048 then c.mgldCmd v else if o = 0x084 then c.mgldStatsClr v else c.mgldCfgWrite k w)
  | .spkP => d.chipOp (Chip.spkWrite i k o v w plain)
  | .spkcP => d.chipOp (fun c => c.saWrite k w)

/-- A write of the register of key `k` (R8, R9, R53): unassigned pages, unnamed offsets and read-only registers ignore
it. -/
def Dev.writeReg (k : Nat) (v : Word) (d : Dev) : Dev :=
  let o := k % 0x1000
  match pageKind (k / 0x1000) with
  | none => d
  | some (pk, i) =>
    if o < 0x40 then d.headerWrite pk i (k / 0x1000) o v
    else match pageRow pk i o with
      | none => d
      | some r =>
        if r.acc = .ro then d
        else
          let old := if pk = .strmP ∧ 0x080 ≤ o then 0 else d.chip.rd k &&& ~~~r.mask
          d.blockWrite pk i k o v (old ||| (v &&& r.mask)) (Chip.plainWrite r k v)

/-- A write that reaches a page: while the page's BLOCK reset lasts it waits for the release (R619). -/
def Dev.regWrite (k : Nat) (v : Word) (d : Dev) : Dev :=
  if d.chip.blkPhase (k / 0x1000) = 2 then
    d.chipOp (fun c => c.pwrDo (fun p => { p with blkHeld := p.blkHeld ++ [(k, v)] }))
  else d.writeReg k v

/-! Reads of block registers. -/

/-- The reads that act (R41, R66, R70, R161, R246, R353, R395, R424, R454, R499, R639). -/
def Chip.readActs (pk : PageKind) (i o : Nat) (c : Chip) : Option Chip :=
  match pk with
  | .hubP =>
    if o = 0x040 then some (c.hubClaim 0) else if o = 0x050 then some (c.hubClaim 1)
    else if o = 0x060 then some (c.hubClaim 2) else if o = 0x078 then some c.hubEvmonRead else none
  | .tickP => if o = 0x048 then some c.readTickCountLo else none
  | .tbP => if o = 0x04C then some c.readTbNs else if o = 0x05C then some c.readTbShort else none
  | .snapP => if o = 0x05C then some c.flipLastRead else none
  | .mecP => if 0x064 ≤ o ∧ o ≤ 0x06C then some (c.windowRead i ((o - 0x064) / 4)) else none
  | .stP => if 0x068 ≤ o ∧ o ≤ 0x070 then some (c.windowRead (32 + i) ((o - 0x068) / 4)) else none
  | .jackP => if o = 0x05C then some c.jackPop else if o = 0x068 then some c.rawPop else none
  | .irisP => if o = 0x054 then some c.irisPop else none
  | .cb0P => if o = 0x058 then some c.cb0RxPop else none
  | .stmP => if o = 0x074 then some (c.crxPop i) else none
  | .hostP => if o = 0x044 then some c.mboxInRead else none
  | .bootqP => if o = 0x050 then some c.bootqRead else none
  | _ => none

/-- The registers of HUB that show sources (R70, R72). -/
def Chip.hubView (c : Chip) (o : Nat) : Option Word :=
  if 0x080 ≤ o ∧ o < 0x0A0 then some (bitsOf (fun b => c.hubPending (8 * (o - 0x080) + b)))
  else if 0x0A0 ≤ o ∧ o < 0x0C0 then some (bitsOf (fun b => (c.hubSrc (8 * (o - 0x0A0) + b)).insvc.isSome))
  else if 0x0C0 ≤ o ∧ o < 0x0E0 then some (bitsOf (fun b => c.hubLevel (8 * (o - 0x0C0) + b)))
  else if 0x800 ≤ o then
    let s := (o - 0x800) / 8
    some (if o % 8 = 0 then (c.hubSrc s).time else c.hubRecInfo s)
  else none

/-- The registers of MTX that show transactions (R324). -/
def Chip.mtxView (c : Chip) (o : Nat) : Option Word :=
  if 0x080 ≤ o ∧ o < 0x0BC then
    let m := (o - 0x080) / 4
    some (setFld (c.rd (Reg.MTX_MP_STAT m)) 8 0 (min 511 (c.mtx.opn.filter (fun x => x.txn.master.val == m)).length))
  else if o = 0x154 then some (setFld (c.rd Reg.MTX_TRACK) 9 0 (min 1023 c.mtx.opn.length))
  else none

/-- The registers that show state which is no register (each chapter's register table). -/
def Chip.regView (c : Chip) (pk : PageKind) (i k o : Nat) : Option Word :=
  match pk with
  | .sysP =>
    if o = 0x044 then some (Config.dieWord 0 &&& 0x1FF)
    else if o = 0x054 then some (Config.dieWord 1) else if o = 0x058 then some (Config.dieWord 2) else none
  | .rstP => if o = 0x050 then some (look 0x1000 c.pwr.timeout (c.rdf Reg.RST_TO_SEL 7 0)) else none
  | .fgP => if o = 0x040 then some c.fgStateView else if o = 0x05C then some c.fgPinsView else none
  | .hubP => c.hubView o
  | .mtxP => c.mtxView o
  | .qfP => c.qfView o
  | .snapP => if o = 0x054 then some c.snapStat else if o = 0x078 then some c.glideBusy else none
  | .patchP => if o = 0x044 then some c.sinkStat else if o = 0x048 then some c.fadePos else none
  | .dmixP =>
    if o = 0x050 then some c.dmixProbe.gain
    else if o = 0x054 then some (word (b2n c.dmixProbe.pend.isSome)) else none
  | .asterP => if o = 0x054 then some c.asterStateView else none
  | .tbP =>
    if o = 0x044 then some (c.tb.incInt.setWidth 32) else if o = 0x048 then some c.tb.incFrac
    else if o = 0x060 then some c.tb.epoch else none
  | .stP => if o = 0x044 then some (c.coreStateView (32 + i)) else if o = 0x048 then some (c.stPcView (32 + i)) else none
  | .hostP => if o = 0x04C then some c.mboxLevel else none
  | .bootqP => if o = 0x054 then some c.bootqStat else none
  | .guardP => if o = 0x054 then some c.tripInfo else if o = 0x058 then some c.dcMean else none
  | .curP =>
    if o = 0x040 ∨ o = 0x044 then some c.curFlags
    else if o = 0x048 then some (bitsOf c.reqLine)
    else if o = 0x050 then some (c.curOutstanding i)
    else if 0x100 ≤ o ∧ o % 0x80 = 0x08 then some (c.chanStatView (8 * i + (o - 0x100) / 0x80))
    else if 0x100 ≤ o ∧ o % 0x80 = 0x10 then some (c.rd k &&& 0x1FF_FFF8) else none
  | .sapP => if o = 0x068 then some (c.sapLinkView i) else none
  | .aesP => if o = 0x044 then some (c.aesStatView i) else none
  | .asrcP => if o % 16 = 8 then some (c.asrcStatView ((o - 0x040) / 16)) else none
  | .mecP =>
    if o = 0x044 then some (c.coreStateView i) else if o = 0x050 then some (c.core i).sstat else none
  | .irisP => c.irisView k
  | .ethP => c.ethView i k
  | .strmP => c.strmView o
  | .cb0P => c.cb0View k
  | .stmP => c.stemView i k
  | .mgldP => if o = 0x044 then some c.mgldRoleView else none
  | .spkcP => if o = 0x048 then some c.spkPlaying else if o = 0x04C then some c.spkLatched else none
  | _ => none

/-- A read of the register of key `k` (R8, R9, R53), with what the read does. -/
def Dev.readReg (k : Nat) (d : Dev) : Word × Dev :=
  let o := k % 0x1000
  match pageKind (k / 0x1000) with
  | none => (0, d)
  | some (pk, i) =>
    if o < 0x40 then (d.chip.headerRead pk i (k / 0x1000) o, d)
    else match pageRow pk i o with
      | none => (0, d)
      | some r =>
        if r.acc = .wo then (0, d)
        else match d.chip.readActs pk i o with
          | some c => (c.rdata, { d with chip := c })
          | none => ((d.chip.regView pk i k o).getD (d.chip.rd k), d)

/-! The commands. -/

def execRegisterWrite (a : BitVec 20) (v : Word) (s : State) : Host.Outcome State Fault Refusal :=
  s.onDev (Dev.regWrite a.toNat v)

def execIrqForce (page : Fin 256) (v : Word) (s : State) : Host.Outcome State Fault Refusal :=
  s.onDev (Dev.regWrite (0x1000 * page + 0x01C) v)

def execErrCodeClear (page : Fin 256) (v : Word) (s : State) : Host.Outcome State Fault Refusal :=
  s.onDev (Dev.regWrite (0x1000 * page + 0x020) v)

/-- Setting CTRL.IDLE_REQ of an assigned page. -/
def execIdleRequest (page : Fin 256) (s : State) : Host.Outcome State Fault Refusal :=
  s.onDev (fun d => if (pageKind page).isNone || d.chip.idleReq page then d else d.idleBegin page)

def execIdleAck (page : Fin 256) (s : State) : Host.Outcome State Fault Refusal := s.onDev (Dev.idleAcked page)

def execBlockResetRequest (page : Fin 256) (s : State) : Host.Outcome State Fault Refusal :=
  s.onDev (Dev.blockRequest page)

def execBlockResetTimeout (page : Fin 256) (s : State) : Host.Outcome State Fault Refusal :=
  s.onDev (Dev.blockTimeout page)

def execRemapWrite (v : Word) (s : State) : Host.Outcome State Fault Refusal := s.onChip (Chip.remap v)

def execMtxStatsClr (v : Word) (s : State) : Host.Outcome State Fault Refusal := s.onChip (Chip.mtxStatsClr v)

def execTickStop (s : State) : Host.Outcome State Fault Refusal := s.onChip Chip.tickStop

end Sys2Proof.Machine
end

