-- ==== Sys2Proof/Machine/Matrix.lean ====
section
/-! DEFINITION. The bus matrix (R309 to R319, R672): beats at every target, the issue, grant and response of a
transaction, the service of the MEC windows (R88) and of the DRAM controllers (R595, R606), and the release of a BLOCK
reset (R619). -/

namespace Sys2Proof.Machine

/-! Beats at every target: the register fabric takes 32-bit accesses alone (R44). -/

/-- A read beat at `a` of `n` bytes: its outcome and its bytes, zeros when it fails. The register fabric takes each beat of a
burst of 32-bit beats as an access of its own; R44, which names bursts for the memories alone, does not refuse them (DESIGN
CHOICE, log entry 126). -/
def Dev.busRead (port a n : Nat) (d : Dev) : Nat × List Byte × Dev :=
  let reg (k : Nat) : Nat × List Byte × Dev :=
    let (v, d1) := d.readReg k
    (0, wordBytes v, d1)
  if n = 4 ∧ a % 4 = 0 then
    match d.chip.region a with
    | .page p o => reg (0x1000 * p + o)
    | .mec m o => if 0xF_0000 ≤ o then reg (0x1000 * pgMEC m + (o - 0xF_0000)) else d.memBeatRead port a n
    | .patch o => (0, wordBytes (d.chip.selectRead o), d)
    | .dmix o => (0, wordBytes (d.chip.gainRead o), d)
    | _ => d.memBeatRead port a n
  else d.memBeatRead port a n

/-- A write beat at `a` of `n` bytes, `l` those whose strobes are set. -/
def Dev.busWrite (port a n : Nat) (l : BeatBytes) (d : Dev) : Nat × Dev :=
  let v := word (bytesNat (l.map (·.2)))
  if n = 4 ∧ a % 4 = 0 ∧ l.length = 4 then
    match d.chip.region a with
    | .page p o => (0, d.regWrite (0x1000 * p + o) v)
    | .mec m o =>
      if 0xF_0000 ≤ o then (0, d.regWrite (0x1000 * pgMEC m + (o - 0xF_0000)) v) else d.memBeatWrite port a n l
    | .patch o => (0, d.chipOp (·.selectWrite o v))
    | .dmix o => (0, d.chipOp (·.gainWrite o v))
    | _ => d.memBeatWrite port a n l
  else
    match d.chip.region a with
    | .bitSet _ | .bitClear _ => (1, d)
    | .queueRam _ => if port = 14 then (1, d) else d.memBeatWrite port a n l
    | _ => d.memBeatWrite port a n l

/-! Transactions. -/

/-- The width of a master port in bytes, as a power of two (R309). -/
def portLog (m : Nat) : Nat := if m = 4 ∨ m = 5 then 4 else if 13 ≤ m then 2 else 5

/-- A transaction as R312 allows it. -/
def txnOk (t : Txn) : Bool :=
  1 ≤ t.beats && t.beats ≤ 16 && t.beatLog.val ≤ portLog t.master && (t.beats == 1 || t.beatLog.val == portLog t.master) &&
    t.addr.toNat % t.size == 0 &&
    (if t.write then t.data.length == t.beats * t.size && (t.strobes.isEmpty || t.strobes.length == t.data.length)
     else t.data.isEmpty)

/-- The addresses of a transaction's beats under the present mapping (R47, R48). -/
def Chip.txnAddrs (c : Chip) (t : Txn) : List Nat := (List.range t.beats).map (fun i => c.trueAddr (t.beatAddr i))

/-- The parts of a transaction: target, first beat, beats. -/
def Chip.txnParts (c : Chip) (t : Txn) : List (Nat × Nat × Nat) := c.beatParts t.master t.write (c.txnAddrs t)

/-- QoS of a request (R315). -/
def Chip.txnQos (c : Chip) (m chan : Nat) : Nat :=
  if 6 ≤ m ∧ m ≤ 9 then c.rdf (Reg.CUR_CH_CFG chan) 7 4 else c.rdf (Reg.MTX_MP_CFG m) 3 0

/-- The matrix becomes `f` of itself. -/
def Chip.mtxDo (c : Chip) (f : MtxSt → MtxSt) : Chip := { c with mtx := f c.mtx }

/-- A part joins its master's queue for its target; at the head it has its QoS and its time (R314, R315). -/
def Chip.partWait (t : Txn) (seq : Nat) (c : Chip) (p : Nat × Nat × Nat) : Chip :=
  let x : MtxPart :=
    { master := t.master, seq := seq, target := p.1, lo := p.2.1, n := p.2.2, qos := c.txnQos t.master t.chan, since := c.now }
  c.mtxDo (fun m => { m with wait := m.wait ++ [x] })

/-- A transaction is decoded, divided and tracked (R311, R313): beats that no target takes fail at once. -/
def Chip.txnAccept (c : Chip) (t : Txn) : Chip :=
  let parts := c.txnParts t
  let real := parts.filter (fun p => p.1 < 13)
  let holes := (parts.filter (fun p => 13 ≤ p.1)).flatMap (fun p => (List.range p.2.2).map (fun i => (p.2.1 + i, 2)))
  let seq := c.mtx.seq
  let o : MtxOpen := { seq := seq, txn := t, addrs := c.txnAddrs t, targets := real.map (·.1), left := real.length, fails := holes, data := [] }
  let c1 := real.foldl (Chip.partWait t seq) (c.mtxDo (fun m => { m with seq := seq + 1, opn := m.opn ++ [o] }))
  let used := min 512 c1.mtx.opn.length
  if c1.rdf Reg.MTX_TRACK 25 16 < used ∧ !c1.freeze pgMTX then c1.wrf Reg.MTX_TRACK 25 16 used else c1

/-- A master presents a transaction: issued, or held until one of its responses returns (R311). A port that drains
belongs to a block in reset, which issues nothing. -/
def Chip.txnIssue (t : Txn) (c : Chip) : Chip :=
  if !txnOk t || c.draining t.master then c
  else
    let waits := c.mtx.held.any (fun h => h.master == t.master && (h.chan == t.chan || t.master.val < 6 || 9 < t.master.val))
    if waits || c.atLimit t.master t.chan then c.mtxDo (fun m => { m with held := m.held ++ [t] }) else c.txnAccept t

def execTransactionIssue (t : Txn) (s : State) : Host.Outcome State Fault Refusal := s.onChip (Chip.txnIssue t)

/-! Service of accepted parts. -/

/-- Beat `i` of a transaction at its target: the outcome is kept, and the bytes of a read. -/
def Dev.txnBeat (o : MtxOpen) (i : Nat) (d : Dev) : Dev :=
  let t := o.txn
  let a := o.addrs[i]?.getD 0
  let upd (f : MtxOpen → MtxOpen) (c : Chip) : Chip :=
    c.mtxDo (fun m => { m with opn := m.opn.map (fun x => if x.seq = o.seq then f x else x) })
  let failed (r : Nat) (x : MtxOpen) : MtxOpen := if r = 0 then x else { x with fails := put x.fails i r }
  if t.write then
    let (r, d1) := d.busWrite t.master a t.size (t.beatBytes i)
    d1.chipOp (upd (failed r))
  else
    let (r, l, d1) := d.busRead t.master a t.size
    d1.chipOp (upd (fun x =>
      { failed r x with data := l.zipIdx.foldl (fun m e => put m (i * t.size + e.2) e.1) x.data }))

/-- An accepted part is served: its beats in order. -/
def Dev.servePart (p : MtxPart) (d : Dev) : Dev :=
  let d1 := match d.chip.openOf p.master p.seq with
    | some o => forUpTo p.n (fun i (d : Dev) => d.txnBeat o (p.lo + i)) d
    | none => d
  d1.chipOp (fun c => c.mtxDo (fun m =>
    { m with
      acc := m.acc.filter (fun q => !(q.seq == p.seq && q.lo == p.lo))
      opn := m.opn.map (fun (x : MtxOpen) => if x.seq = p.seq then { x with left := x.left - 1 } else x) }))

/-- The MEC of a part at the local window target; 32 when it goes to no MEC. -/
def Chip.partMec (c : Chip) (p : MtxPart) : Nat :=
  match (c.partAddrs p).head?.map c.region with
  | some (.mec m _) => m
  | _ => 32

/-- Whether a part waits for another command: DRAM service, a free cycle of X or Y data, the release of a BLOCK reset
(R619), or a held coefficient write of its MEC (R228). -/
def Chip.partWaits (c : Chip) (p : MtxPart) : Bool :=
  p.target == 8 || p.target == 9 ||
    (c.partAddrs p).any (fun a =>
      let r := c.region a
      r.xy || (match r with
        | .page q _ => c.blkPhase q == 2
        | .mec m o => (0xF_0000 ≤ o && c.blkPhase (pgMEC m) == 2) || !(look [] c.snap.held m).isEmpty
        | _ => false))

/-- Whether accepted part `q` is served before `p` when it came first: one master at one target (R318), one MEC at the
local window target (R88). -/
def Chip.partBefore (c : Chip) (q p : MtxPart) : Bool :=
  q.target == p.target &&
    (q.master == p.master || (p.target == 11 && c.partMec p < 32 && c.partMec q == c.partMec p))

/-- The accepted parts up to `p` that must not come after it, with `p` last. -/
def Chip.partsUpTo (c : Chip) (p : MtxPart) : List MtxPart :=
  (c.mtx.acc.takeWhile (fun q => !(q.seq == p.seq && q.lo == p.lo))).filter (fun q => c.partBefore q p) ++ [p]

/-- A part is served, those before it first, when none of them waits. -/
def Dev.serveUpTo (p : MtxPart) (d : Dev) : Dev :=
  let l := d.chip.partsUpTo p
  if l.any d.chip.partWaits then d else l.foldl (fun d q => d.servePart q) d

/-! Arbitration (R314). -/

/-- The request of each master at the head of its queue for a target. -/
def Chip.heads (c : Chip) (t : Nat) : List MtxPart :=
  (List.range 15).filterMap (fun m => c.mtx.wait.find? (fun p => p.target == t && p.master == m))

/-- CLK_MTX cycles that a request has waited at the head, at 800 MHz (R309). -/
def Chip.headWait (c : Chip) (p : MtxPart) : Nat := (c.now - p.since).toNat * 4 / 5

/-- The effective QoS of a request. -/
def Chip.effQos (c : Chip) (p : MtxPart) : Nat := min 15 (p.qos + c.headWait p / 256)

/-- Places from the round robin's start, the port after the one last granted. -/
def Chip.rrPlace (c : Chip) (t m : Nat) : Nat := (m + 14 - look 14 c.mtx.last t) % 15

/-- The better of two requests. -/
def Chip.better (c : Chip) (t : Nat) (a b : MtxPart) : MtxPart :=
  if c.effQos a < c.effQos b ∨ (c.effQos a = c.effQos b ∧ c.rrPlace t b.master < c.rrPlace t a.master) then b else a

/-- Whether a DRAM target accepts (R595, R606): room for 64, no self-refresh entry under way, none for an ENGINE
reset. -/
def Chip.dramAccepts (c : Chip) (k : Nat) : Bool :=
  decide ((c.mtx.acc.filter (fun p => p.target == 8 + k)).length < 64) && (c.dramSt k).want == 0 &&
    !(c.dramState k == 4 && (c.dramSt k).cause == 2)

/-- The request that follows a granted one is at the head now. -/
def headNext (now : Word) (c : Chip) (t m : Nat) : List MtxPart → List MtxPart
  | [] => []
  | p :: rest =>
    if p.target = t ∧ p.master = m then
      let chan := ((c.openOf m p.seq).map (fun o => o.txn.chan.val)).getD 0
      { p with since := now, qos := c.txnQos m chan } :: rest
    else p :: headNext now c t m rest

/-- Target `t` accepts part `p` (R314, R324). -/
def Chip.partAccept (c : Chip) (t : Nat) (p : MtxPart) : Chip :=
  let w := word (min 0xFFFF (c.headWait p))
  let c1 := c.busGrant p.master t
  let c2 := if (c1.rd (Reg.MTX_TP_WAITMAX t)).toNat < w.toNat then c1.stat (Reg.MTX_TP_WAITMAX t) w else c1
  let rest := c2.mtx.wait.filter (fun q => !(q.seq == p.seq && q.lo == p.lo))
  c2.mtxDo (fun m => { m with
    wait := headNext c2.now c2 t p.master rest
    acc := m.acc ++ [{ p with since := c2.now }] })

/-- Whether an owning rule ties the effect of a part to its write response (R48, R79, R315): a write to page SYS, BANK or
MTX. -/
def Chip.partTied (c : Chip) (p : MtxPart) : Bool :=
  (c.openOf p.master p.seq).any (fun o => o.txn.write) && (c.partAddrs p).any (fun a =>
    match c.region a with
    | .page q _ => q == pgSYS || q == pgBANK || q == pgMTX
    | _ => false)

/-- An accepted part takes effect now, or later by its response, as a free value says (R672). -/
def Dev.mayServe (p : MtxPart) (d : Dev) : Dev :=
  if d.chip.partTied p then d
  else if d.chip.freeNow 1 = 1 then (d.chipOp Chip.freeNext).serveUpTo p
  else d.chipOp Chip.freeNext

/-- The parts accepted earlier that can take effect between other events (R672). -/
def Dev.mayServeAll (d : Dev) : Dev :=
  (d.chip.mtx.acc.filter (fun p => !d.chip.partWaits p)).foldl (fun d p =>
    if d.chip.mtx.acc.any (fun q => q.seq == p.seq && q.lo == p.lo) then d.mayServe p else d) d

/-- Target `t` grants (R314). The access takes effect at some point from now to its response (R672): now, at a later grant
or by the response, as free values say; one that a DRAM channel refuses takes its outcome at once. -/
def Dev.grant (t : Nat) (d : Dev) : Dev :=
  let d0 := d.mayServeAll
  let c := d0.chip
  if (t = 8 ∨ t = 9) ∧ !c.dramAccepts (t - 8) then d0
  else match c.heads t with
  | [] => d0
  | p :: ps =>
    let g := ps.foldl (c.better t) p
    let d1 := d0.chipOp (fun c => c.partAccept t g)
    if t = 8 ∨ t = 9 then (if d1.chip.dramServes (t - 8) then d1 else d1.servePart g)
    else d1.mayServe g

def execTransactionGrant (target : Fin 13) (s : State) : Host.Outcome State Fault Refusal :=
  s.onDev (Dev.grant target)

/-- An access to X or Y data finds a free cycle (R88): the first of its MEC at the local window target. -/
def Dev.localServe (m : Nat) (d : Dev) : Dev :=
  match d.chip.mtx.acc.find? (fun p => p.target == 11 && d.chip.partMec p == m) with
  | some p => if (d.chip.partAddrs p).any (fun a => (d.chip.region a).xy) then d.servePart p else d
  | none => d

def execLocalAccessServe (m : Fin 32) (s : State) : Host.Outcome State Fault Refusal := s.onDev (Dev.localServe m)

/-! The response (R319). -/

/-- The journal entries of a beat's words (R576): a word written in part is a narrow write. -/
def Chip.journalBeat (t : Txn) (i : Nat) (c : Chip) : Chip :=
  let l := t.beatBytes i
  let a := t.beatAddr i
  if t.size < 4 then (if l.isEmpty then c else c.journalWrite a t.size [])
  else forUpTo (t.size / 4) (fun j c =>
    let b := l.filter (fun e => e.1 / 4 == j)
    if b.length = 4 then c.journalWrite (a + 4 * j) 4 [word (bytesNat (b.map (·.2)))]
    else if b.isEmpty then c else c.journalWrite (a + 4 * j) 1 []) c

/-- The channel order of a Courier port's round robin: the places after the channel that issued last (R298). -/
def Chip.chanPlace (c : Chip) (h : Txn) : Nat := (h.chan.val + 31 - look 31 c.mtx.last (16 + h.master)) % 32

/-- Of two held transactions, the one that a freed place goes to: on a Courier port the higher CFG.QOS, round robin among
equal values (R298), else the one held first. -/
def Chip.heldBetter (c : Chip) (a b : Txn) : Txn :=
  let courier := decide (6 ≤ a.master.val ∧ a.master.val ≤ 9 ∧ b.master = a.master)
  let qa := c.txnQos a.master a.chan
  let qb := c.txnQos b.master b.chan
  if courier && (decide (qa < qb) || (qa == qb && decide (c.chanPlace b < c.chanPlace a))) then b else a

/-- The held transaction that is issued next (R298, R311): of each channel, or master, the oldest. -/
def Chip.heldNext (c : Chip) : Option Txn :=
  match c.mtx.held.filter (fun h => !c.atLimit h.master h.chan) with
  | [] => none
  | h :: t => some (t.foldl c.heldBetter h)

/-- The response of an open transaction: its error, counted once, its data or its journal entries, and a held
transaction of the master issued. -/
def Chip.respond (o : MtxOpen) (c : Chip) : Chip :=
  let t := o.txn
  let w := o.fails.foldl (fun (w : Worst) e => w.join e.2 e.1) (0, 0)
  let c1 := c.mtxDo (fun m => { m with opn := m.opn.filter (fun x => x.seq != o.seq) })
  let c2 := c1.busError t.master (c.region (o.addrs[w.2]?.getD 0)).target t.write (t.beatAddr w.2) w.1
  let c3 := if t.write then
      (if t.master.val = 4 ∨ t.master.val = 5 ∨ t.master.val = 13 then
        forUpTo t.beats (fun i c => if look 0 o.fails i = 0 then c.journalBeat t i else c) c2
      else c2)
    else
      let bytes := (List.range (t.beats * t.size)).map (look 0 o.data)
      { c2 with rdata := word (bytesNat (bytes.take 4)), rwords := bytesWords (bytes.length / 4 + 1) bytes }
  match c3.heldNext with
  | some h => (c3.mtxDo (fun m => { m with held := m.held.erase h, last := put m.last (16 + h.master) h.chan })).txnAccept h
  | none => c3

/-- The transaction of a master that target `t` may answer: the oldest with a part at that target, or with none at any,
unless an older one of the master still waits for another of its targets (R318). -/
def Chip.answerable (c : Chip) (t m : Nat) : Option MtxOpen :=
  match c.mtx.opn.find? (fun o => o.txn.master.val == m && (o.targets.isEmpty || o.targets.contains t)) with
  | none => none
  | some o =>
    let older := c.mtx.opn.takeWhile (fun x => x.seq != o.seq)
    if older.any (fun x => x.txn.master.val == m && x.targets.any o.targets.contains) then none else some o

/-- A target returns a response to a master, once the transaction has been served whole. -/
def Dev.txnRespond (t m : Nat) (d : Dev) : Dev :=
  match d.chip.answerable t m with
  | none => d
  | some o =>
    let d1 := (d.chip.mtx.acc.filter (fun p => p.seq == o.seq)).foldl (fun d p => d.serveUpTo p) d
    let kept := o.txn.write && o.addrs.any (fun a =>
      match d1.chip.region a with
      | .mec k _ => !(look [] d1.chip.snap.held k).isEmpty
      | _ => false)
    match d1.chip.openOf m o.seq with
    | some o' => if o'.left = 0 ∧ !kept then d1.chipOp (Chip.respond o') else d1
    | none => d1

def execTransactionResponse (target : Fin 13) (master : Fin 15) (s : State) : Host.Outcome State Fault Refusal :=
  s.onDev (Dev.txnRespond target master)

/-! Drains (R320, R321). -/

/-- The drain of a port whose block is in reset. -/
def Dev.drainPort (m : Nat) (d : Dev) : Dev := if d.chip.draining m then d.portDrain Dev.txnBeat m else d

def execPortDrain (m : Fin 15) (s : State) : Host.Outcome State Fault Refusal := s.onDev (Dev.drainPort m)

/-! Alias writes (R85). -/

/-- A write of a master through the bit-set or bit-clear alias. -/
def Dev.aliasAccess (port : Nat) (set : Bool) (ofs : Nat) (mask : Word) (d : Dev) : Dev :=
  let a := (if set then 0x2400_0000 else 0x2800_0000) + ofs / 4 * 4
  let d0 := d.stallOn (d.chip.mustWait port 0 true [a])
  let (r, d1) := d0.busWrite port a 4 ((List.range 4).zip (wordBytes mask))
  d1.chipOp (fun c => (c.grantBeats port true [a]).busError port (c.region a).target true a r)

def execAliasWrite (set : Bool) (ofs : AliasWord) (mask : Word) (s : State) :
    Host.Outcome State Fault Refusal :=
  s.onDev (Dev.orWait (Dev.aliasAccess ofs.master set ofs.ofs.toNat mask))

/-! DRAM (R595, R606). -/

/-- Bank and row of a channel offset (R594). -/
def Chip.dramBankRow (c : Chip) (k a : Nat) : Nat × Nat :=
  let s := dramStorage (c.rdf (Reg.DRAM_CFG k) 5 4) (c.dramLog k) a
  (s / 2 ^ 12 % 16, s / 2 ^ 16)

/-- The channel offset at which a part begins. -/
def Chip.partOfs (c : Chip) (p : MtxPart) : Nat := ((c.partAddrs p).head?.getD 0) % 0x1_0000_0000

/-- Whether the first access of a part finds its row open. -/
def Chip.rowHit (c : Chip) (k : Nat) (p : MtxPart) : Bool :=
  let (b, r) := c.dramBankRow k (c.partOfs p)
  look 0 ((c.dramSt k).rows.map (fun e => (e.1, e.2 + 1))) b == r + 1

/-- The transaction that controller `k` serves next (R595). -/
def Chip.dramPick (c : Chip) (k : Nat) : Option MtxPart :=
  let l := c.mtx.acc.filter (fun p => p.target == 8 + k)
  let starve := max 200 (c.rdf (Reg.DRAM_SCHED k) 11 0)
  match l.find? (fun p => starve ≤ (c.now - p.since).toNat) with
  | some p => some p
  | none =>
    let oldest := l.filter (fun p => (l.find? (fun q => q.master == p.master)).map (·.seq) == some p.seq)
    match oldest with
    | [] => none
    | p :: ps =>
      let rank (p : MtxPart) : Nat := 2 * p.qos + b2n (c.rowHit k p)
      some (ps.foldl (fun a b => if rank a < rank b then b else a) p)

/-- Rows opened by the beats of a part. -/
def Chip.openRows (k : Nat) (p : MtxPart) (c : Chip) : Chip :=
  (c.partAddrs p).foldl (fun c a =>
    let (b, r) := c.dramBankRow k (a % 0x1_0000_0000)
    c.setDram k { c.dramSt k with rows := put (c.dramSt k).rows b r }) c

/-- The controller serves one accepted transaction; postponed refreshes are repaid when none waits then (R598). -/
def Dev.dramService (k : Nat) (d : Dev) : Dev :=
  if d.chip.dramState k = 2 then
    match d.chip.dramPick k with
    | some p => ((d.chipOp (Chip.openRows k p)).servePart p).chipOp (·.refreshRepay k)
    | none => d.chipOp (·.refreshRepay k)
  else d

def execDramService (k : Fin 2) (s : State) : Host.Outcome State Fault Refusal := s.onDev (Dev.dramService k)

/-- Entry to self-refresh (R606): every accepted transaction completes first; for an ENGINE reset, after ports 0 to 3 and
6 to 9 have drained. -/
def Dev.selfrefEntry (k : Nat) (d : Dev) : Dev :=
  let want := (d.chip.dramSt k).want
  let drains := want == 2 && (List.range 10).any (fun m => !(m == 4 || m == 5) && d.chip.draining m)
  if d.chip.dramLive k ∧ want ≠ 0 ∧ !drains then
    let l := d.chip.mtx.acc.filter (fun p => p.target == 8 + k)
    (l.foldl (fun d p => d.servePart p) d).chipOp (·.selfrefEnter k want)
  else d

def execSelfrefEntry (k : Fin 2) (s : State) : Host.Outcome State Fault Refusal := s.onDev (Dev.selfrefEntry k)

/-! The release of a BLOCK reset (R619). -/

/-- The block of a page is released once its master port has drained; the writes held for its page reach it in order. -/
def Dev.blockRelease (p : Nat) (d : Dev) : Dev :=
  let port := match pageKind p with
    | some (pk, i) => blockPort pk i
    | none => none
  if d.chip.blkPhase p = 2 ∧ !port.any d.chip.draining then
    let own := d.chip.pwr.blkHeld.filter (fun e => e.1 / 0x1000 == p)
    let d1 := d.chipOp (fun c => c.pwrDo (fun s =>
      { s with blk := drop (· == p) s.blk, blkHeld := s.blkHeld.filter (fun e => e.1 / 0x1000 != p) }))
    own.foldl (fun d e => d.writeReg e.1 e.2) d1
  else d

def execBlockResetRelease (page : Fin 256) (s : State) : Host.Outcome State Fault Refusal :=
  s.onDev (Dev.blockRelease page)

end Sys2Proof.Machine
end

