-- ==== Sys2Proof/Machine/Remote.lean ====
section
/-! DEFINITION. The remote accesses of the cores (R49 to R51, R152, R162): each goes through the bus matrix when its response
returns (log entry 103). -/

namespace Sys2Proof.Machine

/-- The bytes of a remote access: 4 or 8 (R148). -/
def RemoteAccess.size (a : RemoteAccess) : Nat := 4 * (if a.write then a.data.length else a.dests.length)

/-- The access of core `k` through the bus matrix: its outcome and the words it reads, zeros when it fails. -/
def Dev.remoteAccess (k : Nat) (a : RemoteAccess) (d0 : Dev) : Nat × List Word × Dev :=
  let port := corePort k
  match d0.chip.remoteAddr k a.addr.toNat with
  | none => (2, [], d0.chipOp (fun c => c.busError port 15 a.write a.addr.toNat 2))
  | some p =>
    let d := d0.stallOn (d0.chip.mustWait port 0 a.write [p])
    let t := d.chip.beatTarget port a.write p
    let done (r : Nat) (d : Dev) : Dev := d.chipOp (fun c => (c.grantBeats port a.write [p]).busError port t a.write p r)
    if a.write then
      let (r, d1) := d.busWrite port p a.size ((List.range a.size).zip (a.data.flatMap wordBytes))
      (r, [], (done r d1).chipOp (fun c => if isSteward k && r == 0 then c.journalWrite p 4 a.data else c))
    else
      let (r, l, d1) := d.busRead port p a.size
      (r, bytesWords a.dests.length l, done r d1)

/-- The error response of a remote access: a MEC records it (R152); a Steward raises BUS_ERR once the bundle's other
access has completed (R162, R199). -/
def Chip.remoteError (c : Chip) (k : Nat) (a : RemoteAccess) : Chip :=
  if isSteward k then c
  else (c.irq (pgCore k) 2).err (pgCore k) 0x02 (mecInfo a.pc a.addr.toNat)

/-- The words of a response go in flight to the registers of the access; an errored read of a MEC delivers zero (R152), one
of a Steward nothing (R162, R199). -/
def remoteFlights (k : Nat) (a : RemoteAccess) (r : Nat) (ws : List Word) : List Flight :=
  if isSteward k && r != 0 then []
  else a.dests.zipIdx.filterMap (fun e => e.1.map (fun t =>
    { due := a.due, dest := t, val := (if r = 0 then ws[e.2]?.getD 0 else 0).setWidth 80 }))

/-- The places in memory of the words that a remote write of a MEC has stored (R221). -/
def Chip.remoteStores (c : Chip) (k : Nat) (a : RemoteAccess) : List Nat :=
  match c.remoteAddr k a.addr.toNat with
  | some p =>
    (List.range a.data.length).filterMap (fun i =>
      match c.region (p + 4 * i) with
      | .bitSet o | .bitClear o => some (0x2000_0000 + o)
      | r => c.memKey r)
  | none => []

/-- Access `a` of core `k` has its response; `rest` follows it. Where the access itself has reset or stopped the core, nothing
is left to deliver. -/
def Chip.remoteDone (k : Nat) (a : RemoteAccess) (rest : List RemoteAccess) (r : Nat) (ws : List Word) (c : Chip) : Chip :=
  let c1 := if r = 0 then c else c.remoteError k a
  let x := c1.core k
  match x.hold with
  | .remote [] failed =>
    let failed' := if r ≠ 0 ∧ failed.isNone then some a else failed
    let stored := if a.write && r == 0 then c1.remoteStores k a else []
    let c2 := c1.setCore k { x with
      flight := x.flight ++ remoteFlights k a r ws
      dirtyM := stored.filter (fun e => !x.dirtyM.contains e) ++ x.dirtyM
      hold := .remote rest failed' }
    if rest.isEmpty then
      match (if isSteward k then failed' else none) with
      | some f => (c2.setBadaddr k f.addr).exceptionEntry k 0x03 f.pc
      | none => c2.remoteEnd k
    else c2
  | _ => c1

/-- The response of the oldest remote access of core `k` returns (R152): first those that the core has given up (R220); a
Steward whose fetch is answered with an error raises BUS_ERR (R162, R163). -/
def Dev.remoteResponse (k : Nat) (d : Dev) : Dev :=
  let x := d.chip.core k
  match x.orphans with
  | a :: rest =>
    let (r, _, d1) := (d.chipOp (fun c => c.setCore k { x with orphans := rest })).remoteAccess k a
    d1.chipOp (fun c => if r = 0 then c else c.remoteError k a)
  | [] =>
    match x.hold with
    | .remote (a :: rest) failed =>
      let (r, ws, d1) := (d.chipOp (fun c => c.setCore k { x with hold := .remote [] failed })).remoteAccess k a
      d1.chipOp (Chip.remoteDone k a rest r ws)
    | _ =>
      let waits := !d.chip.canIssue k || d.chip.atBreak k || d.chip.fetchWaits k
      if isSteward k && !waits && (d.fetch k).isNone then d.issue k else d

def execRemoteAccessResponse (c : CoreId) (_data : List Word) (_err : Bool) (s : State) : Host.Outcome State Fault Refusal :=
  s.onDev (Dev.orWait (Dev.remoteResponse (coreNum c)))

end Sys2Proof.Machine
end

