-- ==== Sys2Proof/Machine/Mirror.lean ====
section
/-! DEFINITION. How Marigold applies or rejects a received record (R577, R580 to R582). -/

namespace Sys2Proof.Machine

/-- What the data bytes of a record hold (R571): the input words, the journal entries, the state bytes. -/
def recordParts (l : List Byte) : List Word × List (Word × Word) × List Byte :=
  let nin := leAt l 0 2
  let nj := leAt l 2 2
  let at1 := 8 + 4 * nin
  let at2 := at1 + 8 * nj
  (bytesWords nin (l.drop 8),
    (List.range nj).map (fun i => (word (leAt l (at1 + 8 * i) 4), word (leAt l (at1 + 8 * i + 4) 4))),
    (l.drop at2).take (leAt l 4 4))

/-- The inputs of an applied record reach QM of each pair. -/
def Dev.recordPush (ws : List Word) (d : Dev) : Dev :=
  ((List.range d.chip.npair).foldl (fun (x : List Word × Dev) i =>
    let n := x.2.chip.pairQuota i
    (x.1.drop n, (x.1.take n).foldl (fun d w => d.pairPush i w) x.2)) (ws, d)).2

/-- One journal entry is replayed through Marigold's master port (R577). -/
def Dev.replay (d : Dev) (e : Word × Word) : Dev :=
  let a := e.1.toNat
  let d0 := d.stallOn (d.chip.mustWait 12 0 true [a])
  let (r, d1) := d0.busWrite 12 a 4 ((List.range 4).zip (wordBytes e.2))
  d1.chipOp (fun c =>
    let t := (d.chip.region a).target
    let c1 := (c.grantBeats 12 true [a]).busError 12 t true a r
    if r = 0 then c1 else c1.count Reg.MGLD_REPLAY_ERR)

/-- A record is applied as a whole: its inputs, its journal, its state into RXBUF. -/
def Dev.recordApply (r : MirrorRecord) (d : Dev) : Dev :=
  let (ws, js, st) := recordParts r.data
  let d1 := js.foldl Dev.replay (d.recordPush ws)
  let nostate := r.flags.getLsbD 1
  let d2 := if nostate then d1 else d1.stageWrite 2 st
  d2.chipOp (fun c =>
    let c1 := (c.irqIf (r.flags.getLsbD 0) pgMGLD 7).recordLength (recordBytes r.data.length)
    { c1 with mgld := { c1.mgld with
        applied := true, state := if nostate then none else some st.length, finish := none, inputs := some ws } })

/-- A record whose Trailer has arrived is checked (R580): CRC and block count, EPOCH, TICK, the instant CW+0; each tick's
record at most once (R582), none while IDLE_REQ = 1 (R55). -/
def Dev.recordReceived (r : MirrorRecord) (d : Dev) : Dev :=
  let c := d.chip
  let fin := c.mgldRole == 1 && c.mgld.finish == some r.tick
  if !(c.en pgMGLD && (c.mgldReceives || fin)) || c.idleReq pgMGLD then d
  else if r.crc ≠ crc32 r.data ∨ r.blocks ≠ r.data.length / 8 ∨ r.data.length % 8 ≠ 0 then
    d.chipOp (fun c => (c.count Reg.MGLD_RX_CRCERR).irq pgMGLD 4)
  else
    let epoch := if fin then (c.mgldEpoch + 65535) % 65536 else c.mgldEpoch
    let now := c.tick.count.setWidth 32
    if r.epoch.toNat ≠ epoch ∨ !c.tickRuns then d
    else if before r.tick now ∨ (r.tick = now ∧ c.windowOpen) then d.chipOp (fun c => c.count Reg.MGLD_RX_LATE)
    else if r.tick ≠ now ∨ c.mgld.applied then d
    else d.recordApply r

def execRecordReceived (r : MirrorRecord) (s : State) : Host.Outcome State Fault Refusal :=
  s.onDev (Dev.orWait (Dev.recordReceived r))

end Sys2Proof.Machine
end

