-- ==== Sys2Proof/Machine/HostPort.lean ====
section
/-! DEFINITION. The accesses of the Host Port (R635): each word is one transaction on master port 13, which completes
within the command (log entry 11). -/

namespace Sys2Proof.Machine

/-- The physical address of a host address. -/
def Chip.hostAddr (c : Chip) (a : Word) : Nat := c.rdf Reg.HOST_CFG 7 0 * 2 ^ 32 + a.toNat

/-- An access that is not naturally aligned is refused: by the matrix where R43 refuses every access, else by its target
(R44, R319). -/
def Chip.hostAlign (c : Chip) (a : Nat) (write : Bool) : Option Nat :=
  if a % 4 = 0 then none else some (if c.beatTarget 13 write a = 15 then 2 else 1)

/-- The outcome of one word: GRANTS, the matrix's record, HOST_ERR_ADDR and ERR of the status byte. -/
def Chip.hostOutcome (a : Word) (phys r : Nat) (write : Bool) (c : Chip) : Chip :=
  let c1 := (c.grantBeats 13 write [phys]).busError 13 (c.region phys).target write phys r
  if r = 0 then c1 else (c1.wr Reg.HOST_ERR_ADDR a).pwrDo (fun p => { p with hostErr := true })

/-- One word written. -/
def Dev.hostWrite (a w : Word) (d0 : Dev) : Dev :=
  let p := d0.chip.hostAddr a
  let d := d0.stallOn (d0.chip.mustWait 13 0 true [p])
  let (r, d1) := match d.chip.hostAlign p true with
    | some r => (r, d)
    | none => d.busWrite 13 p 4 ((List.range 4).zip (wordBytes w))
  d1.chipOp (fun c =>
    let c1 := c.hostOutcome a p r true
    if r = 0 then c1.journalWrite p 4 [w] else c1)

/-- Words written from address `a` on, which advances by 4 per word. -/
def Dev.hostWrites : List Word → Word → Dev → Dev
  | [], _, d => d
  | w :: t, a, d => Dev.hostWrites t (a + 4) (d.hostWrite a w)

def execHostWriteWords (a : Word) (ws : List Word) (s : State) : Host.Outcome State Fault Refusal :=
  s.onDev (fun d => if d.chip.hostOn then d.orWait (Dev.hostWrites ws a) else d)

/-- One word read: 0xA5 and the word, or 0xE7 and zeros after an error. -/
def Dev.hostRead (a : Word) (d0 : Dev) : Dev :=
  let p := d0.chip.hostAddr a
  let d := d0.stallOn (d0.chip.mustWait 13 0 false [p])
  let (r, l, d1) := match d.chip.hostAlign p false with
    | some r => (r, [], d)
    | none => d.busRead 13 p 4
  d1.chipOp (fun c =>
    let v := if r = 0 then word (bytesNat l) else 0
    let c1 := c.hostOutcome a p r false
    { c1 with rdata := v, rwords := c1.rwords ++ [if r = 0 then 0xA5 else 0xE7, v] })

def Dev.hostReads : Nat → Word → Dev → Dev
  | 0, _, d => d
  | n + 1, a, d => Dev.hostReads n (a + 4) (d.hostRead a)

def execHostReadWords (a : Word) (n : Nat) (s : State) : Host.Outcome State Fault Refusal :=
  s.onDev (fun d =>
    if d.chip.hostOn then d.orWait (fun d => (d.chipOp (fun c => { c with rwords := [] })).hostReads n a) else d)

end Sys2Proof.Machine
end

