-- ==== Sys2Proof/Machine/CourierRun.lean ====
section
/-! DEFINITION. The instructions of the Courier channels (R278 to R303). Every access of a channel completes within its
command (log entry 11); a command with an access that has to wait does nothing and comes again (log entry 125). -/

namespace Sys2Proof.Machine

/-! Accesses of channel `n` (R275, R282). -/

/-- The master port of a channel. -/
def chanPort (n : Nat) : Nat := 6 + n / 8

/-- A region that accepts only 32-bit accesses (R44). -/
def Region.wordOnly : Region → Bool
  | .page _ _ | .patch _ | .dmix _ | .queueRam _ | .bitSet _ | .bitClear _ => true
  | .mec _ o => decide (0xF_0000 ≤ o)
  | _ => false

/-- The largest naturally aligned access of up to 32 bytes at `a` that takes no more than `k` bytes. -/
def aligned (a k : Nat) : Nat := ([32, 16, 8, 4, 2].find? (fun n => a % n == 0 && decide (n ≤ k))).getD 1

/-- How many of `k` bytes from `a` one access of a divided side takes; one word where only words are accepted (R282). -/
def Chip.piece (c : Chip) (a k : Nat) : Nat :=
  if k = 0 then 0 else if (c.region a).wordOnly then min k (4 - a % 4) else aligned a k

/-- Whether an address lies in a bank under test. -/
def Chip.bistAt (c : Chip) (a : Nat) : Bool :=
  match c.region a with
  | .bank o | .bitSet o | .bitClear o => c.underTest (o / 0x8_0000)
  | _ => false

/-- One access answered: its grant and its error at the matrix, and Plain Mode once it met a bank under test (R93). -/
def Chip.chanAccess (n a : Nat) (write : Bool) (r : Nat) (c : Chip) : Chip :=
  let c1 := (c.grantBeats (chanPort n) write [a]).busError (chanPort n) (c.region a).target write a r
  if c.bistAt a then c1.setChan n { c1.chan n with bist := true } else c1

/-- One read access. -/
def Dev.chanRead1 (n a k : Nat) (d : Dev) : Nat × List Byte × Dev :=
  let (r, l, d1) := (d.stallOn (d.chip.mustWait (chanPort n) n false [a])).busRead (chanPort n) a k
  (r, l, d1.chipOp (Chip.chanAccess n a false r))

/-- One write access. -/
def Dev.chanWrite1 (n a : Nat) (l : List Byte) (d : Dev) : Nat × Dev :=
  let (r, d1) := (d.stallOn (d.chip.mustWait (chanPort n) n true [a])).busWrite (chanPort n) a l.length
    ((List.range l.length).zip l)
  (r, d1.chipOp (Chip.chanAccess n a true r))

/-- A read of `k` bytes divided into accesses: the address of the first that fails, or the bytes. -/
def Dev.chanReads : Nat → Nat → Nat → Nat → Dev → Option Nat × List Byte × Dev
  | 0, _, _, _, d => (none, [], d)
  | fuel + 1, n, a, k, d =>
    if k = 0 then (none, [], d)
    else
      let p := d.chip.piece a k
      let (r, l, d1) := d.chanRead1 n a p
      if r ≠ 0 then (some a, [], d1)
      else
        let (e, l2, d2) := Dev.chanReads fuel n ((a + p) % 2 ^ 40) (k - p) d1
        (e, l ++ l2, d2)

/-- A write divided into accesses: the address of the first that fails. -/
def Dev.chanWrites : Nat → Nat → Nat → List Byte → Dev → Option Nat × Dev
  | 0, _, _, _, d => (none, d)
  | fuel + 1, n, a, l, d =>
    if l.isEmpty then (none, d)
    else
      let p := d.chip.piece a l.length
      let (r, d1) := d.chanWrite1 n a (l.take p)
      if r ≠ 0 then (some a, d1) else Dev.chanWrites fuel n ((a + p) % 2 ^ 40) (l.drop p) d1

/-! Running an instruction. -/

/-- The instruction ends: the channel goes to the offset `pc`. -/
def Chip.chanTo (n pc : Nat) (c : Chip) : Chip :=
  (c.setChan n { c.chan n with started := false, done := 0, limit := 0, popped := [], fence := false }).wr (Reg.CUR_CH_PC n)
    (word pc)

/-- The program counter. -/
def Chip.chanPc (c : Chip) (n : Nat) : Nat := (c.rd (Reg.CUR_CH_PC n)).toNat

/-- The next instruction in memory. -/
def Chip.chanNext (n : Nat) (c : Chip) : Chip := c.chanTo n (c.chanPc n + 8)

/-- Whether a channel may begin an instruction: RUN, nothing awaited, EN = 1 (R306), not in Quiet (R305). -/
def Chip.chanMayStart (c : Chip) (n : Nat) : Bool :=
  c.chanState n == 1 && c.en (chanPage n) && c.rdf Reg.CLKPWR_PSTAT 1 0 == 0 && !(c.chan n).stop && !(c.chan n).fence

/-- The fetch of the instruction at the program counter (R278). -/
def Dev.chanFetch (n : Nat) (d : Dev) : Dev :=
  let pc := d.chip.chanPc n
  let a := 0x2000_0000 + pc
  if 0x200_0000 ≤ pc then d.chipOp (fun c => c.chanError n 0 0x05 a)
  else
    let (r, l, d1) := d.chanRead1 n a 8
    if r ≠ 0 then d1.chipOp (fun c => c.chanError n 0 0x05 a)
    else d1.chipOp (fun c => c.setChan n { c.chan n with
      instr := BitVec.ofNat 64 (bytesNat l), started := true, done := 0, limit := 0, popped := [], table := [] })

/-- What the instruction's own rule stops before it starts: an ILLEGAL case (R279). -/
def Chip.chanIllegal (c : Chip) (n : Nat) : Bool :=
  let w := (c.chan n).instr
  match ifld w 63 60 with
  | 0x1 =>
    let side (m p : Nat) : Bool := m == 3 || (m != 2 && c.curPtr n p % 4 != 0)
    side (ifld w 53 52) (ifld w 59 57) || side (ifld w 51 50) (ifld w 56 54) || ifld w 31 0 % 4 != 0 ||
      (ifld w 48 48 == 1 && decide (8 ≤ ifld w 47 43))
  | 0x2 | 0x3 => ifld w 50 49 == 3 || ifld w 47 46 == 3
  | 0x4 => ifld w 11 0 == 0 || decide ((c.chanPc n - c.rdf (Reg.CUR_CH_PROG n) 24 3 * 8) / 8 < ifld w 11 0)
  | 0x5 =>
    match ifld w 59 57 with
    | 0 => decide (6 ≤ ifld w 2 0)
    | 1 | 2 | 3 => false
    | 4 => decide (8 ≤ ifld w 4 0)
    | _ => true
  | 0x6 => ifld w 59 58 == 3
  | 0x0 | 0x7 | 0x8 | 0x9 => false
  | _ => true

/-- What Plain Mode refuses (R300). -/
def plainRefuses (w : BitVec 64) : Bool :=
  match ifld w 63 60 with
  | 0x2 | 0x3 => true
  | 0x8 => ifld w 56 56 == 1
  | 0x9 => ifld w 56 56 == 1
  | _ => false

/-- The address that an ILLEGAL or refused instruction records: its own. -/
def Chip.chanHere (c : Chip) (n : Nat) : Nat := 0x2000_0000 + c.chanPc n

/-- Channel `n` executes an instruction of an opcode that satisfies `p` by `run`: one in progress goes on; else the next
one is fetched and checked first. Nothing happens while an access has to wait. -/
def Dev.chanExec (n : Nat) (p : Nat → Bool) (run : Dev → Dev) : Dev → Dev := Dev.orWait fun d =>
  let c := d.chip
  if (c.chan n).started then
    (if c.chanState n = 1 ∧ !(c.chan n).fence ∧ !(c.chan n).stop ∧ p (c.chanOp n) then run d else d)
  else if !c.chanMayStart n then d
  else
    let d1 := d.chanFetch n
    if d1.chip.chanState n ≠ 1 then d1
    else
      let op := d1.chip.chanOp n
      let w := (d1.chip.chan n).instr
      if !p op then d
      else if d1.chip.chanIllegal n then d1.chipOp (fun c => c.chanError n op 0x02 (c.chanHere n))
      else if d1.chip.plainEff n && plainRefuses w then d1.chipOp (fun c => c.chanError n op 0x03 (c.chanHere n))
      else run d1

/-- The command of one opcode. -/
def Dev.chanDo (op n : Nat) (run : Dev → Dev) (d : Dev) : Dev := d.chanExec n (· == op) run

/-- Bytes delivered to a destination side (R307). -/
def Chip.chanMoved (n k : Nat) (c : Chip) : Chip := c.countBy (Reg.CUR_CH_MOVED n) k

/-- The channel waits for a credit (R276, R308). -/
def Chip.chanHold (n : Nat) (c : Chip) : Chip := (c.wrf (Reg.CUR_CH_STAT n) 7 5 7).setChanState n 2

/-- One word popped for the source side. -/
def Dev.chanPop (n q : Nat) (d : Dev) : Dev :=
  match d.pop q 3 n with
  | (.served, w, d1) => d1.chipOp (fun c => c.setChan n { c.chan n with popped := (c.chan n).popped ++ [w] })
  | (.waits, _, d1) => d1.chipOp (Chip.chanHold n)
  | (.refused, _, d1) => d1.chipOp (fun c => c.chanError n (c.chanOp n) 0x06 q)

/-- One word pushed to the destination side, then `f`. -/
def Dev.chanPush (n q : Nat) (w : Word) (f : Chip → Chip) (d : Dev) : Dev :=
  match d.push q 3 n w with
  | (.served, d1) => d1.chipOp f
  | (.waits, d1) => d1.chipOp (Chip.chanHold n)
  | (.refused, d1) => d1.chipOp (fun c => c.chanError n (c.chanOp n) 0x06 q)

/-- An error response to a data access (R301). -/
def Dev.chanBusErr (n a : Nat) (d : Dev) : Dev := d.chipOp (fun c => c.chanError n (c.chanOp n) 0x04 a)

/-- Bytes read for the source side, kept as words. -/
def Chip.chanTook (n : Nat) (l : List Byte) (c : Chip) : Chip :=
  c.setChan n { c.chan n with popped := bytesWords (ceilDiv l.length 4) l }

/-! MOVE (R283 to R286). -/

/-- The fields of a MOVE: pointers, modes, LEN. -/
structure MoveOp where
  sp  : Nat
  dp  : Nat
  sm  : Nat
  dm  : Nat
  src : Nat
  dst : Nat
  len : Nat
deriving DecidableEq, Repr

def Chip.moveOp (c : Chip) (n : Nat) : MoveOp :=
  let w := (c.chan n).instr
  { sp := ifld w 59 57, dp := ifld w 56 54, sm := ifld w 53 52, dm := ifld w 51 50
    src := c.curPtr n (ifld w 59 57), dst := c.curPtr n (ifld w 56 54), len := ifld w 31 0 }

/-- Where a side stands after `k` bytes. -/
def sideAt (mode ptr k : Nat) : Nat := if mode = 0 then (ptr + k) % 2 ^ 40 else ptr

/-- How many bytes one access of a side takes at `a` when `k` are left. -/
def Chip.sideUnit (c : Chip) (mode a k : Nat) : Nat := if mode = 0 then c.piece a k else min 4 k

/-- The bytes a side of a MOVE touches: base and length; none for a queue. -/
def sideRange (mode ptr len : Nat) : Nat × Nat := if mode = 0 then (ptr, len) else if mode = 1 then (ptr, 4) else (0, 0)

/-- Where the byte of an address stands: the zero window and the aliases show bytes of other places (R47, R85). -/
def Chip.byteHome (c : Chip) (a : Nat) : Nat :=
  match c.region a with
  | .bank o | .bitSet o | .bitClear o => 0x2000_0000 + o
  | .bootRom o => 0x1000_0000 + o
  | _ => a % 2 ^ 40

/-- Whether the byte at `a` is one of a range. -/
def Chip.inRange (c : Chip) (a : Nat) (r : Nat × Nat) : Bool :=
  decide ((c.byteHome a + 2 ^ 40 - c.byteHome r.1) % 2 ^ 40 < r.2)

/-- Which of the `u` bytes of a unit, from byte `k` on, belong to an overlap of source and destination (R303): the bytes
that are written over a byte of the source, and those read from a byte of the destination. -/
def Chip.moveLap (c : Chip) (m : MoveOp) (k u : Nat) : List Bool :=
  (List.range u).map (fun i =>
    (m.dm != 2 && m.sm != 2) &&
      (c.inRange (sideAt m.dm m.dst k + i) (sideRange m.sm m.src m.len) ||
        c.inRange (sideAt m.sm m.src k + i) (sideRange m.dm m.dst m.len)))

/-- Bytes of which some are undefined. -/
def Chip.lapBytes (c : Chip) (a : Nat) (lap : List Bool) (l : List Byte) : List Byte :=
  ((lap.zip l).zipIdx).map (fun e => if e.1.1 then Config.undefByte c.freeCtr (a + e.2) else e.1.2)

/-- One access of a MOVE: a word popped or a piece read into the channel; or, once a unit stands there, its write. -/
def Dev.moveStep (n : Nat) (m : MoveOp) (d : Dev) : Dev :=
  let c := d.chip
  let x := c.chan n
  let left := x.limit - x.done
  let sa := sideAt m.sm m.src x.done
  let da := sideAt m.dm m.dst x.done
  let u := min (c.sideUnit m.dm da left) (if m.sm = 2 then left else c.sideUnit m.sm sa left)
  let wrote (k : Nat) (c : Chip) : Chip :=
    (c.setChan n { c.chan n with done := x.done + k, popped := [] }).chanMoved n k
  if 4 * x.popped.length < u then
    if m.sm = 2 then d.chanPop n (m.src % 1024)
    else
      match d.chanReads (u + 1) n sa u with
      | (some e, _, d1) => d1.chanBusErr n e
      | (none, l, d1) => d1.chipOp (Chip.chanTook n l)
  else if m.dm = 2 then d.chanPush n (m.dst % 1024) (x.popped.head?.getD 0) (wrote 4)
  else
    let lap := c.moveLap m x.done u
    let l := c.lapBytes da lap ((x.popped.flatMap wordBytes).take u)
    let d0 := if lap.contains true then d.chipOp Chip.freeNext else d
    match d0.chanWrites (u + 1) n da l with
    | (some e, d1) => d1.chanBusErr n e
    | (none, d1) => d1.chipOp (wrote u)

/-- A MOVE goes on until its burst or the whole is done, a queue holds it or an error stops it. -/
def Dev.moveRun : Nat → Nat → MoveOp → Dev → Dev
  | 0, _, _, d => d
  | fuel + 1, n, m, d =>
    if d.chip.chanState n ≠ 1 ∨ (d.chip.chan n).limit ≤ (d.chip.chan n).done then d
    else Dev.moveRun fuel n m (d.moveStep n m)

/-- UPD of a MOVE: each INC pointer advances by LEN, one pointer named twice once. -/
def Chip.moveEnd (n : Nat) (m : MoveOp) (c : Chip) : Chip :=
  let adv (p : Nat) (c : Chip) : Chip := c.setCurPtr n p ((c.curPtr n p + m.len) % 2 ^ 40)
  let upd := ifld (c.chan n).instr 49 49 == 1
  let c1 := if upd && m.sm == 0 then adv m.sp c else c
  let c2 := if upd && m.dm == 0 && !(m.sm == 0 && m.sp == m.dp) then adv m.dp c1 else c1
  c2.chanNext n

/-- Whether a MOVE is the no-op of R303. -/
def MoveOp.idle (m : MoveOp) : Bool := m.sm == 1 && m.dm == 1 && m.src == m.dst

/-- The part of a MOVE up to byte `limit` runs; at the end of the whole the instruction ends. -/
def Dev.moveTo (n limit : Nat) (d : Dev) : Dev :=
  let m := d.chip.moveOp n
  let d1 := d.chipOp (fun c => c.setChan n { c.chan n with limit := limit })
  let d2 := Dev.moveRun (m.len + 2) n m d1
  if d2.chip.chanState n = 1 ∧ m.len ≤ (d2.chip.chan n).done then d2.chipOp (Chip.moveEnd n m) else d2

/-- MOVE: a move without REQ runs whole; with REQ it goes on with a burst in progress, else it waits for a burst
decision (R284). -/
def Dev.curMove (n : Nat) (d : Dev) : Dev :=
  let m := d.chip.moveOp n
  let x := d.chip.chan n
  if m.len = 0 ∨ m.idle then d.chipOp (Chip.moveEnd n m)
  else if ifld x.instr 48 48 = 0 then d.moveTo n m.len
  else if x.done < x.limit then d.moveTo n x.limit
  else d

def execCourierMove (c : Fin 32) (s : State) : Host.Outcome State Fault Refusal :=
  s.onDev (Dev.chanDo 1 c (Dev.curMove c))

/-- A burst decision (R284): with the request line asserted, the next burst is issued. -/
def Dev.burstDecide (n : Nat) (d : Dev) : Dev :=
  let x := d.chip.chan n
  if x.started ∧ d.chip.chanState n = 1 ∧ d.chip.chanOp n = 1 ∧ ifld x.instr 48 48 = 1 ∧ x.limit ≤ x.done ∧
      d.chip.reqLine (ifld x.instr 47 43) then
    d.moveTo n (min (d.chip.moveOp n).len (x.done + 32 * 2 ^ ifld x.instr 41 40))
  else d

def execBurstDecision (c : Fin 32) (s : State) : Host.Outcome State Fault Refusal := s.onDev (Dev.orWait (Dev.burstDecide c))

/-! GATHER and SCATTER (R287, R288). -/

/-- The fields of a GATHER or SCATTER; sizes in bytes. -/
structure GatherOp where
  scatter : Bool
  tp   : Nat
  bp   : Nat
  xp   : Nat
  xm   : Nat
  tbl  : Nat
  base : Nat
  side : Nat
  ent  : Nat
  esz  : Nat
  wrap : Bool
  cnt  : Nat
deriving DecidableEq, Repr

def Chip.gatherOp (c : Chip) (n : Nat) : GatherOp :=
  let w := (c.chan n).instr
  let ent := if ifld w 48 48 = 1 then 4 else 2
  { scatter := ifld w 63 60 == 3, tp := ifld w 59 57, bp := ifld w 56 54, xp := ifld w 53 51, xm := ifld w 50 49
    tbl := c.curPtr n (ifld w 59 57) / ent * ent, base := c.curPtr n (ifld w 56 54), side := c.curPtr n (ifld w 53 51)
    ent := ent, esz := 4 * 2 ^ ifld w 47 46, wrap := ifld w 44 44 == 1, cnt := ifld w 15 0 }

/-- Index `e` of the table: as its line was read, or, of a line not read yet, as the memory holds it (R288). -/
def Dev.gatherIndex (d : Dev) (n : Nat) (g : GatherOp) (e : Nat) : Nat :=
  let o := g.tbl % 32 + e * g.ent
  bytesNat ((List.range g.ent).map (fun i =>
    ((d.chip.chan n).table[o + i]?).getD (d.physByte ((g.tbl + e * g.ent + i) % 2 ^ 40))))

/-- The address of the element with index `x`. -/
def Chip.gatherAddr (c : Chip) (n : Nat) (g : GatherOp) (x : Nat) : Nat :=
  let a := if g.wrap then c.inRing n (g.base + x * g.esz : Nat) else (g.base + x * g.esz) % 2 ^ 40
  a / g.esz * g.esz

/-- The bytes that element `e` occupies on its XP side. -/
def GatherOp.sideOf (g : GatherOp) (e : Nat) : Nat × Nat :=
  match g.xm with
  | 0 => ((g.side + e * g.esz) % 2 ^ 40, g.esz)
  | 1 => (g.side / g.esz * g.esz, g.esz)
  | _ => (0, 0)

/-- Which bytes of element `e`, at address `a`, belong to an overlap of source and destination (R303). -/
def Dev.gatherLap (d : Dev) (n : Nat) (g : GatherOp) (e a : Nat) : List Bool :=
  let c := d.chip
  let whole : Nat × Nat := if g.xm = 0 then (g.side, g.cnt * g.esz) else g.sideOf 0
  let elems := (List.range g.cnt).map (fun i => (c.gatherAddr n g (d.gatherIndex n g i), g.esz))
  (List.range g.esz).map (fun i =>
    g.xm != 2 && (c.inRange (a + i) whole || elems.any (c.inRange ((g.sideOf e).1 + i))))

/-- The line of the table that holds entry `e` is read when the entries reach it (R288); the address when that fails. -/
def Dev.gatherLine (n : Nat) (g : GatherOp) (e : Nat) (d : Dev) : Option Nat × Dev :=
  let a := (g.tbl + e * g.ent) % 2 ^ 40
  if e = 0 ∨ a % 32 = 0 then
    let (r, l, d1) := d.chanRead1 n (a / 32 * 32) 32
    (if r = 0 then none else some (a / 32 * 32),
      d1.chipOp (fun c => c.setChan n { c.chan n with table := (c.chan n).table ++ l }))
  else (none, d)

/-- Element done. -/
def Chip.gatherNext (n : Nat) (c : Chip) : Chip := c.setChan n { c.chan n with done := (c.chan n).done + 1, popped := [] }

/-- The bytes of element `e` for its destination: those taken, undefined in an overlap. -/
def Dev.gatherBytes (n : Nat) (g : GatherOp) (e a dst : Nat) (d : Dev) : List Byte × Dev :=
  let lap := d.gatherLap n g e a
  (d.chip.lapBytes dst lap (((d.chip.chan n).popped.flatMap wordBytes).take g.esz),
    if lap.contains true then d.chipOp Chip.freeNext else d)

/-- An element written to memory: by one access where it is indexed or at a fixed address, else divided. -/
def Dev.gatherWrite (n : Nat) (g : GatherOp) (dst : Nat) (l : List Byte) (whole : Bool) (d : Dev) : Dev :=
  let (e, d1) := if whole then
      (let (r, d1) := d.chanWrite1 n dst l
       ((if r = 0 then none else some dst : Option Nat), d1))
    else d.chanWrites (g.esz + 1) n dst l
  match e with
  | some a => d1.chanBusErr n a
  | none => d1.chipOp (fun c => (c.gatherNext n).chanMoved n g.esz)

/-- An element read from memory. -/
def Dev.gatherRead (n : Nat) (g : GatherOp) (src : Nat) (whole : Bool) (d : Dev) : Dev :=
  let (e, l, d1) := if whole then
      (let (r, l, d1) := d.chanRead1 n src g.esz
       ((if r = 0 then none else some src : Option Nat), l, d1))
    else d.chanReads (g.esz + 1) n src g.esz
  match e with
  | some a => d1.chanBusErr n a
  | none => d1.chipOp (Chip.chanTook n l)

/-- One access of a GATHER. -/
def Dev.gatherStep (n : Nat) (g : GatherOp) (d : Dev) : Dev :=
  let x := d.chip.chan n
  let e := x.done
  let a := d.chip.gatherAddr n g (d.gatherIndex n g e)
  if x.popped.isEmpty then
    match d.gatherLine n g e with
    | (some b, d1) => d1.chanBusErr n b
    | (none, d1) => d1.gatherRead n g (d1.chip.gatherAddr n g (d1.gatherIndex n g e)) true
  else if g.xm = 2 then
    d.chanPush n (g.side % 1024) (x.popped.head?.getD 0) (fun c =>
      let rest := (c.chan n).popped.drop 1
      (if rest.isEmpty then c.gatherNext n else c.setChan n { c.chan n with popped := rest }).chanMoved n 4)
  else
    let dst := (g.sideOf e).1
    let (l, d1) := d.gatherBytes n g e a dst
    d1.gatherWrite n g dst l (g.xm == 1)

/-- One access of a SCATTER. -/
def Dev.scatterStep (n : Nat) (g : GatherOp) (d : Dev) : Dev :=
  let x := d.chip.chan n
  let e := x.done
  if 4 * x.popped.length < g.esz then
    if g.xm = 2 then d.chanPop n (g.side % 1024) else d.gatherRead n g (g.sideOf e).1 (g.xm == 1)
  else
    match d.gatherLine n g e with
    | (some b, d1) => d1.chanBusErr n b
    | (none, d1) =>
      let a := d1.chip.gatherAddr n g (d1.gatherIndex n g e)
      let (l, d2) := d1.gatherBytes n g e a a
      d2.gatherWrite n g a l true

/-- The elements are served in table order until a queue holds the channel or an error stops it; forced Plain Mode stops
it at an element boundary (R300). -/
def Dev.gatherRun : Nat → Nat → GatherOp → Dev → Dev
  | 0, _, _, d => d
  | fuel + 1, n, g, d =>
    let x := d.chip.chan n
    if d.chip.chanState n ≠ 1 ∨ g.cnt ≤ x.done then d
    else if x.popped.isEmpty && d.chip.plainForced n then
      d.chipOp (fun c => c.chanError n (c.chanOp n) 0x03 (c.chanHere n))
    else Dev.gatherRun fuel n g (if g.scatter then d.scatterStep n g else d.gatherStep n g)

/-- UPD: the table pointer advances by its entries, an INC side by its elements. -/
def Chip.gatherEnd (n : Nat) (g : GatherOp) (c : Chip) : Chip :=
  let upd := ifld (c.chan n).instr 45 45 == 1
  let adv (p k : Nat) (c : Chip) : Chip := c.setCurPtr n p ((c.curPtr n p + k) % 2 ^ 40)
  let c1 := if upd then adv g.tp (g.cnt * g.ent) c else c
  (if upd && g.xm == 0 then adv g.xp (g.cnt * g.esz) c1 else c1).chanNext n

def Dev.curGather (n : Nat) (d : Dev) : Dev :=
  let g := d.chip.gatherOp n
  let d1 := Dev.gatherRun (g.cnt * 12 + 2) n g d
  if d1.chip.chanState n = 1 ∧ g.cnt ≤ (d1.chip.chan n).done then d1.chipOp (Chip.gatherEnd n g) else d1

def execCourierGather (c : Fin 32) (s : State) : Host.Outcome State Fault Refusal :=
  s.onDev (Dev.chanDo 2 c (Dev.curGather c))

def execCourierScatter (c : Fin 32) (s : State) : Host.Outcome State Fault Refusal :=
  s.onDev (Dev.chanDo 3 c (Dev.curGather c))

/-! LOOP, WAIT and SIGNAL (R289 to R292). -/

/-- LOOP: the counters stand in CURn_CHi_LOOP, the active bits in STAT. An active level without a count repeats
forever. -/
def Chip.curLoop (n : Nat) (c : Chip) : Chip :=
  let w := (c.chan n).instr
  let l := ifld w 59 59
  let cnt := ifld w 31 16
  let active := c.rdb (Reg.CUR_CH_STAT n) (20 + l)
  let cur := c.rdf (Reg.CUR_CH_LOOP n) (16 * l + 15) (16 * l)
  let set (a : Bool) (v : Nat) : Chip :=
    (c.wrb (Reg.CUR_CH_STAT n) (20 + l) a).wrf (Reg.CUR_CH_LOOP n) (16 * l + 15) (16 * l) v
  let back (c : Chip) : Chip := c.chanTo n (c.chanPc n - 8 * ifld w 11 0)
  if active then
    if cur = 0 then back c else if cur = 1 then (set false 0).chanNext n else back (set true (cur - 1))
  else if cnt = 0 then back (set true 0)
  else if cnt = 1 then c.chanNext n
  else back (set true (cnt - 1))

def execCourierLoop (c : Fin 32) (s : State) : Host.Outcome State Fault Refusal :=
  s.onDev (Dev.chanDo 4 c (Dev.chipOp · (Chip.curLoop c)))

/-- The pulse that a WAIT of kind 0 or 3 awaits. -/
def waitPulse (w : BitVec 64) : Nat := if ifld w 59 57 = 0 then ifld w 2 0 else 16 + ifld w 3 0

/-- Whether a lower-numbered channel waits on flag `f` (R291). -/
def Chip.flagTaken (c : Chip) (n f : Nat) : Bool :=
  (List.range n).any (fun m =>
    let w := (c.chan m).instr
    c.chanState m == 2 && c.rdf (Reg.CUR_CH_STAT m) 7 5 == 2 && ifld w 4 0 == f)

/-- Whether the condition of the WAIT holds (R290). -/
def Chip.waitHolds (c : Chip) (n : Nat) : Bool :=
  let w := (c.chan n).instr
  match ifld w 59 57 with
  | 1 =>
    let q := ifld w 9 0
    let k : Int := max 1 (ifld w 31 16)
    !c.qEnabled q || decide (k ≤ if ifld w 56 56 = 0 then (c.queue q).pcred else (c.queue q).ccred)
  | 2 => bit c.curFlags (ifld w 4 0) && !c.flagTaken n (ifld w 4 0)
  | 4 => c.reqLine (ifld w 4 0)
  | _ => decide ((c.chan n).mark < look 0 c.hub.pulse (waitPulse w))

/-- The channel goes on after its WAIT; it takes the flag. -/
def Chip.waitDone (n : Nat) (c : Chip) : Chip :=
  let w := (c.chan n).instr
  let c1 := if ifld w 59 57 = 2 then c.wr (Reg.CUR_FLAGS 0) (setBit c.curFlags (ifld w 4 0) false) else c
  ((c1.wrf (Reg.CUR_CH_STAT n) 7 5 0).setChanState n 1).chanNext n

/-- WAIT begins. -/
def Chip.curWait (n : Nat) (c : Chip) : Chip :=
  let w := (c.chan n).instr
  let c1 := c.setChan n { c.chan n with mark := look 0 c.hub.pulse (waitPulse w) }
  if c1.waitHolds n then c1.waitDone n else (c1.wrf (Reg.CUR_CH_STAT n) 7 5 (ifld w 59 57)).setChanState n 2

def execCourierWait (c : Fin 32) (s : State) : Host.Outcome State Fault Refusal :=
  s.onDev (Dev.chanDo 5 c (Dev.chipOp · (Chip.curWait c)))

/-- The awaited condition holds: the channel resumes. -/
def Chip.curWaitEnd (n : Nat) (c : Chip) : Chip :=
  if c.chanState n = 2 ∧ c.rdf (Reg.CUR_CH_STAT n) 7 5 ≠ 7 ∧ c.waitHolds n then c.waitDone n else c

def execCourierWaitEnd (c : Fin 32) (s : State) : Host.Outcome State Fault Refusal := s.onChip (Chip.curWaitEnd c)

/-- SIGNAL, once every write of the channel has been accepted (R292). -/
def Dev.curSignal (n : Nat) (d0 : Dev) : Dev :=
  let d := d0.stallOn (d0.chip.mtx.held.any (fun t => t.write && t.master.val == chanPort n && t.chan.val == n))
  let w := (d.chip.chan n).instr
  let arg := ifld w 41 32
  let val := ifld w 31 0
  match ifld w 59 58 with
  | 0 => d.chipOp (fun c => (c.flagSet (word (2 ^ (arg % 32)))).chanNext n)
  | 1 => d.chipOp (fun c => ((c.wr (Reg.CUR_CH_SIG n) (word (val % 256))).chanIrq n 1).chanNext n)
  | _ => d.chanPush n arg (word val) (Chip.chanNext n)

def execCourierSignal (c : Fin 32) (s : State) : Host.Outcome State Fault Refusal :=
  s.onDev (Dev.chanDo 6 c (Dev.curSignal c))

/-! FENCE, STOP and the pointers (R279, R293 to R295). -/

/-- FENCE begins to wait. -/
def Chip.curFence (n : Nat) (c : Chip) : Chip := c.setChan n { c.chan n with fence := true }

def execCourierFence (c : Fin 32) (s : State) : Host.Outcome State Fault Refusal :=
  s.onDev (Dev.chanDo 7 c (Dev.chipOp · (Chip.curFence c)))

/-- Every write of the channel has its response: a fenced channel goes on. -/
def Chip.fenceDone (n : Nat) (c : Chip) : Chip :=
  if c.chanState n = 1 ∧ (c.chan n).fence ∧ !c.chanWrites n then c.chanNext n else c

def execFenceDone (c : Fin 32) (s : State) : Host.Outcome State Fault Refusal := s.onChip (Chip.fenceDone c)

/-- STOP begins to wait. -/
def Chip.curStop (n : Nat) (c : Chip) : Chip := c.setChan n { c.chan n with stop := true }

def execCourierStop (c : Fin 32) (s : State) : Host.Outcome State Fault Refusal :=
  s.onDev (Dev.chanDo 0 c (Dev.chipOp · (Chip.curStop c)))

/-- Every write of a stopping channel has its response: DONE. -/
def Chip.channelDone (n : Nat) (c : Chip) : Chip :=
  if c.chanState n = 1 ∧ (c.chan n).stop ∧ !c.chanWrites n then
    ((c.setChan n { c.chan n with started := false, stop := false }).setChanState n 3).chanIrq n 0
  else c

def execChannelDone (c : Fin 32) (s : State) : Host.Outcome State Fault Refusal := s.onChip (Chip.channelDone c)

/-- LDPTR (R294): with MEM = 1 it waits for every write response first (R293). -/
def Dev.curLdptr (n : Nat) (d0 : Dev) : Dev :=
  let w := (d0.chip.chan n).instr
  let d := d0.stallOn (ifld w 56 56 == 1 && d0.chip.chanWrites n)
  let p := ifld w 59 57
  if ifld w 56 56 = 0 then d.chipOp (fun c => (c.setCurPtr n p (ifld w 39 0)).chanNext n)
  else
    let a := d.chip.curPtr n (ifld w 55 53) / 8 * 8
    let (r, l, d1) := d.chanRead1 n a 8
    if r ≠ 0 then d1.chanBusErr n a
    else d1.chipOp (fun c => (c.setCurPtr n p (bytesNat l % 2 ^ 40)).chanNext n)

def execCourierLdptr (c : Fin 32) (s : State) : Host.Outcome State Fault Refusal :=
  s.onDev (Dev.chanDo 8 c (Dev.curLdptr c))

/-- ADDPTR. -/
def Chip.curAddptr (n : Nat) (c : Chip) : Chip :=
  let w := (c.chan n).instr
  let p := ifld w 59 57
  let s : Int := (c.curPtr n p : Int) + (word (ifld w 31 0)).toInt
  (c.setCurPtr n p (if ifld w 56 56 = 1 then c.inRing n s else (s % 2 ^ 40).toNat)).chanNext n

def execCourierAddptr (c : Fin 32) (s : State) : Host.Outcome State Fault Refusal :=
  s.onDev (Dev.chanDo 9 c (Dev.chipOp · (Chip.curAddptr c)))

/-- A reserved opcode: ILLEGAL (R279). -/
def execCourierReservedOpcode (c : Fin 32) (s : State) : Host.Outcome State Fault Refusal :=
  s.onDev (Dev.chanExec c (fun op => decide (10 ≤ op)) id)

end Sys2Proof.Machine
end

