-- ==== Sys2Proof/Machine/CtOps.lean ====
section
/-! DEFINITION. The operations of the CT slot (R188 to R199): each is the issue of the bundle at PC whose CT slot
holds it. -/

namespace Sys2Proof.Machine

/-- Whether the CT slot holds operation `op`. -/
def Bundle.hasCt (op : Nat) (b : Bundle) : Bool := ctOp b.ct == op

/-- ADD (R191, R192). -/
def execAdd (c : CoreId) (s : State) : Host.Outcome State Fault Refusal :=
  s.onDev (fun d => d.issueOp (coreNum c) (Bundle.hasCt 0x1))

/-- SUB (R191, R192). -/
def execSub (c : CoreId) (s : State) : Host.Outcome State Fault Refusal :=
  s.onDev (fun d => d.issueOp (coreNum c) (Bundle.hasCt 0x2))

/-- NEG (R191, R192). -/
def execNeg (c : CoreId) (s : State) : Host.Outcome State Fault Refusal :=
  s.onDev (fun d => d.issueOp (coreNum c) (Bundle.hasCt 0x3))

/-- ABS (R191, R192). -/
def execAbs (c : CoreId) (s : State) : Host.Outcome State Fault Refusal :=
  s.onDev (fun d => d.issueOp (coreNum c) (Bundle.hasCt 0x4))

/-- SHL (R191, R192). -/
def execShl (c : CoreId) (s : State) : Host.Outcome State Fault Refusal :=
  s.onDev (fun d => d.issueOp (coreNum c) (Bundle.hasCt 0x5))

/-- ASR (R191, R192). -/
def execAsr (c : CoreId) (s : State) : Host.Outcome State Fault Refusal :=
  s.onDev (fun d => d.issueOp (coreNum c) (Bundle.hasCt 0x6))

/-- LSR (R191, R192). -/
def execLsr (c : CoreId) (s : State) : Host.Outcome State Fault Refusal :=
  s.onDev (fun d => d.issueOp (coreNum c) (Bundle.hasCt 0x7))

/-- AND (R191, R192). -/
def execAnd (c : CoreId) (s : State) : Host.Outcome State Fault Refusal :=
  s.onDev (fun d => d.issueOp (coreNum c) (Bundle.hasCt 0x8))

/-- OR (R191, R192). -/
def execOr (c : CoreId) (s : State) : Host.Outcome State Fault Refusal :=
  s.onDev (fun d => d.issueOp (coreNum c) (Bundle.hasCt 0x9))

/-- XOR (R191, R192). -/
def execXor (c : CoreId) (s : State) : Host.Outcome State Fault Refusal :=
  s.onDev (fun d => d.issueOp (coreNum c) (Bundle.hasCt 0xa))

/-- NOT (R191, R192). -/
def execNot (c : CoreId) (s : State) : Host.Outcome State Fault Refusal :=
  s.onDev (fun d => d.issueOp (coreNum c) (Bundle.hasCt 0xb))

/-- MIN (R191, R192). -/
def execMin (c : CoreId) (s : State) : Host.Outcome State Fault Refusal :=
  s.onDev (fun d => d.issueOp (coreNum c) (Bundle.hasCt 0xc))

/-- MAX (R191, R192). -/
def execMax (c : CoreId) (s : State) : Host.Outcome State Fault Refusal :=
  s.onDev (fun d => d.issueOp (coreNum c) (Bundle.hasCt 0xd))

/-- SLT (R191, R192). -/
def execSlt (c : CoreId) (s : State) : Host.Outcome State Fault Refusal :=
  s.onDev (fun d => d.issueOp (coreNum c) (Bundle.hasCt 0xe))

/-- SEQ (R191, R192). -/
def execSeq (c : CoreId) (s : State) : Host.Outcome State Fault Refusal :=
  s.onDev (fun d => d.issueOp (coreNum c) (Bundle.hasCt 0xf))

/-- MOV (R188, R189). -/
def execMov (c : CoreId) (s : State) : Host.Outcome State Fault Refusal :=
  s.onDev (fun d => d.issueOp (coreNum c) (Bundle.hasCt 0x10))

/-- LDI (R190). -/
def execLdi (c : CoreId) (s : State) : Host.Outcome State Fault Refusal :=
  s.onDev (fun d => d.issueOp (coreNum c) (Bundle.hasCt 0x11))

/-- EXT (R139, R192). -/
def execExt (c : CoreId) (s : State) : Host.Outcome State Fault Refusal :=
  s.onDev (fun d => d.issueOp (coreNum c) (Bundle.hasCt 0x12))

/-- EXPD (R141). -/
def execExpd (c : CoreId) (s : State) : Host.Outcome State Fault Refusal :=
  s.onDev (fun d => d.issueOp (coreNum c) (Bundle.hasCt 0x13))

/-- EXPA (R141). -/
def execExpa (c : CoreId) (s : State) : Host.Outcome State Fault Refusal :=
  s.onDev (fun d => d.issueOp (coreNum c) (Bundle.hasCt 0x14))

/-- NORMD (R142). -/
def execNormd (c : CoreId) (s : State) : Host.Outcome State Fault Refusal :=
  s.onDev (fun d => d.issueOp (coreNum c) (Bundle.hasCt 0x15))

/-- NORMA (R142). -/
def execNorma (c : CoreId) (s : State) : Host.Outcome State Fault Refusal :=
  s.onDev (fun d => d.issueOp (coreNum c) (Bundle.hasCt 0x16))

/-- BR (R193). -/
def execBr (c : CoreId) (s : State) : Host.Outcome State Fault Refusal :=
  s.onDev (fun d => d.issueOp (coreNum c) (Bundle.hasCt 0x18))

/-- CALL (R193). -/
def execCall (c : CoreId) (s : State) : Host.Outcome State Fault Refusal :=
  s.onDev (fun d => d.issueOp (coreNum c) (Bundle.hasCt 0x19))

/-- JR (R193). -/
def execJr (c : CoreId) (s : State) : Host.Outcome State Fault Refusal :=
  s.onDev (fun d => d.issueOp (coreNum c) (Bundle.hasCt 0x1a))

/-- RET (R193). -/
def execRet (c : CoreId) (s : State) : Host.Outcome State Fault Refusal :=
  s.onDev (fun d => d.issueOp (coreNum c) (Bundle.hasCt 0x1b))

/-- LOOP (R194). -/
def execLoop (c : CoreId) (s : State) : Host.Outcome State Fault Refusal :=
  s.onDev (fun d => d.issueOp (coreNum c) (Bundle.hasCt 0x1c))

/-- LOOPR (R194). -/
def execLoopr (c : CoreId) (s : State) : Host.Outcome State Fault Refusal :=
  s.onDev (fun d => d.issueOp (coreNum c) (Bundle.hasCt 0x1d))

/-- ENDT (R197). -/
def execEndt (c : CoreId) (s : State) : Host.Outcome State Fault Refusal :=
  s.onDev (fun d => d.issueOp (coreNum c) (Bundle.hasCt 0x20))

/-- WAITEV (R158, R197). -/
def execWaitev (c : CoreId) (s : State) : Host.Outcome State Fault Refusal :=
  s.onDev (fun d => d.issueOp (coreNum c) (Bundle.hasCt 0x21))

/-- MTS (R198). -/
def execMts (c : CoreId) (s : State) : Host.Outcome State Fault Refusal :=
  s.onDev (fun d => d.issueOp (coreNum c) (Bundle.hasCt 0x30))

/-- MFS (R198). -/
def execMfs (c : CoreId) (s : State) : Host.Outcome State Fault Refusal :=
  s.onDev (fun d => d.issueOp (coreNum c) (Bundle.hasCt 0x31))

/-- TRAP (R198). -/
def execTrap (c : CoreId) (s : State) : Host.Outcome State Fault Refusal :=
  s.onDev (fun d => d.issueOp (coreNum c) (Bundle.hasCt 0x32))

/-- RETE (R198). -/
def execRete (c : CoreId) (s : State) : Host.Outcome State Fault Refusal :=
  s.onDev (fun d => d.issueOp (coreNum c) (Bundle.hasCt 0x33))

/-- WAITI (R198). -/
def execWaiti (c : CoreId) (s : State) : Host.Outcome State Fault Refusal :=
  s.onDev (fun d => d.issueOp (coreNum c) (Bundle.hasCt 0x34))

/-- Whether the bundle at PC of core `k` ends an active loop level (R153). -/
def Chip.atLoopEnd (c : Chip) (k : Nat) : Bool :=
  let x := c.core k
  [0, 1].any (fun i => (x.loop i).active && (x.loop i).stop == x.pc)

/-- The issue of a level's end bundle, whatever it holds (R153, R154, R195). -/
def Dev.issueLoopEnd (k : Nat) (d : Dev) : Dev :=
  if (d.nextBundle k).isSome && d.chip.atLoopEnd k then (d.chipOp (fun c => c.endWaiti k)).issue k else d

def execLoopEnd (c : CoreId) (s : State) : Host.Outcome State Fault Refusal :=
  s.onDev (Dev.issueLoopEnd (coreNum c))

end Sys2Proof.Machine
end

