-- ==== Sys2Proof/Machine/LsOps.lean ====
section
/-! DEFINITION. The operations of the LS slot (R181 to R187): each is the issue of the bundle at PC whose LS slot
holds it. -/

namespace Sys2Proof.Machine

/-- LS PAIR (R182). -/
def execLsPair (c : CoreId) (s : State) : Host.Outcome State Fault Refusal :=
  s.onDev (fun d => d.issueOp (coreNum c) (fun b => lsFmt b.ls == 0 && (bit b.ls 29 || bit b.ls 14)))

/-- QUEUE with DIR = 0 (R186). -/
def execQueuePop (c : CoreId) (s : State) : Host.Outcome State Fault Refusal :=
  s.onDev (fun d => d.issueOp (coreNum c) (fun b => lsFmt b.ls == 1 && !lsPushes b.ls))

/-- QUEUE with DIR = 1 (R186). -/
def execQueuePush (c : CoreId) (s : State) : Host.Outcome State Fault Refusal :=
  s.onDev (fun d => d.issueOp (coreNum c) (fun b => lsFmt b.ls == 1 && lsPushes b.ls))

/-- SINGLE with ST = 0 (R182). -/
def execSingleLoad (c : CoreId) (s : State) : Host.Outcome State Fault Refusal :=
  s.onDev (fun d => d.issueOp (coreNum c) (fun b => lsFmt b.ls == 2 && !(singleAccess b.ls).st))

/-- SINGLE with ST = 1 (R182). -/
def execSingleStore (c : CoreId) (s : State) : Host.Outcome State Fault Refusal :=
  s.onDev (fun d => d.issueOp (coreNum c) (fun b => lsFmt b.ls == 2 && (singleAccess b.ls).st))

/-- MODP (R187). -/
def execModp (c : CoreId) (s : State) : Host.Outcome State Fault Refusal :=
  s.onDev (fun d => d.issueOp (coreNum c) (fun b => lsFmt b.ls == 3))

end Sys2Proof.Machine
end

