-- ==== Sys2Proof/Machine/MacOps.lean ====
section
/-! DEFINITION. The operations of the MAC slots (R177 to R180): each is the issue of the bundle at PC whose slot
`sl` holds it. -/

namespace Sys2Proof.Machine

/-- The word of a MAC slot. -/
def Bundle.macWord (b : Bundle) : Slot → Option Word
  | .ma => some b.ma
  | .mb => some b.mb
  | _ => none

/-- Whether slot `sl` holds the MAC operation `op`. -/
def Bundle.hasMac (op : Nat) (sl : Slot) (b : Bundle) : Bool :=
  match b.macWord sl with
  | some w => macOp w == op
  | none => false

/-- Whether a slot holds a reserved opcode or format (R175): a MAC opcode of 8 or more, or those of the CT slot. -/
def Bundle.hasReserved (sl : Slot) (b : Bundle) : Bool :=
  match sl with
  | .ma => 8 ≤ macOp b.ma
  | .mb => 8 ≤ macOp b.mb
  | .ls => false
  | .ct => ctReserved b.ct

/-- DOT (R178, R179). -/
def execDot (c : CoreId) (sl : Slot) (s : State) : Host.Outcome State Fault Refusal :=
  s.onDev (fun d => d.issueOp (coreNum c) (Bundle.hasMac 1 sl))

/-- DUAL (R178, R179). -/
def execDual (c : CoreId) (sl : Slot) (s : State) : Host.Outcome State Fault Refusal :=
  s.onDev (fun d => d.issueOp (coreNum c) (Bundle.hasMac 2 sl))

/-- BCAST (R178, R179). -/
def execBcast (c : CoreId) (sl : Slot) (s : State) : Host.Outcome State Fault Refusal :=
  s.onDev (fun d => d.issueOp (coreNum c) (Bundle.hasMac 3 sl))

/-- CROSS (R178, R179). -/
def execCross (c : CoreId) (sl : Slot) (s : State) : Host.Outcome State Fault Refusal :=
  s.onDev (fun d => d.issueOp (coreNum c) (Bundle.hasMac 4 sl))

/-- MAC1 (R178, R179). -/
def execMac1 (c : CoreId) (sl : Slot) (s : State) : Host.Outcome State Fault Refusal :=
  s.onDev (fun d => d.issueOp (coreNum c) (Bundle.hasMac 5 sl))

/-- AADD (R178, R179). -/
def execAadd (c : CoreId) (sl : Slot) (s : State) : Host.Outcome State Fault Refusal :=
  s.onDev (fun d => d.issueOp (coreNum c) (Bundle.hasMac 6 sl))

/-- ADA (R178, R179). -/
def execAda (c : CoreId) (sl : Slot) (s : State) : Host.Outcome State Fault Refusal :=
  s.onDev (fun d => d.issueOp (coreNum c) (Bundle.hasMac 7 sl))

/-- A bundle with a reserved opcode or format: NOP in a MEC, ILLEGAL in a Steward (R175). -/
def execReservedOpcode (c : CoreId) (sl : Slot) (s : State) : Host.Outcome State Fault Refusal :=
  s.onDev (fun d => d.issueOp (coreNum c) (Bundle.hasReserved sl))

end Sys2Proof.Machine
end

