-- ==== Sys2Proof/Machine/Window.lean ====
section
/-! DEFINITION. The engine boundary and the steps of the Commit Window at CW+0, CW+8 and CW+16 (R16 to R29, R33, R34,
R108, R208, R214). The later steps of the window stand with their blocks. -/

namespace Sys2Proof.Machine

/-- The Tick Unit becomes `f` of itself. -/
def Chip.tickDo (c : Chip) (f : TickSt → TickSt) : Chip := { c with tick := f c.tick }

/-- PHASE and ECYC_IN_TICK (R39). -/
def Chip.setPhase (c : Chip) (p : Nat) : Chip := c.wrf Reg.TICK_PHASE 1 0 p

/-- CW+0 (R23, R60, R228, R235, R603). -/
def Chip.cwOpen (c : Chip) : Chip :=
  if c.rdf Reg.TICK_PHASE 1 0 ≠ 1 then c
  else
    let c1 := (c.setPhase 2).tickDo (fun t =>
      { t with snapPatch := c.snapBit pgPATCH, snapDmix := c.snapBit pgDMIX })
    let c2 := (c1.ledgerSample c.tick.firstTick).glideStart
    let c3 := { c2 with snap := { c2.snap with past := false, flips := c2.flipMecs, steps := c2.stepMecs } }
    let c4 := forUpTo 2 (fun k c => c.pauseSlot k) c3
    (c4.tickEvent 1).irq pgTICK 1

def execCwOpen (s : State) : Host.Outcome State Fault Refusal := s.onChip Chip.cwOpen

/-- CW+8: the verdict (R214); a failure is told to Foxglove. The instant CW+0 at which a DRAM pause may start has
passed. -/
def Chip.cwVerdict (c : Chip) : Chip :=
  if !c.windowOpen then c
  else
    let c1 := (c.ledgerVerdict (c.tick.count.setWidth 32)).tickEvent 2
    let c2 := forUpTo 2 (fun k c => c.pauseSlotEnd k) c1
    if c2.ledger.ok then c2 else c2.fgOverrun

def execVerdict (s : State) : Host.Outcome State Fault Refusal := s.onChip Chip.cwVerdict

/-- CW+16: the output commit (R108). -/
def Chip.cwCommit (c : Chip) : Chip := if c.windowOpen then c.ledgerCommit else c

def execOutputCommit (s : State) : Host.Outcome State Fault Refusal := s.onChip Chip.cwCommit

/-! The engine boundary. -/

/-- What every engine boundary samples (R29, R208, R670). -/
def Dev.boundarySamples (d : Dev) : Dev := (d.chipOp Chip.sampleOfs).sampleTable (d.chip.rd Reg.TICK_SCHED_BASE)

/-- BOUNDARY fires and the compute phase begins. -/
def Chip.boundaryEvent (c : Chip) : Chip := ((c.wr Reg.TICK_PHASE 1).tickEvent 0).irq pgTICK 0

/-- E(L) of a start (R33): TICK_COUNT takes TICK_COUNT_LOAD, the Ledger loads its table; no MEC is released.
`ecyc` is the length fixed for the tick that begins (R16). -/
def Dev.firstBoundary (ecyc : Nat) (d : Dev) : Dev :=
  let d1 := d.chipOp (fun c =>
    (((c.tickDo (fun t => { t with count := c.tickLoad, firstTick := true, audios := 0, len := ecyc, lengths := [] })).ecycClr 1).wr
      Reg.TICK_OVR_COUNT 0).mgldStart)
  (d1.boundarySamples.chipOp Chip.moverTicks).chipOp Chip.boundaryEvent

/-- The held writes of every coefficient bank: their window ends (R228). -/
def Dev.heldCoeffs (d : Dev) : Dev :=
  (d.chip.snap.held.map (·.1)).foldl (fun d m => d.heldCoeff m) d

/-- The engine tick ends (R16, R34, R115, R575): its length, the records and inputs of Marigold, the realignment. -/
def Dev.tickEnds (d : Dev) : Dev :=
  ((d.heldCoeffs.chipOp Chip.tickLength).mgldBoundary.chipOp Chip.ledgerRealign).chipOp Chip.sequencesEnd

/-- The boundary at which the Tick Unit stops, and a restart asked for before it (R34, R225, R232). -/
def Dev.stopBoundary (d : Dev) : Dev :=
  let d1 := forUpTo 32 Dev.mecStopBoundary d
  d1.chipOp (fun c =>
    let again := c.tick.restart
    let c1 := c.tickHalt.snapStop.dropTable
    if again then (c1.wrb (Reg.CTRL pgTICK) 0 false).tickStart else c1)

/-- E(n+1) (R23): the loaded table governs, TICK_COUNT moves on, the MECs are released or forced back. -/
def Dev.nextBoundary (ecyc : Nat) (d : Dev) : Dev :=
  let d1 := d.chipOp (fun c =>
    (c.tableGoverns.tickDo (fun t => { t with count := t.count + 1, firstTick := false, len := ecyc })))
  (forUpTo 32 Dev.mecBoundary (d1.boundarySamples.chipOp Chip.moverTicks)).chipOp Chip.boundaryEvent

/-- An engine boundary; the Tick Unit fixes the length `ecyc` of the tick that begins with it (R16). E(L) lies 64 ecyc,
with a tolerance of 2, before an audio boundary that may be A(L) (R32). -/
def Dev.engineBoundary (ecyc : Nat) (d : Dev) : Dev :=
  if !d.chip.tick.on then d
  else if d.chip.rdf Reg.TICK_PHASE 1 0 = 0 then (if d.chip.startDue 66 then d.firstBoundary ecyc else d)
  else if !d.chip.windowOpen then d
  else
    let d1 := d.tickEnds
    if d1.chip.tick.stopping then d1.stopBoundary else d1.nextBoundary ecyc

def execEngineBoundary (ecyc : BitVec 20) (s : State) : Host.Outcome State Fault Refusal :=
  s.onDev (Dev.engineBoundary ecyc.toNat)

end Sys2Proof.Machine
end

