-- ==== Sys2Proof/Machine/Strobe.lean ====
section
/-! DEFINITION. The sample strobe (R671) and the audio boundary (R15), which comes before the strobe of sample 0 in the
order of commands. -/

namespace Sys2Proof.Machine

/-! The audio boundary. -/

/-- The fill of REF10's source, while that receives (R380, R381, R468, R489). -/
def Chip.bsFill (c : Chip) : Option Nat :=
  let n := c.rdf Reg.ASTER_BS_CFG 15 8
  if c.rdb Reg.ASTER_BS_CFG 1 then
    if c.strmOn false n && c.sb n 0x138 0 && (c.sb n 0x138 1 || c.sb n 0x138 2) then some (c.strmFill n).toNat else none
  else if n < 4 ∧ c.stemLink n = 2 ∧ c.stemCfg n 0 = false then some (c.stemFill n).toNat
  else none

/-- Whether the next audio boundary is A(L) (R32, R33). -/
def Chip.awaitsFirst (c : Chip) : Bool := c.tickRuns && c.tick.audios == 0

/-- START_LATE at A(L) (R32): the bound of 64 ecyc moved it past the first strobe at or after the instant named. -/
def Chip.startLate (c : Chip) : Chip :=
  let m := c.rdf Reg.TICK_CFG 9 8
  if c.tick.skipped && c.awaitsFirst && (m == 1 || m == 2) then (c.irq pgTICK 3).err pgTICK 0x03 0 else c

/-- The Tick Unit at A(n); at the one audio boundary after a stop the last block is presented and no further one is
gathered (R34, R257). -/
def Chip.audioTicks (c : Chip) : Chip :=
  let runs := c.tickRuns
  let c1 := (c.startLate.tickDo (fun t =>
    { t with idx := 0, audios := t.audios + b2n runs, feed := runs, block := true })).wr Reg.TICK_START_SHORT c.now
  if runs then c1.tickEvent 5 else c1

/-- A(n) at the ports (R338, R341), at the links (R490) and at Aster (R380). -/
def Dev.audioPorts (d : Dev) : Dev :=
  let d1 := d.chipOp (fun c => forUpTo 4 Chip.aesAtAudio (forUpTo 16 Chip.sapAtAudio c))
  let d2 := forUpTo 4 Dev.aesFeedBlock (forUpTo 16 Dev.sapFeedBlock d1)
  d2.chipOp (fun c =>
    let c1 := c.bufferSteer c.bsFill
    if c1.tickRuns then forUpTo 4 Chip.stemAtAudio c1 else c1)

/-- An audio boundary (R15): exchanged tables act, the queues' withheld blocks begin or end (R217, R218). A(L)
lies at or after the instant that the start names (R32). -/
def Dev.audioBoundary (d : Dev) : Dev :=
  if (d.chip.tickRuns || d.chip.tick.feed) && !(d.chip.awaitsFirst && !d.chip.startDue 0) then
    (d.chipOp (fun c => (c.exchangeActs.audioTicks.mapQueues (fun _ x => x.atAudio)))).audioPorts
  else d

def execAudioBoundary (_late : Bool) (s : State) : Host.Outcome State Fault Refusal := s.onDev Dev.audioBoundary

/-! The sample strobe. -/

/-- The block after a stop ends with its last sample (R34). -/
def Chip.blockEnds (c : Chip) : Chip :=
  if !c.tickRuns && decide (c.tickN ≤ c.tick.idx) then c.tickDo (fun t => { t with block := false }) else c

/-- The receive channels take the words released for the strobe; of several owners of a channel the lowest numbered
provides it (R249, R250). -/
def Dev.rcStrobe (d : Dev) : Dev :=
  let d0 := d.chipOp (fun c => { c with patch := { c.patch with src := drop (fun k => 0x800 ≤ k) c.patch.src } })
  (forUpTo 4 (fun i d => d.stemRelease (3 - i)) d0).strmRelease

/-- The Direct Mixer's outputs as sources (R250). -/
def Chip.dmSources (c : Chip) : Chip := forUpTo 32 (fun j c => c.setSource (0x020 + j) (c.dmixOut j)) c

/-- The Patch Matrix at a strobe (R250 to R261); halted in Quiet (R270). -/
def Dev.patchStrobe (d : Dev) : Dev :=
  if d.chip.quiet then d
  else
    let n := d.chip.tickN
    let d1 := d.chipOp (fun c => (c.sinkChanges.genStrobes).dmSources)
    let d2 := d1.eopStrobes (d1.chip.tick.idx % n) n
    d2.chipOp Chip.sinkWords

/-- What takes words from sinks at a strobe: engine input ports, Stem links, media streams. -/
def Dev.takeStrobe (d : Dev) : Dev := (forUpTo 4 Dev.stemTxStrobe d.eipStrobes).strmTake

/-- The output words of every port, after the Z gains have moved (R326, R347, R505, R539). -/
def Chip.outputStrobe (c : Chip) : Chip :=
  forUpTo 16 Chip.spkStrobe (forUpTo 4 Chip.aesStrobe (forUpTo 16 Chip.sapStrobe c.zRamp))

/-- What is delivered for the next strobe without a frame of its own: the ASRC groups, and ports without a clock. -/
def Dev.deliverStrobe (d : Dev) : Dev :=
  forUpTo 4 Dev.aesLostStrobe (forUpTo 16 Dev.sapLostStrobe (forUpTo 8 Dev.asrcStrobe d))

/-- What a strobe brings to the Tick Unit: its APLL reaches it, so that an output may rise (R382); a new RATE acts
(R671); a start may have to pass it over (R32). -/
def Chip.strobeTick (c : Chip) : Chip :=
  (c.clkStrobe.tickDo (fun t => { t with rate := t.rateNext })).startSkip.blockEnds

/-- A sample strobe of the engine rate (R671); none in Listen and Dormant. -/
def Dev.sampleStrobe (d : Dev) : Dev :=
  if 2 ≤ d.chip.pstate then d
  else
    let d1 := (d.chipOp Chip.strobeTick).rcStrobe.patchStrobe.takeStrobe
    (d1.chipOp (fun c => (c.outputStrobe).tickDo (fun t => { t with idx := t.idx + 1 }))).deliverStrobe

def execSampleStrobe (s : State) : Host.Outcome State Fault Refusal := s.onDev Dev.sampleStrobe

end Sys2Proof.Machine
end

