-- ==== Sys2Proof/Machine/Dispatch.lean ====
section
/-! DEFINITION. The dispatch: one arm for each command of the table, a direct call of its meaning. -/

namespace Sys2Proof.Machine

def exec (i : Instr) (s : State) : Host.Outcome State Fault Refusal :=
  match i with
  | .sampleStrobe => Sys2Proof.Machine.execSampleStrobe s
  | .audioBoundary late => Sys2Proof.Machine.execAudioBoundary late s
  | .engineBoundary ecyc => Sys2Proof.Machine.execEngineBoundary ecyc s
  | .cwOpen => Sys2Proof.Machine.execCwOpen s
  | .verdict => Sys2Proof.Machine.execVerdict s
  | .outputCommit => Sys2Proof.Machine.execOutputCommit s
  | .snapdragonFlip => Sys2Proof.Machine.execSnapdragonFlip s
  | .glideStep => Sys2Proof.Machine.execGlideStep s
  | .mirrorSnapshot => Sys2Proof.Machine.execMirrorSnapshot s
  | .stagingExchange => Sys2Proof.Machine.execStagingExchange s
  | .tickWatchdogFeed gapUs => Sys2Proof.Machine.execTickWatchdogFeed gapUs s
  | .ofsEvent n => Sys2Proof.Machine.execOfsEvent n s
  | .tickStart => Sys2Proof.Machine.execTickStart s
  | .tickStop => Sys2Proof.Machine.execTickStop s
  | .ecycClr v => Sys2Proof.Machine.execEcycClr v s
  | .tickCountLoRead => Sys2Proof.Machine.execTickCountLoRead s
  | .registerWrite a v => Sys2Proof.Machine.execRegisterWrite a v s
  | .irqForce page v => Sys2Proof.Machine.execIrqForce page v s
  | .errCodeClear page v => Sys2Proof.Machine.execErrCodeClear page v s
  | .idleRequest page => Sys2Proof.Machine.execIdleRequest page s
  | .idleAck page => Sys2Proof.Machine.execIdleAck page s
  | .blockResetRequest page => Sys2Proof.Machine.execBlockResetRequest page s
  | .blockResetTimeout page => Sys2Proof.Machine.execBlockResetTimeout page s
  | .blockResetRelease page => Sys2Proof.Machine.execBlockResetRelease page s
  | .remapWrite v => Sys2Proof.Machine.execRemapWrite v s
  | .hubSourceAssert src => Sys2Proof.Machine.execHubSourceAssert src s
  | .hubClaim t => Sys2Proof.Machine.execHubClaim t s
  | .hubDone t v => Sys2Proof.Machine.execHubDone t v s
  | .hubSwset v => Sys2Proof.Machine.execHubSwset v s
  | .hubEvmonRead => Sys2Proof.Machine.execHubEvmonRead s
  | .hubWclkDivWrite v => Sys2Proof.Machine.execHubWclkDivWrite v s
  | .hubSourceCfgWrite src v => Sys2Proof.Machine.execHubSourceCfgWrite src v s
  | .interruptTaken st => Sys2Proof.Machine.execInterruptTaken st s
  | .transactionIssue t => Sys2Proof.Machine.execTransactionIssue t s
  | .transactionGrant target => Sys2Proof.Machine.execTransactionGrant target s
  | .transactionResponse target master => Sys2Proof.Machine.execTransactionResponse target master s
  | .aliasWrite set ofs mask => Sys2Proof.Machine.execAliasWrite set ofs mask s
  | .localAccessServe m => Sys2Proof.Machine.execLocalAccessServe m s
  | .bankStateRequest k v => Sys2Proof.Machine.execBankStateRequest k v s
  | .bankTransitionStart b => Sys2Proof.Machine.execBankTransitionStart b s
  | .bankTransitionDone b => Sys2Proof.Machine.execBankTransitionDone b s
  | .bistStart v => Sys2Proof.Machine.execBistStart v s
  | .bistAbort => Sys2Proof.Machine.execBistAbort s
  | .bistBankDone g failAt => Sys2Proof.Machine.execBistBankDone g failAt s
  | .bistDone => Sys2Proof.Machine.execBistDone s
  | .conflictClr v => Sys2Proof.Machine.execConflictClr v s
  | .endpointPush q kind id w => Sys2Proof.Machine.execEndpointPush q kind id w s
  | .endpointPop q kind id => Sys2Proof.Machine.execEndpointPop q kind id s
  | .creditWaitEnd q consumer => Sys2Proof.Machine.execCreditWaitEnd q consumer s
  | .bankMoverTransfer q => Sys2Proof.Machine.execBankMoverTransfer q s
  | .queueEnable => Sys2Proof.Machine.execQueueEnable s
  | .queueDisable => Sys2Proof.Machine.execQueueDisable s
  | .queueFlush => Sys2Proof.Machine.execQueueFlush s
  | .queueClrstat => Sys2Proof.Machine.execQueueClrstat s
  | .resultDelivery c => Sys2Proof.Machine.execResultDelivery c s
  | .remoteAccessResponse c data err => Sys2Proof.Machine.execRemoteAccessResponse c data err s
  | .dot c sl => Sys2Proof.Machine.execDot c sl s
  | .dual c sl => Sys2Proof.Machine.execDual c sl s
  | .bcast c sl => Sys2Proof.Machine.execBcast c sl s
  | .cross c sl => Sys2Proof.Machine.execCross c sl s
  | .mac1 c sl => Sys2Proof.Machine.execMac1 c sl s
  | .aadd c sl => Sys2Proof.Machine.execAadd c sl s
  | .ada c sl => Sys2Proof.Machine.execAda c sl s
  | .lsPair c => Sys2Proof.Machine.execLsPair c s
  | .queuePop c => Sys2Proof.Machine.execQueuePop c s
  | .queuePush c => Sys2Proof.Machine.execQueuePush c s
  | .singleLoad c => Sys2Proof.Machine.execSingleLoad c s
  | .singleStore c => Sys2Proof.Machine.execSingleStore c s
  | .modp c => Sys2Proof.Machine.execModp c s
  | .add c => Sys2Proof.Machine.execAdd c s
  | .sub c => Sys2Proof.Machine.execSub c s
  | .neg c => Sys2Proof.Machine.execNeg c s
  | .abs c => Sys2Proof.Machine.execAbs c s
  | .shl c => Sys2Proof.Machine.execShl c s
  | .asr c => Sys2Proof.Machine.execAsr c s
  | .lsr c => Sys2Proof.Machine.execLsr c s
  | .and c => Sys2Proof.Machine.execAnd c s
  | .or c => Sys2Proof.Machine.execOr c s
  | .xor c => Sys2Proof.Machine.execXor c s
  | .not c => Sys2Proof.Machine.execNot c s
  | .min c => Sys2Proof.Machine.execMin c s
  | .max c => Sys2Proof.Machine.execMax c s
  | .slt c => Sys2Proof.Machine.execSlt c s
  | .seq c => Sys2Proof.Machine.execSeq c s
  | .mov c => Sys2Proof.Machine.execMov c s
  | .ldi c => Sys2Proof.Machine.execLdi c s
  | .ext c => Sys2Proof.Machine.execExt c s
  | .expd c => Sys2Proof.Machine.execExpd c s
  | .expa c => Sys2Proof.Machine.execExpa c s
  | .normd c => Sys2Proof.Machine.execNormd c s
  | .norma c => Sys2Proof.Machine.execNorma c s
  | .br c => Sys2Proof.Machine.execBr c s
  | .call c => Sys2Proof.Machine.execCall c s
  | .jr c => Sys2Proof.Machine.execJr c s
  | .ret c => Sys2Proof.Machine.execRet c s
  | .loop c => Sys2Proof.Machine.execLoop c s
  | .loopr c => Sys2Proof.Machine.execLoopr c s
  | .loopEnd c => Sys2Proof.Machine.execLoopEnd c s
  | .endt c => Sys2Proof.Machine.execEndt c s
  | .endtComplete c => Sys2Proof.Machine.execEndtComplete c s
  | .waitev c => Sys2Proof.Machine.execWaitev c s
  | .eventWaitEnd c => Sys2Proof.Machine.execEventWaitEnd c s
  | .mts c => Sys2Proof.Machine.execMts c s
  | .mfs c => Sys2Proof.Machine.execMfs c s
  | .trap c => Sys2Proof.Machine.execTrap c s
  | .rete c => Sys2Proof.Machine.execRete c s
  | .waiti c => Sys2Proof.Machine.execWaiti c s
  | .breakpoint c => Sys2Proof.Machine.execBreakpoint c s
  | .coreStart c => Sys2Proof.Machine.execCoreStart c s
  | .coreHalt c => Sys2Proof.Machine.execCoreHalt c s
  | .haltDone c => Sys2Proof.Machine.execHaltDone c s
  | .coreStep c => Sys2Proof.Machine.execCoreStep c s
  | .coreResume c => Sys2Proof.Machine.execCoreResume c s
  | .regdataStage c hi v => Sys2Proof.Machine.execRegdataStage c hi v s
  | .regdataCommit c v => Sys2Proof.Machine.execRegdataCommit c v s
  | .mecStatsClr m v => Sys2Proof.Machine.execMecStatsClr m v s
  | .icacheInvalidate st => Sys2Proof.Machine.execIcacheInvalidate st s
  | .stewardWdogKick st v => Sys2Proof.Machine.execStewardWdogKick st v s
  | .stewardWdogExpiry st => Sys2Proof.Machine.execStewardWdogExpiry st s
  | .flipArm => Sys2Proof.Machine.execFlipArm s
  | .flipArmNext => Sys2Proof.Machine.execFlipArmNext s
  | .flipDisarm => Sys2Proof.Machine.execFlipDisarm s
  | .flipNow => Sys2Proof.Machine.execFlipNow s
  | .glideArm => Sys2Proof.Machine.execGlideArm s
  | .glideArmNext => Sys2Proof.Machine.execGlideArmNext s
  | .glideDisarm => Sys2Proof.Machine.execGlideDisarm s
  | .glideStop => Sys2Proof.Machine.execGlideStop s
  | .heldCoeffWrite m => Sys2Proof.Machine.execHeldCoeffWrite m s
  | .flipLastRead => Sys2Proof.Machine.execFlipLastRead s
  | .selectTableWrite ofs v => Sys2Proof.Machine.execSelectTableWrite ofs v s
  | .genTypeWrite g v => Sys2Proof.Machine.execGenTypeWrite g v s
  | .genSeedWrite g v => Sys2Proof.Machine.execGenSeedWrite g v s
  | .dmixGainWrite ofs v => Sys2Proof.Machine.execDmixGainWrite ofs v s
  | .zcTimeout g => Sys2Proof.Machine.execZcTimeout g s
  | .courierStop c => Sys2Proof.Machine.execCourierStop c s
  | .channelDone c => Sys2Proof.Machine.execChannelDone c s
  | .courierMove c => Sys2Proof.Machine.execCourierMove c s
  | .burstDecision c => Sys2Proof.Machine.execBurstDecision c s
  | .courierGather c => Sys2Proof.Machine.execCourierGather c s
  | .courierScatter c => Sys2Proof.Machine.execCourierScatter c s
  | .courierLoop c => Sys2Proof.Machine.execCourierLoop c s
  | .courierWait c => Sys2Proof.Machine.execCourierWait c s
  | .courierWaitEnd c => Sys2Proof.Machine.execCourierWaitEnd c s
  | .courierSignal c => Sys2Proof.Machine.execCourierSignal c s
  | .courierFence c => Sys2Proof.Machine.execCourierFence c s
  | .fenceDone c => Sys2Proof.Machine.execFenceDone c s
  | .courierLdptr c => Sys2Proof.Machine.execCourierLdptr c s
  | .courierAddptr c => Sys2Proof.Machine.execCourierAddptr c s
  | .channelStart c => Sys2Proof.Machine.execChannelStart c s
  | .channelAbort c => Sys2Proof.Machine.execChannelAbort c s
  | .abortDone c => Sys2Proof.Machine.execAbortDone c s
  | .flagSet n v => Sys2Proof.Machine.execFlagSet n v s
  | .plainRelease n v => Sys2Proof.Machine.execPlainRelease n v s
  | .mtxStatsClr v => Sys2Proof.Machine.execMtxStatsClr v s
  | .portDrain m => Sys2Proof.Machine.execPortDrain m s
  | .drainDone m => Sys2Proof.Machine.execDrainDone m s
  | .sapEnable p => Sys2Proof.Machine.execSapEnable p s
  | .sapFrameReceived p f => Sys2Proof.Machine.execSapFrameReceived p f s
  | .sapFrameSent p dOut => Sys2Proof.Machine.execSapFrameSent p dOut s
  | .sapClockLoss p => Sys2Proof.Machine.execSapClockLoss p s
  | .sapClockRecovery p => Sys2Proof.Machine.execSapClockRecovery p s
  | .nonaudioTimeout u => Sys2Proof.Machine.execNonaudioTimeout u s
  | .aesFrameReceived n f => Sys2Proof.Machine.execAesFrameReceived n f s
  | .aesLock n => Sys2Proof.Machine.execAesLock n s
  | .aesLockLoss n => Sys2Proof.Machine.execAesLockLoss n s
  | .aesStatusBlock n rate => Sys2Proof.Machine.execAesStatusBlock n rate s
  | .aesFrameSent n => Sys2Proof.Machine.execAesFrameSent n s
  | .txcsCommit n v => Sys2Proof.Machine.execTxcsCommit n v s
  | .txcsCopy n => Sys2Proof.Machine.execTxcsCopy n s
  | .asrcLock g ratio => Sys2Proof.Machine.execAsrcLock g ratio s
  | .asrcLockLoss g ratio => Sys2Proof.Machine.execAsrcLockLoss g ratio s
  | .jackDebounce j det => Sys2Proof.Machine.execJackDebounce j det s
  | .jackClassRound j tip ring2 sleeve => Sys2Proof.Machine.execJackClassRound j tip ring2 sleeve s
  | .jackReclass v => Sys2Proof.Machine.execJackReclass v s
  | .jackButtonSample j code => Sys2Proof.Machine.execJackButtonSample j code s
  | .jackButtonDebounce j => Sys2Proof.Machine.execJackButtonDebounce j s
  | .jackEventPop => Sys2Proof.Machine.execJackEventPop s
  | .jackRawSample code => Sys2Proof.Machine.execJackRawSample code s
  | .jackRawPop => Sys2Proof.Machine.execJackRawPop s
  | .asterInterval m => Sys2Proof.Machine.execAsterInterval m s
  | .refInactive r => Sys2Proof.Machine.execRefInactive r s
  | .wtrExpiry r => Sys2Proof.Machine.execWtrExpiry r s
  | .restoreNow => Sys2Proof.Machine.execRestoreNow s
  | .buildoutDone => Sys2Proof.Machine.execBuildoutDone s
  | .recal => Sys2Proof.Machine.execRecal s
  | .recalDone => Sys2Proof.Machine.execRecalDone s
  | .dcoRail atRail => Sys2Proof.Machine.execDcoRail atRail s
  | .apllUnlock b => Sys2Proof.Machine.execApllUnlock b s
  | .frameSourcePulse t => Sys2Proof.Machine.execFrameSourcePulse t s
  | .frameOutPulse => Sys2Proof.Machine.execFrameOutPulse s
  | .frameMiss => Sys2Proof.Machine.execFrameMiss s
  | .incCommit v => Sys2Proof.Machine.execIncCommit v s
  | .timeStep => Sys2Proof.Machine.execTimeStep s
  | .timeCapture => Sys2Proof.Machine.execTimeCapture s
  | .tbNsRead => Sys2Proof.Machine.execTbNsRead s
  | .tbShortRead => Sys2Proof.Machine.execTbShortRead s
  | .shortWrap => Sys2Proof.Machine.execShortWrap s
  | .secondRollover => Sys2Proof.Machine.execSecondRollover s
  | .laneEnable n => Sys2Proof.Machine.execLaneEnable n s
  | .losAssert n => Sys2Proof.Machine.execLosAssert n s
  | .losClear n => Sys2Proof.Machine.execLosClear n s
  | .cdrLock n freq => Sys2Proof.Machine.execCdrLock n freq s
  | .cdrLoss n => Sys2Proof.Machine.execCdrLoss n s
  | .laneBlockReceived n hdr payload => Sys2Proof.Machine.execLaneBlockReceived n hdr payload s
  | .relock n => Sys2Proof.Machine.execRelock n s
  | .idleEnter n => Sys2Proof.Machine.execIdleEnter n s
  | .idleExit n => Sys2Proof.Machine.execIdleExit n s
  | .trainingBurstEnd n => Sys2Proof.Machine.execTrainingBurstEnd n s
  | .rxIdleTimeout n => Sys2Proof.Machine.execRxIdleTimeout n s
  | .irisStart => Sys2Proof.Machine.execIrisStart s
  | .irisAbort => Sys2Proof.Machine.execIrisAbort s
  | .irisPointDone errs => Sys2Proof.Machine.execIrisPointDone errs s
  | .irisBufPop => Sys2Proof.Machine.execIrisBufPop s
  | .ethLinkChange p localFault remoteFault => Sys2Proof.Machine.execEthLinkChange p localFault remoteFault s
  | .ringEnable p tx k v => Sys2Proof.Machine.execRingEnable p tx k v s
  | .ringDisable p tx k => Sys2Proof.Machine.execRingDisable p tx k s
  | .ringTailWrite p tx k v => Sys2Proof.Machine.execRingTailWrite p tx k v s
  | .txFrameFetch p k => Sys2Proof.Machine.execTxFrameFetch p k s
  | .txFrameStart p => Sys2Proof.Machine.execTxFrameStart p s
  | .txFrameDone p stamp => Sys2Proof.Machine.execTxFrameDone p stamp s
  | .ethFrameReceived p frame fcsOk stamp => Sys2Proof.Machine.execEthFrameReceived p frame fcsOk stamp s
  | .rxFramePlace p => Sys2Proof.Machine.execRxFramePlace p s
  | .pauseExpiry p cls => Sys2Proof.Machine.execPauseExpiry p cls s
  | .gateEntryAdvance p => Sys2Proof.Machine.execGateEntryAdvance p s
  | .gclArm p => Sys2Proof.Machine.execGclArm p s
  | .gclDisarm p => Sys2Proof.Machine.execGclDisarm p s
  | .gclSwitch p => Sys2Proof.Machine.execGclSwitch p s
  | .ethStatsClr p v => Sys2Proof.Machine.execEthStatsClr p v s
  | .cb0FrameReceived frame fcsOk rxer stamp => Sys2Proof.Machine.execCb0FrameReceived frame fcsOk rxer stamp s
  | .cb0RxPop => Sys2Proof.Machine.execCb0RxPop s
  | .cb0TxPush v => Sys2Proof.Machine.execCb0TxPush v s
  | .cb0TxDone stamp => Sys2Proof.Machine.execCb0TxDone stamp s
  | .cb0Collision afterBits r => Sys2Proof.Machine.execCb0Collision afterBits r s
  | .cb0BackoffExpiry => Sys2Proof.Machine.execCb0BackoffExpiry s
  | .cb0Txflush v => Sys2Proof.Machine.execCb0Txflush v s
  | .plcaStatusChange up => Sys2Proof.Machine.execPlcaStatusChange up s
  | .mdioAccess v => Sys2Proof.Machine.execMdioAccess v s
  | .mdioDone data => Sys2Proof.Machine.execMdioDone data s
  | .cb0StatsClr v => Sys2Proof.Machine.execCb0StatsClr v s
  | .streamEnable tx v => Sys2Proof.Machine.execStreamEnable tx v s
  | .streamPacketSend idx => Sys2Proof.Machine.execStreamPacketSend idx s
  | .planeDown idx b => Sys2Proof.Machine.execPlaneDown idx b s
  | .strmStatsClr v => Sys2Proof.Machine.execStrmStatsClr v s
  | .stemEnable n => Sys2Proof.Machine.execStemEnable n s
  | .stemFrameSend n => Sys2Proof.Machine.execStemFrameSend n s
  | .stemIdleBurst n => Sys2Proof.Machine.execStemIdleBurst n s
  | .stemFrameReceived n f => Sys2Proof.Machine.execStemFrameReceived n f s
  | .stemLinkWait n => Sys2Proof.Machine.execStemLinkWait n s
  | .ctxSend n v => Sys2Proof.Machine.execCtxSend n v s
  | .crxPop n => Sys2Proof.Machine.execCrxPop n s
  | .stmStatsClr n v => Sys2Proof.Machine.execStmStatsClr n v s
  | .spkEnable n on => Sys2Proof.Machine.execSpkEnable n on s
  | .spkPlay n fltLow => Sys2Proof.Machine.execSpkPlay n fltLow s
  | .spkMute n => Sys2Proof.Machine.execSpkMute n s
  | .spkDiag n fltLow => Sys2Proof.Machine.execSpkDiag n fltLow s
  | .spkClear n => Sys2Proof.Machine.execSpkClear n s
  | .softStartSwitching n => Sys2Proof.Machine.execSoftStartSwitching n s
  | .softStartDone n => Sys2Proof.Machine.execSoftStartDone n s
  | .softStopDone n => Sys2Proof.Machine.execSoftStopDone n s
  | .loopPeriod n vDiffMv iMa => Sys2Proof.Machine.execLoopPeriod n vDiffMv iMa s
  | .comparatorTrip n => Sys2Proof.Machine.execComparatorTrip n s
  | .stageFault n => Sys2Proof.Machine.execStageFault n s
  | .shortRetry n fltLow => Sys2Proof.Machine.execShortRetry n fltLow s
  | .retryReset n => Sys2Proof.Machine.execRetryReset n s
  | .diagPhase n f => Sys2Proof.Machine.execDiagPhase n f s
  | .spkStatsClr n v => Sys2Proof.Machine.execSpkStatsClr n v s
  | .guardSeal v => Sys2Proof.Machine.execGuardSeal v s
  | .sealCopyDone => Sys2Proof.Machine.execSealCopyDone s
  | .copyCompare => Sys2Proof.Machine.execCopyCompare s
  | .release v safeN => Sys2Proof.Machine.execRelease v safeN s
  | .resume v safeN => Sys2Proof.Machine.execResume v safeN s
  | .swquiet v => Sys2Proof.Machine.execSwquiet v s
  | .totestSet v => Sys2Proof.Machine.execTotestSet v s
  | .totestClear v => Sys2Proof.Machine.execTotestClear v s
  | .dcWindow g => Sys2Proof.Machine.execDcWindow g s
  | .dutyWindow n mean => Sys2Proof.Machine.execDutyWindow n mean s
  | .gateTrip n => Sys2Proof.Machine.execGateTrip n s
  | .overlapDetect n b => Sys2Proof.Machine.execOverlapDetect n b s
  | .tripClear w v => Sys2Proof.Machine.execTripClear w v s
  | .pinPathTimer g => Sys2Proof.Machine.execPinPathTimer g s
  | .wdogExpiry => Sys2Proof.Machine.execWdogExpiry s
  | .safeAssert => Sys2Proof.Machine.execSafeAssert s
  | .fqiAssert => Sys2Proof.Machine.execFqiAssert s
  | .fqiClear => Sys2Proof.Machine.execFqiClear s
  | .standbyClear => Sys2Proof.Machine.execStandbyClear s
  | .xchkTimeout g => Sys2Proof.Machine.execXchkTimeout g s
  | .keepaliveLoss => Sys2Proof.Machine.execKeepaliveLoss s
  | .fgSupplyFault osc => Sys2Proof.Machine.execFgSupplyFault osc s
  | .fgStatsClr v => Sys2Proof.Machine.execFgStatsClr v s
  | .mgldEnable pairRole => Sys2Proof.Machine.execMgldEnable pairRole s
  | .recordSend => Sys2Proof.Machine.execRecordSend s
  | .mirrorInputForward idx => Sys2Proof.Machine.execMirrorInputForward idx s
  | .recordReceived r => Sys2Proof.Machine.execRecordReceived r s
  | .statusReceived tick epoch flags => Sys2Proof.Machine.execStatusReceived tick epoch flags s
  | .heartbeatDeadline => Sys2Proof.Machine.execHeartbeatDeadline s
  | .takeover v => Sys2Proof.Machine.execTakeover v s
  | .handover v => Sys2Proof.Machine.execHandover v s
  | .join v => Sys2Proof.Machine.execJoin v s
  | .mgldStatsClr v => Sys2Proof.Machine.execMgldStatsClr v s
  | .dramInit k => Sys2Proof.Machine.execDramInit k s
  | .dramResume k => Sys2Proof.Machine.execDramResume k s
  | .dramInitDone k ok => Sys2Proof.Machine.execDramInitDone k ok s
  | .retrain k => Sys2Proof.Machine.execRetrain k s
  | .rtArm k => Sys2Proof.Machine.execRtArm k s
  | .dramService k => Sys2Proof.Machine.execDramService k s
  | .refreshDue k => Sys2Proof.Machine.execRefreshDue k s
  | .mr4Read k op band => Sys2Proof.Machine.execMr4Read k op band s
  | .pauseDue k => Sys2Proof.Machine.execPauseDue k s
  | .pauseStart k => Sys2Proof.Machine.execPauseStart k s
  | .pauseGrace k => Sys2Proof.Machine.execPauseGrace k s
  | .pauseEnd k ok => Sys2Proof.Machine.execPauseEnd k ok s
  | .selfrefEntry k => Sys2Proof.Machine.execSelfrefEntry k s
  | .selfrefExit k => Sys2Proof.Machine.execSelfrefExit k s
  | .dramStatsClr k v => Sys2Proof.Machine.execDramStatsClr k v s
  | .por => Sys2Proof.Machine.execPor s
  | .resetPin low => Sys2Proof.Machine.execResetPin low s
  | .peerResetIn => Sys2Proof.Machine.execPeerResetIn s
  | .thermalTrip => Sys2Proof.Machine.execThermalTrip s
  | .enginePllLoss => Sys2Proof.Machine.execEnginePllLoss s
  | .jtagSysrst => Sys2Proof.Machine.execJtagSysrst s
  | .softwareReset v => Sys2Proof.Machine.execSoftwareReset v s
  | .resetSequenceStep bootSel => Sys2Proof.Machine.execResetSequenceStep bootSel s
  | .resetRelease src => Sys2Proof.Machine.execResetRelease src s
  | .engineResetRelease => Sys2Proof.Machine.execEngineResetRelease s
  | .fuseProgram v => Sys2Proof.Machine.execFuseProgram v s
  | .fuseProgramDone ok => Sys2Proof.Machine.execFuseProgramDone ok s
  | .peerResetPulse v => Sys2Proof.Machine.execPeerResetPulse v s
  | .powerStateRequest v => Sys2Proof.Machine.execPowerStateRequest v s
  | .pstateDone => Sys2Proof.Machine.execPstateDone s
  | .wakePin => Sys2Proof.Machine.execWakePin s
  | .pwrgoodRise => Sys2Proof.Machine.execPwrgoodRise s
  | .pwrgoodTimeout => Sys2Proof.Machine.execPwrgoodTimeout s
  | .tempReading t => Sys2Proof.Machine.execTempReading t s
  | .bootLoad flash => Sys2Proof.Machine.execBootLoad flash s
  | .bootChunk c => Sys2Proof.Machine.execBootChunk c s
  | .bootAck => Sys2Proof.Machine.execBootAck s
  | .bootSourceTimeout => Sys2Proof.Machine.execBootSourceTimeout s
  | .hostWriteWords a ws => Sys2Proof.Machine.execHostWriteWords a ws s
  | .hostReadWords a n => Sys2Proof.Machine.execHostReadWords a n s
  | .hostReadStatus => Sys2Proof.Machine.execHostReadStatus s
  | .hostMboxPush ws => Sys2Proof.Machine.execHostMboxPush ws s
  | .hostMboxPop n => Sys2Proof.Machine.execHostMboxPop n s
  | .mboxInRead => Sys2Proof.Machine.execMboxInRead s
  | .mboxOutWrite v => Sys2Proof.Machine.execMboxOutWrite v s
  | .bootqXfer v => Sys2Proof.Machine.execBootqXfer v s
  | .bootqXferDone data => Sys2Proof.Machine.execBootqXferDone data s
  | .bootqDataRead => Sys2Proof.Machine.execBootqDataRead s
  | .bootqDataWrite v => Sys2Proof.Machine.execBootqDataWrite v s
  | .referenceActive r => Sys2Proof.Machine.execReferenceActive r s
  | .launchTime p k => Sys2Proof.Machine.execLaunchTime p k s
  | .cb0TransmitStart => Sys2Proof.Machine.execCb0TransmitStart s
  | .markerReceived tick epoch flags => Sys2Proof.Machine.execMarkerReceived tick epoch flags s
  | .reservedOpcode c sl => Sys2Proof.Machine.execReservedOpcode c sl s
  | .courierReservedOpcode c => Sys2Proof.Machine.execCourierReservedOpcode c s

end Sys2Proof.Machine
end

