-- ==== Sys2Proof/Safety.lean ====
section
/-! DEFINITION. What a safe run is: no step of it stops. And the terms in which the statements speak of a state and of what
a command leaves unchanged. -/

namespace Sys2Proof.Machine

/-- The chip of a state. -/
abbrev State.chip (s : State) : Chip := s.dev.chip

/-- The memories of a state. -/
abbrev State.mem (s : State) : Memory := s.dev.mem

/-- `s` with another chip: memory and the queue of commands are those of `s`. -/
def State.chipTo (s : State) (c : Chip) : State := { s with dev := { s.dev with chip := c } }

/-- `s` with another device: the queue of commands is that of `s`. -/
def State.devTo (s : State) (d : Dev) : State := { s with dev := d }

end Sys2Proof.Machine

namespace Sys2Proof.Safety

open Sys2Proof.Machine

/-- A run of `k` steps from `s` that meets neither a fault nor a refusal. -/
def runs (k : Nat) (s : State) : Prop := ∃ t, core.run k s = .next t

/-- Every register of `c` whose key is not listed reads in `c'` as it does in `c`. -/
def sameBut (ks : List Nat) (c c' : Chip) : Prop := ∀ k, k ∉ ks → c'.rd k = c.rd k

/-- Every register of a page other than those listed reads in `c'` as it does in `c`. -/
def samePagesBut (ps : List Nat) (c c' : Chip) : Prop := ∀ k, pageOf k ∉ ps → c'.rd k = c.rd k

/-- Bit `b` of IRQ_RAW of page `p` is set in `c'`, and the page's other flags are those of `c` (R57). -/
def raises (p b : Nat) (c c' : Chip) : Prop :=
  c'.rdb (Reg.IRQ_RAW p) b = true ∧ ∀ i, i ≠ b → c'.rdb (Reg.IRQ_RAW p) i = c.rdb (Reg.IRQ_RAW p) i

/-- The error `code` with `info` has arrived at page `p` (R58): the first error is recorded, a further one sets MULTI
and leaves the record. -/
def errs (p code : Nat) (info : Word) (c c' : Chip) : Prop :=
  (c.rdf (Reg.ERR_CODE p) 7 0 = 0 → c'.rd (Reg.ERR_CODE p) = word code ∧ c'.rd (Reg.ERR_INFO p) = info) ∧
  (c.rdf (Reg.ERR_CODE p) 7 0 ≠ 0 → c'.rdb (Reg.ERR_CODE p) 8 = true ∧
    c'.rdf (Reg.ERR_CODE p) 7 0 = c.rdf (Reg.ERR_CODE p) 7 0 ∧ c'.rd (Reg.ERR_INFO p) = c.rd (Reg.ERR_INFO p))

/-- The registers of an error of page `p`. -/
abbrev errRegs (p : Nat) : List Nat := [Reg.ERR_CODE p, Reg.ERR_INFO p]

/-- The registers of an error and of the flags of page `p`. -/
abbrev irqErrRegs (p : Nat) : List Nat := [Reg.IRQ_RAW p, Reg.ERR_CODE p, Reg.ERR_INFO p]

/-- Every byte outside `n` bytes from address `a` reads as before. -/
def sameOutside (a n : Nat) (m m' : Memory) : Prop := ∀ i, i < a ∨ a + n ≤ i → m'.get i = m.get i

/-- An error on queue `q` by endpoint `kind`, `id`: its sticky flag, flag `b` of page QF and the record (R110, R125); no
other register changes. -/
def queueErrs (q kind id b code : Nat) (c c' : Chip) : Prop :=
  c'.rdb (Reg.QF_QERR (q / 32)) (q % 32) = true ∧ raises pgQF b c c' ∧
    errs pgQF code (word (q + kind * 0x1_0000 + id * 0x100_0000)) c c' ∧
    sameBut (Reg.QF_QERR (q / 32) :: irqErrRegs pgQF) c c'

/-- The queues other than `q` are those of `c`. -/
def sameQueuesBut (q : Nat) (c c' : Chip) : Prop := ∀ i, i ≠ q → c'.queue i = c.queue i

/-! Cores. -/

/-- Core `k` is RUNNING, its clock on, with nothing in flight and no breakpoint at its PC, where bundle `b` holds an
operation; the bus matrix lets a fetch through it pass. -/
def atBundle (k : Nat) (b : Bundle) (s : State) : Prop :=
  s.chip.coreState k = 1 ∧ s.chip.coreClocked k = true ∧ (s.chip.core k).drain = .none ∧ (s.chip.core k).step = false ∧
    (s.chip.core k).flight = [] ∧ s.chip.atBreak k = false ∧ s.chip.fetchWaits k = false ∧ s.dev.fetch k = some b ∧
    b.empty = false

/-- Core `k` stands at bundle `b`, and the bundle issues: a Steward raises no exception at it, and a queue of its LS
slot has the credit. -/
def issues (k : Nat) (b : Bundle) (s : State) : Prop :=
  atBundle k b s ∧ (isSteward k = true → s.dev.preException k (s.chip.core k) b = none) ∧
    (lsFmt b.ls = 1 → s.chip.creditShort k b.ls = false)

/-- The logical data register `n` of core `k`. -/
def opD (k : Nat) (s : State) (n : Nat) : Word := look 0 (s.chip.core k).d (physReg (s.chip.core k).rrb n)

/-- DA of the CT slot, and DB or the immediate (R190). -/
def opDA (k : Nat) (b : Bundle) (s : State) : Word := opD k s (fld b.ct 18 13)
def opDB (k : Nat) (b : Bundle) (s : State) : Word :=
  if bit b.ct 12 then BitVec.ofInt 32 (fldS b.ct 11 0) else opD k s (fld b.ct 5 0)

/-- DD of the CT slot (R190). -/
def destD (k : Nat) (b : Bundle) (s : State) : Dest := .d (physReg (s.chip.core k).rrb (fld b.ct 24 19))

/-- The registers of a core as they are delivered, but for PC and the loop levels. -/
def sameRegs (x y : CoreSt) : Prop :=
  y.d = x.d ∧ y.a = x.a ∧ y.p = x.p ∧ y.m = x.m ∧ y.b = x.b ∧ y.l = x.l ∧ y.mode = x.mode ∧ y.sstat = x.sstat

/-- The result `v` for `t` that the bundle issued by core `k` delivers after `lat` bundles. -/
def inFlight (k : Nat) (s : State) (lat : Nat) (t : Dest) (v : BitVec 80) : Flight :=
  { due := (s.chip.core k).issued + lat, dest := t, val := v }

/-- Command `i` issues the bundle at PC of core `k`: every result of `l` goes in flight, no register changes before its
delivery, and the other cores stay. Where the bundle's other slots hold NOPs, nothing else goes in flight, memory
stays, and no other part of the chip changes but the numbering of free values and what the fetch leaves in the bus
matrix. -/
def issuesWith (k : Nat) (s : State) (i : Instr) (others : Prop) (l : List Flight) : Prop :=
  ∃ d, exec i s = .next (s.devTo d) ∧ (∀ f ∈ l, f ∈ (d.chip.core k).flight) ∧
    (d.chip.core k).issued = (s.chip.core k).issued + 1 ∧ sameRegs (s.chip.core k) (d.chip.core k) ∧
    (∀ j, j ≠ k → d.chip.core j = s.chip.core j) ∧
    (others → (d.chip.core k).flight = l ∧ d.mem = s.mem ∧
      d.chip = { (s.dev.fetchBus k).chip with cores := d.chip.cores, freeCtr := d.chip.freeCtr })

/-- Only the CT slot of the bundle holds an operation. -/
def onlyCt (b : Bundle) : Prop := b.ma = 0 ∧ b.mb = 0 ∧ b.ls = 0

/-- Only the MAC slot `sl`, of word `w`, holds an operation, one that does not clamp. -/
def alone (b : Bundle) (sl : Slot) (w : Word) : Prop :=
  b.ls = 0 ∧ b.ct = 0 ∧ (sl = .ma → b.mb = 0) ∧ (sl = .mb → b.ma = 0) ∧ bit w 27 = false

/-- The data registers of an access, each with its place among the words moved: one, or an even one and its
successor (R148). -/
def pairOf (pair : Bool) (n : Nat) : List (Nat × Nat) := if pair then [(n / 2 * 2, 0), (n / 2 * 2 + 1, 1)] else [(n, 0)]

/-- A CT result of latency 1, with the SSTAT bit `n` when `clamped` (R140, R143). -/
def ctList (k : Nat) (s : State) (t : Dest) (v : BitVec 80) (n : Nat) (clamped : Bool) : List Flight :=
  inFlight k s 1 t v :: (if clamped then [inFlight k s 1 (.flag n) 1] else [])

/-- The exact value `x` narrowed to 32 bits: clamped with S = 1, else modulo 2^32 (R138). -/
def narrowed (sat : Bool) (x : Int) : Word := if sat then satWord x else BitVec.ofInt 32 x

/-- Whether S = 1 clamps the exact value `x` to 32 bits. -/
def clamps (sat : Bool) (x : Int) : Bool := sat && decide (x < -(2 ^ 31) ∨ 2 ^ 31 ≤ x)

/-- Core `k`, a Steward, enters its exception `cause` (R166): EPC holds bundle address `pc`, ESTAT the old STATUS, SUP is
1 and IE 0, CAUSE the cause, PC the vector; flag 6 of its page is set; memory, the other cores and every other register
stay as in `b`, the chip with what the fetch or the access leaves in the bus matrix. -/
def entered (k cause pc : Nat) (s : State) (b : Chip) (d : Dev) : Prop :=
  (d.chip.core k).epc = word (16 * pc) ∧ (d.chip.core k).estat = (s.chip.core k).status ∧ (d.chip.core k).status = 1 ∧
    (d.chip.core k).cause = word cause ∧ (d.chip.core k).svbase = (s.chip.core k).svbase ∧
    (d.chip.core k).pc = ((s.chip.core k).svbase.toNat + 0x40 * cause) % 2 ^ 32 / 16 ∧
    (d.chip.core k).hold = .none ∧ d.chip.coreState k = 1 ∧ raises (pgCore k) 6 b d.chip ∧
    sameBut [Reg.IRQ_RAW (pgCore k), stateKey k] b d.chip ∧ (∀ j, j ≠ k → d.chip.core j = s.chip.core j) ∧
    d.mem = s.mem ∧ d.chip = { b with regs := d.chip.regs, cores := d.chip.cores }

/-- The results in flight of core `k` are due within the longest latency, as every issue leaves them. -/
def flightsDue (k : Nat) (s : State) : Prop := ∀ f ∈ (s.chip.core k).flight, f.due ≤ (s.chip.core k).issued + 4

/-- Core `k` has no result in flight and is in state `v`; the rest of the chip but its STATE and what it holds stays. -/
def stopped (k v : Nat) (s : State) (c : Chip) : Prop :=
  (c.core k).flight = [] ∧ c.coreState k = v ∧ sameBut [stateKey k, Reg.IRQ_RAW (pgCore k)] s.chip c ∧
    (∀ j, j ≠ k → c.core j = s.chip.core j) ∧ c = { s.chip with regs := c.regs, cores := c.cores }

/-! Courier channels. -/

/-- `d` with the mark that an access has to wait taken back, as every command of a channel begins. -/
def fresh (d : Dev) : Dev := { d with chip := { d.chip with stall := false } }

/-- `d` with that mark as it stands in `s`, as every command leaves it. -/
def settled (s : State) (d : Dev) : Dev := { d with chip := { d.chip with stall := s.chip.stall } }

/-- No earlier access of master port `p`, for channel `chan`, keeps an access to Bank Memory waiting (R311, R318). -/
def portFree (p chan : Nat) (c : Chip) : Prop :=
  c.atLimit p chan = false ∧ ∀ q ∈ c.mtx.wait ++ c.mtx.acc, q.master ≠ p

/-- Channel `n` may begin an instruction and fetches `w`, and no access of it has to wait; `d` is the device after the
fetch. -/
def fetched (n : Nat) (w : BitVec 64) (s : State) (d : Dev) : Prop :=
  s.chip.chanMayStart n = true ∧ (s.chip.chan n).started = false ∧ portFree (chanPort n) n s.chip ∧
    (fresh s.dev).chanFetch n = d ∧ d.chip.chanState n = 1 ∧ (d.chip.chan n).instr = w

/-- Channel `n` fetches `w`, which is neither illegal nor refused by Plain Mode. -/
def beginsInstr (n : Nat) (w : BitVec 64) (s : State) (d : Dev) : Prop :=
  fetched n w s d ∧ d.chip.chanIllegal n = false ∧ (d.chip.plainEff n = true → plainRefuses w = false)

/-- Channel `n` is in RUN at program offset `pc`, between instructions. -/
def atOffset (n pc : Nat) (c : Chip) : Prop :=
  c.chanState n = 1 ∧ c.rd (Reg.CUR_CH_PC n) = word pc ∧ (c.chan n).started = false

/-- Channel `n` has stopped in ERROR with `code`, opcode `op` and the failing address `a` (R301). -/
def chanFailed (n op code a : Nat) (c c' : Chip) : Prop :=
  c'.chanState n = 4 ∧ c'.rdb (Reg.IRQ_RAW (chanPage n)) (4 * chanSlot n + 2) = true ∧
    errs (chanPage n) code (word (chanSlot n + op * 0x100)) c c' ∧ c'.rd (Reg.CUR_CH_ERRADDR_LO n) = word a ∧
    c'.rd (Reg.CUR_CH_ERRADDR_HI n) = word (a / 2 ^ 32 % 256)

/-- Every bank is On. -/
def banksOn (c : Chip) : Prop := ∀ b, b < 64 → c.bankOn b = true

/-- `n` bytes from `a` lie in Bank Memory. -/
def inBanks (a n : Nat) : Prop := 0x2000_0000 ≤ a ∧ a + n ≤ 0x2200_0000

/-- The two ranges share no byte. -/
def apart (a n b m : Nat) : Prop := a + n ≤ b ∨ b + m ≤ a

/-! Aster. -/

/-- Reference `r` is selected by rank and nothing asks for another: FORCE is 0, no recalibration runs, the DCO is within
its range, `r` is qualified and no qualified reference ranks strictly better. -/
def steadyOn (r : Nat) (c : Chip) : Prop :=
  c.rdb Reg.ASTER_REFSEL 8 = false ∧ c.aster.recal = false ∧ c.asterRail = false ∧ c.aster.sel = some r ∧ r < 12 ∧
    c.refQual r = true ∧ ∀ m, m < 12 → c.refQual m = true → c.refRank r ≤ c.refRank m

/-! Lanes. -/

/-- The registers of the Stem link on lane `n` that follow the lane's state (R496). -/
def stemRegs (n : Nat) : List Nat :=
  if 4 ≤ n ∧ n ≤ 7 then [Reg.STM_STAT (n - 4), Reg.STM_RX_RESYNCS (n - 4), Reg.IRQ_RAW (pgSTM (n - 4))] else []

/-- The status registers of lane `n`, and those of an Ethernet port, a Stem link and Iris that follow its state. -/
def laneRegs (n : Nat) : List Nat :=
  [Reg.LANE_STAT n, Reg.LANE_HIST n, Reg.LANE_HDRERR n, Reg.LANE_LOCKLOSS n, Reg.LANE_WINERR n, Reg.LANE_FREQ n,
    Reg.LANE_LOCKTIME n, Reg.IRQ_RAW (pgLANE n)] ++ (if n < 4 then [Reg.ETH_STAT n, Reg.IRQ_RAW (pgETH n)] else stemRegs n) ++
    Reg.IRIS_STAT :: irqErrRegs pgIRIS

/-- From `c` to `c'` only registers of `ks`, lane `n` and the Stem link on it change. -/
def laneOnly (n : Nat) (ks : List Nat) (c c' : Chip) : Prop :=
  sameBut ks c c' ∧ (∀ m, m ≠ n → c'.lane m = c.lane m) ∧ (∀ m, m + 4 ≠ n → c'.stemSt m = c.stemSt m) ∧
    c' = { c with regs := c'.regs, lanes := c'.lanes, stem := c'.stem }

/-- Lane `n` has entered state `v` with loss `h`: its sticky bit in HIST and its flag `f`; a departure from LOCKED is
counted unless FREEZE holds the counter (R413). -/
def laneLoses (n v h f : Nat) (c c' : Chip) : Prop :=
  c'.laneState n = v ∧ c'.rdb (Reg.LANE_HIST n) h = true ∧ c'.rdb (Reg.IRQ_RAW (pgLANE n)) f = true ∧
    (c.freeze (pgLANE n) = false → c'.rd (Reg.LANE_LOCKLOSS n) =
      if c.laneState n = 5 then satInc (c.rd (Reg.LANE_LOCKLOSS n)) else c.rd (Reg.LANE_LOCKLOSS n)) ∧
    laneOnly n (laneRegs n) c c'

/-- Bit `i` of a payload `p` descrambled after the 58 payload bits of `s` (R406). -/
def descrambled (s : BitVec 58) (p : BitVec 64) (i : Nat) : Bool :=
  (p.getLsbD i ^^ (if 39 ≤ i then p.getLsbD (i - 39) else s.getLsbD (38 - i))) ^^
    (if 58 ≤ i then p.getLsbD (i - 58) else s.getLsbD (57 - i))

/-! Ethernet. -/

/-- From `c` to `c'` only registers of `ks`, the FIFOs, timers and gates of port `p`, and which master the matrix granted
last change. -/
def ethOnly (p : Nat) (ks : List Nat) (c c' : Chip) : Prop :=
  sameBut ks c c' ∧ (∀ q, q ≠ p → c'.ethSt q = c.ethSt q) ∧
    c' = { c with regs := c'.regs, eth := c'.eth, mtx := { c.mtx with last := c'.mtx.last } }

/-- `n` bytes from `a` lie in network packet memory. -/
def inPacket (a n : Nat) : Prop := 0x6200_0000 ≤ a ∧ a + n ≤ 0x6240_0000

/-- The little-endian number of `n` bytes from `a`. -/
def numAt (m : Memory) (a n : Nat) : Nat := bytesNat ((List.range n).map (fun i => m.get (a + i)))

/-! Streams and Stem links. -/

/-- From `c` to `c'` only registers of `ks` and, of the stream window, offsets of `os` of stream `t` change. -/
def strmOnly (t : Nat) (os ks : List Nat) (c c' : Chip) : Prop :=
  sameBut ks c c' ∧ (∀ i o, o < 0x1000 → i ≠ t ∨ o ∉ os → c'.srd i o = c.srd i o) ∧
    (∀ i, i ≠ t → c'.strmTx i = c.strmTx i ∧ c'.strmRx i = c.strmRx i) ∧ c'.strm.m = c.strm.m

/-- From `c` to `c'` only registers of `ks`, link `n` and its lane change. -/
def stemOnly (n : Nat) (ks : List Nat) (c c' : Chip) : Prop :=
  sameBut ks c c' ∧ (∀ m, m ≠ n → c'.stemSt m = c.stemSt m) ∧ (∀ m, m ≠ 4 + n → c'.lane m = c.lane m) ∧
    c' = { c with regs := c'.regs, stem := c'.stem, lanes := c'.lanes }

/-! Speakers. -/

/-- From `c` to `c'` only registers of `ks` and channel `n` change. -/
def spkOnly (n : Nat) (ks : List Nat) (c c' : Chip) : Prop :=
  sameBut ks c c' ∧ (∀ m, m ≠ n → c'.spkSt m = c.spkSt m) ∧
    c' = { c with regs := c'.regs, spk := c'.spk, freeCtr := c'.freeCtr }

/-- Channel `n` has moved to state `v`: IRQ_RAW.STATE is set (R514). -/
def spkEnters (n v : Nat) (c' : Chip) : Prop := c'.spkState n = v ∧ c'.rdb (Reg.IRQ_RAW (pgSPK n)) 6 = true

/-- A detector has acted on the playing channel `n` for `cause` (R522): SHORT, or LATCHED with RETRIES = 3. -/
def spkTrips (n cause : Nat) (c c' : Chip) : Prop :=
  c'.rdf (Reg.SPK_STAT n) 7 6 = cause ∧ c'.rdb (Reg.IRQ_RAW (pgSPK n)) 0 = true ∧
    (c.freeze (pgSPK n) = false → c'.rd (Reg.SPK_SHORTS n) = satInc (c.rd (Reg.SPK_SHORTS n))) ∧
    (c.spkRetries n = 3 → spkEnters n 7 c' ∧ c'.rdb (Reg.IRQ_RAW (pgSPK n)) 1 = true ∧
      c'.rdb (Reg.IRQ_RAW pgSPKC) 0 = true) ∧
    (c.spkRetries n ≠ 3 → spkEnters n 6 c' ∧ c'.rd (Reg.IRQ_RAW pgSPKC) = c.rd (Reg.IRQ_RAW pgSPKC)) ∧
    c'.spkRetries n = c.spkRetries n ∧ (c'.spkSt n).switch = false

/-- `f` is a frequency that Station Avoid permits, in range, and none permitted lies nearer to FREQ within the span
(R512, R513). -/
def saNearest (n f : Nat) (c : Chip) : Prop :=
  300 ≤ f ∧ f ≤ 1200 ∧ c.saPermits f = true ∧
    ∀ g, 300 ≤ g → g ≤ 1200 → c.saPermits g = true →
      ((g : Int) - c.rdf (Reg.SPK_CFG n) 10 0).natAbs ≤ c.rdf Reg.SPKC_SA_CFG 23 16 →
      ((f : Int) - c.rdf (Reg.SPK_CFG n) 10 0).natAbs ≤ ((g : Int) - c.rdf (Reg.SPK_CFG n) 10 0).natAbs

/-! Foxglove. -/

/-- The registers of an entry to a state and of the quiet causes. -/
abbrev fgRegs : List Nat := [Reg.FG_STATE, Reg.FG_QCAUSE, Reg.FG_HIST, Reg.IRQ_RAW pgFG]

/-- The registers that the entry of channel `n` to MUTED writes. -/
abbrev muteRegs (n : Nat) : List Nat := [Reg.SPK_STAT n, Reg.SPK_DIAG_RES n, Reg.IRQ_RAW (pgSPK n)]

/-- The flag of an entry to state `v` of Foxglove (R558). -/
def fgFlag (v : Nat) : Nat := if v = 0 then 5 else v - 1

/-- The registers of a conflict of roles. -/
abbrev clashRegs : List Nat := [Reg.MGLD_ROLE, Reg.IRQ_RAW pgMGLD]

/-- TAKEOVER_OUT has risen from `c`, with `x` beside Foxglove's registers, to `c'` on an ACTIVE unit within 10 µs of the
rise of FORCE_QUIET_IN (R584). -/
def fgClash (x : FgSt) (c c' : Chip) : Prop :=
  c'.takeoverOut = true ∧ x.takeAt = none ∧ c'.roleActive = true ∧ ∃ t, x.fqiAt = some t ∧ c.now64 - t < 10000

/-- Foxglove, put into state `v` with the quiet causes `q` and with `x` beside its registers, has settled (R523, R537,
R548): STANDBY follows PAIRED and the role, RUN and QUIET follow the causes, TOTEST lasts in HOLD alone, the rise of
TAKEOVER_OUT is timed and may be a conflict of roles, and every speaker channel whose pin path now asserts raises its
flag, the playing one MUTED. Registers of `ks` apart, nothing else changes. -/
def fgActs (v : Nat) (q : Nat → Bool) (x : FgSt) (ks : List Nat) (c c' : Chip) : Prop :=
  (∀ i, i < 5 → c'.fgCause i = (q i || (decide (i = 3) && c.paired && !c'.roleActive))) ∧
    c'.fgState = (if v = 1 ∨ v = 2 then (if c'.rdf Reg.FG_QCAUSE 4 0 = 0 then 1 else 2) else v) ∧
    (c'.fgState ≠ c.fgState → c'.rdb Reg.FG_HIST c'.fgState = true ∧ c'.rdb (Reg.IRQ_RAW pgFG) (fgFlag c'.fgState) = true) ∧
    c'.fg.totest = (x.totest && decide (c'.fgState = 0)) ∧ (c'.fg.soft = true → x.soft = true) ∧
    (v ≠ 0 → v ≠ 3 → c'.fg.gain = x.gain) ∧
    c'.fg.takeAt = (if c'.takeoverOut then some (x.takeAt.getD c.now64) else none) ∧
    c'.fg = { x with soft := c'.fg.soft, gain := c'.fg.gain, totest := c'.fg.totest, takeAt := c'.fg.takeAt } ∧
    (∀ n, n < 16 →
      (c.fgPin (520 + n) = false → c'.fgPin (520 + n) = true → c'.rdb (Reg.IRQ_RAW (pgSPK n)) 4 = true ∧
        (2 ≤ c.spkState n → c.spkState n ≤ 6 → spkEnters n 1 c' ∧ c'.spkRetries n = 0) ∧
        (c.spkState n < 2 ∨ 6 < c.spkState n → c'.spkSt n = c.spkSt n ∧
          ∀ k ∈ [Reg.SPK_STAT n, Reg.SPK_DIAG_RES n], c'.rd k = c.rd k)) ∧
      (c.fgPin (520 + n) = true ∨ c'.fgPin (520 + n) = false →
        c'.spkSt n = c.spkSt n ∧ ∀ k ∈ muteRegs n, c'.rd k = c.rd k)) ∧
    (fgClash x c c' → c'.rdb Reg.MGLD_ROLE 12 = true ∧ c'.rdb (Reg.IRQ_RAW pgMGLD) 6 = true) ∧
    (Reg.MGLD_ROLE ∉ ks → (∀ i, i ≠ 12 → c'.rdb Reg.MGLD_ROLE i = c.rdb Reg.MGLD_ROLE i) ∧
      (∀ i, i ≠ 6 → c'.rdb (Reg.IRQ_RAW pgMGLD) i = c.rdb (Reg.IRQ_RAW pgMGLD) i) ∧
      (¬fgClash x c c' → ∀ k ∈ clashRegs, c'.rd k = c.rd k)) ∧
    sameBut (fgRegs ++ ks ++ clashRegs ++ (List.range 16).flatMap muteRegs) c c' ∧
    c' = { c with regs := c'.regs, fg := c'.fg, spk := c'.spk, freeCtr := c'.freeCtr }

/-- A detector has acted on output `g` for cause `k` (R538, R544): nothing in HOLD and FAULT or while the output's trip is
held; else the trip, with the pin path at once for a hard cause of a speaker and at LOCKOUT, the fourth trip in 10 s. -/
def guardTrips (g k : Nat) (c c' : Chip) : Prop :=
  (∀ m, m = (c.guard g).times.filter (fun t => decide (c.now64 - t ≤ 10000000000)) →
    (c.fgBoth = true ∨ c.tripped g = true → c'.fg.guards = c.fg.guards ∧ c'.fg.cause = c.fg.cause ∧
      ∀ i, c'.tripped i = c.tripped i ∧ c'.lockedOut i = c.lockedOut i) ∧
    (c.fgBoth = false → c.tripped g = false → c'.tripped g = true ∧ c'.rdb (Reg.IRQ_RAW pgGUARD) 0 = true ∧
      look 0 c'.fg.cause g = k ∧ (c'.guard g).times = c.now64 :: m ∧ (c'.guard g).timed = false ∧
      ((c'.guard g).pin = true ↔ k = 4 ∨ k = 5 ∨ (k = 1 ∧ 520 ≤ g) ∨ 3 ≤ m.length) ∧
      (3 ≤ m.length → c'.lockedOut g = true ∧ c'.rdb (Reg.IRQ_RAW pgGUARD) 1 = true) ∧
      (m.length < 3 → c'.lockedOut g = c.lockedOut g) ∧
      ∀ i, i ≠ g → c'.guard i = c.guard i ∧ look 0 c'.fg.cause i = look 0 c.fg.cause i ∧
        (i < 536 → c'.tripped i = c.tripped i ∧ c'.lockedOut i = c.lockedOut i))) ∧
  fgActs c.fgState c.fgCause { c.fg with guards := c'.fg.guards, cause := c'.fg.cause }
    [Reg.GUARD_TRIP (g / 32), Reg.GUARD_LOCK (g / 32), Reg.IRQ_RAW pgGUARD] c c'

/-- `f` enters FAULT with bit `b` of FG_FAULT (R559), and so asserts reset source 4 unless FAULT held (R612): `c` is the
chip before that reset acts, `d` the device after it. -/
def fgFaults (b : Nat) (ks : List Nat) (s : State) (d : Dev) : Prop :=
  ∃ c, d = (if s.chip.fgState = 3 then (s.chipTo c).dev else (s.chipTo c).dev.resetSource 4 false) ∧
    c.fgState = 3 ∧ c.rdb Reg.FG_FAULT b = true ∧ (s.chip.fgState ≠ 3 → c.fg.gain = 0) ∧ (∀ g, c.fgPin g = true) ∧
    fgActs 3 s.chip.fgCause s.chip.fg (Reg.FG_FAULT :: ks) s.chip c

/-! Marigold. -/

/-- The registers of a change of role. -/
abbrev roleRegs : List Nat := [Reg.MGLD_ROLE, Reg.MGLD_EPOCH, Reg.IRQ_RAW pgMGLD]

/-- Marigold enters role `r` from the chip `c` (R566, R567, R584), and Foxglove follows it. -/
def mgldTurns (r : Nat) (c c' : Chip) : Prop :=
  c'.mgldRole = r ∧
    (c.mgldRole ≠ r → c'.rdb (Reg.IRQ_RAW pgMGLD) 0 = true ∧
      c'.mgldEpoch = (if r = 1 then (c.mgldEpoch + 1) % 2 ^ 16 else c.mgldEpoch) ∧
      c'.rdf Reg.MGLD_ROLE 19 16 = 0 ∧ c'.rdb Reg.MGLD_ROLE 10 = false ∧
      (∀ i, i ≠ 0 → i ≠ 6 → c'.rdb (Reg.IRQ_RAW pgMGLD) i = c.rdb (Reg.IRQ_RAW pgMGLD) i) ∧
      c'.mgld = { c.mgld with row := 0, hand := false, lock := false } ∧
      fgActs c.fgState c.fgCause c.fg roleRegs { c with mgld := c'.mgld } c') ∧
    (c.mgldRole = r → c'.mgld = c.mgld ∧ fgActs c.fgState c.fgCause c.fg [] c c')

/-- A take-over from the chip `c` (R584). -/
def mgldTakes (c c' : Chip) : Prop :=
  ∃ b, mgldTurns 1 c b ∧ c'.mgld = { b.mgld with isOver := true } ∧ c'.mgldRole = 1 ∧
    (c.freeze pgMGLD = false → c'.rd Reg.MGLD_FAILOVERS = satInc (c.rd Reg.MGLD_FAILOVERS)) ∧
    c'.rd Reg.MGLD_FO_SHORT = c.now ∧ c'.rdb (Reg.IRQ_RAW pgMGLD) 1 = true ∧
    sameBut [Reg.MGLD_FAILOVERS, Reg.MGLD_FO_SHORT, Reg.IRQ_RAW pgMGLD] b c' ∧
    c' = { b with regs := c'.regs, mgld := c'.mgld }

/-- Marigold takes the next word of pair `i` (R575): `w` with its fades (R217, R218), none at an underrun. `d` is the device
after the pop, `g` Marigold with the pair's fade and place in the block moved on. -/
def mirrorTakes (i : Fin 32) (w : Option Word) (g : MgldSt) (s : State) (d : Dev) : Prop :=
  ∀ q nch k ch n y fin, q = s.chip.pairIn i → n = s.chip.tickN → nch = max 1 ((s.chip.queue q).quota / n) →
    k = look 0 s.chip.mgld.inPos i / nch → ch = look 0 s.chip.mgld.inPos i % nch →
    y = look blockFadeReset s.chip.mgld.inFade i → fin = (if k = 0 ∧ ch = 0 then y.pend else y.fin) →
    i.val < s.chip.npair ∧
      (s.chip.blockWithheld q 8 0 = true → d = s.dev ∧ ∀ last, last = look 0 (if k = 0 then y.last else y.base) ch →
        w = some (scaleTrunc last (n - 1 - k) n)) ∧
      (s.chip.blockWithheld q 8 0 = false → ∃ r v, s.dev.pop q 8 0 = (r, v, d) ∧
        w = (if r = .served then some (if fin then scaleTrunc v (k + 1) n else v) else none)) ∧
      g = { s.chip.mgld with inFade := g.inFade, inPos := g.inPos } ∧
      g.inPos = (if w.isSome then put s.chip.mgld.inPos i ((look 0 s.chip.mgld.inPos i + 1) % (nch * n)) else s.chip.mgld.inPos) ∧
      g.inFade = put s.chip.mgld.inFade i (if s.chip.blockWithheld q 8 0 then
        { base := if k = 0 then put y.base ch (look 0 y.last ch) else y.base, last := put y.last ch (w.getD 0)
          pend := true, fin := false }
        else if w.isSome then { y with last := put y.last ch (w.getD 0), fin := fin, pend := y.pend && !(k == 0 && ch == 0) }
        else { y with last := put y.last ch 0, fin := y.fin && !(k == 0 && ch == 0) })

/-- Record `r` is one that Marigold takes in (R566, R585), whole by its Trailer (R580), of the EPOCH it accepts. -/
def recordSound (r : MirrorRecord) (c : Chip) : Prop :=
  c.en pgMGLD = true ∧ c.idleReq pgMGLD = false ∧ r.crc = crc32 r.data ∧ r.blocks = r.data.length / 8 ∧ r.data.length % 8 = 0 ∧
    ((c.mgldReceives = true ∧ r.epoch.toNat = c.mgldEpoch) ∨
      (c.mgldRole = 1 ∧ c.mgld.finish = some r.tick ∧ r.epoch.toNat = (c.mgldEpoch + 65535) % 65536))

/-! DRAM. -/

/-- From `c` to `c'` only registers of `ks` and controller `k` change. -/
def dramOnly (k : Nat) (ks : List Nat) (c c' : Chip) : Prop :=
  sameBut ks c c' ∧ (∀ j, j ≠ k → c'.dramSt j = c.dramSt j) ∧ c' = { c with regs := c'.regs, dram := c'.dram }

/-- A pause has begun at controller `k` (R602). -/
def pauseBegins (k : Nat) (c c' : Chip) : Prop :=
  c'.dramState k = 3 ∧ c'.rdb (Reg.DRAM_STAT k) 15 = false ∧ c'.rd (Reg.DRAM_RT_LAST k) = c.now ∧
    (c.freeze (pgDRAM k) = false → c'.rd (Reg.DRAM_PAUSES k) = satInc (c.rd (Reg.DRAM_PAUSES k))) ∧
    c'.dramSt k = { c.dramSt k with slot := false, rows := [] }

/-- The training of a pause has passed or failed at controller `k` (R604). -/
def trained (k : Nat) (ok : Bool) (c c' : Chip) : Prop :=
  (ok = true → c'.rdf (Reg.DRAM_STAT k) 13 12 = 0) ∧
    (ok = false → c'.rdf (Reg.DRAM_STAT k) 13 12 = min 3 (c.rdf (Reg.DRAM_STAT k) 13 12 + 1) ∧
      c'.rdb (Reg.IRQ_RAW (pgDRAM k)) 1 = true ∧
      (c.freeze (pgDRAM k) = false → c'.rd (Reg.DRAM_TRAIN_FAILS k) = satInc (c.rd (Reg.DRAM_TRAIN_FAILS k))) ∧
      (c.rdf (Reg.DRAM_STAT k) 13 12 = 2 → c'.rdb (Reg.DRAM_STAT k) 14 = true ∧
        c'.rdb (Reg.IRQ_RAW (pgDRAM k)) 2 = true) ∧
      (c.rdf (Reg.DRAM_STAT k) 13 12 ≠ 2 → c'.rdb (Reg.DRAM_STAT k) 14 = c.rdb (Reg.DRAM_STAT k) 14 ∧
        c'.rdb (Reg.IRQ_RAW (pgDRAM k)) 2 = c.rdb (Reg.IRQ_RAW (pgDRAM k)) 2))

/-- An MR4 reading has acted at controller `k` (R599, R600). -/
def mr4Acts (k op band : Nat) (c c' : Chip) : Prop :=
  c'.rd (Reg.DRAM_TEMP k) = word (op + band * 0x100 + 0x1_0000) ∧
    c'.dramHot k = (if band = 0 then false else if band = 2 then true else c.dramHot k) ∧
    c'.dramCrit k = (if band = 0 ∨ band = 2 then false else if 3 ≤ band then true else c.dramCrit k) ∧
    (c.dramHot k = false → c'.dramHot k = true → c'.rdb (Reg.IRQ_RAW (pgDRAM k)) 3 = true) ∧
    (c.dramHot k = true ∧ c'.dramHot k = false ∨ c.dramCrit k = true ∧ c'.dramCrit k = false →
      c'.rdb (Reg.IRQ_RAW (pgDRAM k)) 4 = true) ∧
    (c.dramCrit k = false → c'.dramCrit k = true → c'.rdb (Reg.IRQ_RAW (pgDRAM k)) 5 = true) ∧
    (c.dramHot k = false ∧ c.dramCrit k = false ∧ (c'.dramHot k = true ∨ c'.dramCrit k = true) ∧ c.postponed k ≠ 0 →
      c'.postponed k = 0 ∧ c'.rdb (Reg.IRQ_RAW (pgDRAM k)) 6 = true ∧
      (c.freeze (pgDRAM k) = false → c'.rd (Reg.DRAM_PAYOFFS k) = satInc (c.rd (Reg.DRAM_PAYOFFS k)))) ∧
    (c.dramHot k = true ∨ c.dramCrit k = true ∨ (c'.dramHot k = false ∧ c'.dramCrit k = false) ∨ c.postponed k = 0 →
      c'.postponed k = c.postponed k ∧ c'.rd (Reg.DRAM_PAYOFFS k) = c.rd (Reg.DRAM_PAYOFFS k) ∧ c'.dram = c.dram)

/-- `p` is the accepted part that controller `k` serves next (R595): the first that has starved; else, of the oldest of
each master, one of the highest QoS, of those a row hit, of those the first. -/
def dramNext (k : Nat) (c : Chip) (p : MtxPart) : Prop :=
  ∀ l sv rank old, l = c.mtx.acc.filter (fun q => q.target == 8 + k) →
    sv = (fun q : MtxPart => decide (max 200 (c.rdf (Reg.DRAM_SCHED k) 11 0) ≤ (c.now - q.since).toNat)) →
    rank = (fun q : MtxPart => 2 * q.qos + b2n (c.rowHit k q)) →
    old = (fun q : MtxPart => (l.find? (fun r => r.master == q.master)).map (·.seq) == some q.seq) →
    (∃ a b, l = a ++ p :: b ∧ sv p = true ∧ ∀ q ∈ a, sv q = false) ∨
      ((∀ q ∈ l, sv q = false) ∧ ∃ a b, l = a ++ p :: b ∧ old p = true ∧ (∀ q ∈ a, old q = true → rank q < rank p) ∧
        ∀ q ∈ b, old q = true → rank q ≤ rank p)

/-! Resets. -/

/-- The block of page `p`, of kind `pk` and number `i`, has been reset by a BLOCK reset, `forced` or idle (R619): its header
reads Reset, the reset is recorded, and a master port of it with anything on its way drains. -/
def blockReset (pk : PageKind) (i p : Nat) (forced : Bool) (s : State) (d : Dev) : Prop :=
  d.chip.blkPhase p = 2 ∧
    d.chip.rd Reg.RST_BLK_LAST = word (p + 256 * b2n forced + 512 * b2n ((blockPort pk i).any s.chip.portBusy)) ∧
    (forced = true → d.chip.rd Reg.RST_FORCED_COUNT = satInc (s.chip.rd Reg.RST_FORCED_COUNT) ∧
      d.chip.rdb (Reg.IRQ_RAW pgRST) 0 = true) ∧
    (forced = false → d.chip.rd Reg.RST_FORCED_COUNT = s.chip.rd Reg.RST_FORCED_COUNT) ∧
    (∀ k ∈ [Reg.CTRL p, Reg.STAT p, Reg.IRQ_RAW p, Reg.IRQ_MASK p, Reg.ERR_CODE p, Reg.ERR_INFO p, Reg.SHADOW_CTL p],
      d.chip.rd k = regReset k) ∧
    d.chip.pwr = { s.chip.pwr with
      blk := d.chip.pwr.blk, mboxIn := d.chip.pwr.mboxIn, mboxOut := d.chip.pwr.mboxOut, hostErr := d.chip.pwr.hostErr,
      bootq := d.chip.pwr.bootq }

/-- A reset by source `src` at level `l` has begun on `s` (R611, R616, R618): its record, its level, the step at which its
sequence begins or 0 while a source holds it, the Tick Unit stopped; Foxglove in HOLD and unsealed, or untouched by an
ENGINE reset, as the time base, the network, the streams and the speakers are. -/
def resetBegun (src l : Nat) (held : List Nat) (s : State) (d : Dev) : Prop :=
  d.chip.rd Reg.RST_RESET_CAUSE = word (src + 16 * l) ∧ d.chip.pwr.level = l ∧ d.chip.pwr.waiting = none ∧
    d.chip.pwr.held = held ∧
    d.chip.pwr.seq = (if d.chip.heldAt l then 0 else if l = 0 then 1 else if l = 1 then 4 else 0) ∧
    d.chip.tick = tickReset ∧
    (l ≤ 1 → rising s.chip.regs = true →
      d.chip.fgState = (if l = 1 ∧ s.chip.fgState = 3 then 3 else 0) ∧ d.chip.sealed = false) ∧
    (l = 2 → d.chip.fg = s.chip.fg ∧ d.chip.tb = s.chip.tb ∧ d.chip.eth = s.chip.eth ∧ d.chip.strm = s.chip.strm ∧
      d.chip.spk = s.chip.spk ∧ d.chip.lanes = s.chip.lanes)

/-- Source `src` has asserted at level `l` on `s` (R612, R613, R616, R620): at NONE it is noted as ignored; an equal or
narrower level than the reset in progress is absorbed, and restarts a fuse load; a broader one begins, as RESET_N does
after a fuse fault. -/
def resetActs (src l : Nat) (holds : Bool) (s : State) (d : Dev) : Prop :=
  ∀ held again, held = (if holds then src :: s.chip.pwr.held.filter (· != src) else s.chip.pwr.held) →
    (again ↔ src = 1 ∧ s.chip.fuseFault = true) →
    (l = 3 → d.mem = s.mem ∧ d.chip.rdb Reg.RST_IGNORED src = true ∧ raises pgRST 1 s.chip d.chip ∧
      sameBut [Reg.RST_IGNORED, Reg.IRQ_RAW pgRST] s.chip d.chip ∧
      d.chip = { s.chip with regs := d.chip.regs, pwr := { s.chip.pwr with held := held } }) ∧
    (l ≠ 3 → ¬again → s.chip.pwr.level ≤ l → d.mem = s.mem ∧ d.chip.rdb Reg.RST_RESET_CAUSE 8 = true ∧
      d.chip.rdf Reg.RST_RESET_CAUSE 5 0 = s.chip.rdf Reg.RST_RESET_CAUSE 5 0 ∧
      (s.chip.fuseLoading = true → d.chip.rdf Reg.FUSE_STAT 11 8 = min 15 (s.chip.rdf Reg.FUSE_STAT 11 8 + 1)) ∧
      (s.chip.fuseLoading = false → d.chip.rd Reg.FUSE_STAT = s.chip.rd Reg.FUSE_STAT) ∧
      sameBut [Reg.RST_RESET_CAUSE, Reg.FUSE_STAT] s.chip d.chip ∧
      d.chip = { s.chip with regs := d.chip.regs, pwr := { s.chip.pwr with held := held } }) ∧
    (l ≠ 3 → ¬again → l < s.chip.pwr.level → resetBegun src l held s d) ∧
    (l ≠ 3 → again → resetBegun src 0 (held.filter (· != 10)) s d)

/-- The watchdog of Steward `n` holds `v` units of 1,024 cycles (R167), which STn_WDOG_LEFT shows unless FREEZE holds it. -/
def wdogHolds (n : Fin 2) (v : Nat) (c c' : Chip) : Prop :=
  c'.core (32 + n) = { c.core (32 + n) with wdog := 1024 * v } ∧ (∀ k, k ≠ 32 + n.val → c'.core k = c.core k) ∧
    (c.freeze (pgST n) = false → c'.rd (Reg.ST_WDOG_LEFT n) = word v) ∧ c' = { c with regs := c'.regs, cores := c'.cores }

/-- The steps of R617 are through on the chip `c` (R616, R629): a held source keeps the reset, or narrows it; else ST0
starts at core address 0 and the Boot ROM turns to its source, or finds it denied. -/
def sequenceEnds (c c' : Chip) : Prop :=
  (c.heldAt c.pwr.level = true → c' = { c with pwr := { c.pwr with seq := 7 } }) ∧
    (c.heldAt c.pwr.level = false → c.heldAt 1 = true → c' = { c with pwr := { c.pwr with level := 1, seq := 7 } }) ∧
    (c.heldAt c.pwr.level = false → c.heldAt 1 = false → c'.coreState 32 = 1 ∧ (c'.core 32).pc = 0 ∧
      c'.pwr.level = (if c.heldAt 2 then 2 else 3) ∧ c'.pwr.seq = 0 ∧
      (c.bootDenied (c.rdf Reg.SYS_BOOT 2 0) = true → c'.rdf Reg.SYS_BOOT 15 8 = 0x08 ∧ c'.pwr.boot = c.pwr.boot) ∧
      (c.bootDenied (c.rdf Reg.SYS_BOOT 2 0) = false →
        c'.pwr.boot = { bootReset with waits := decide (c.rdf Reg.SYS_BOOT 2 0 < 4) }) ∧
      sameBut [stateKey 32, Reg.SYS_BOOT] c c' ∧ c' = { c with regs := c'.regs, cores := c'.cores, pwr := c'.pwr })

/-- A wake of cause bit `b` and source `src` on the chip `c` (R626 to R628). -/
def wakes (b src : Nat) (c c' : Chip) : Prop :=
  (c.pwr.entry.any (2 ≤ ·) = true ∨ ((c.pstate = 2 ∨ c.pstate = 3) ∧ c.pwr.waiting = none) →
      c'.rdb Reg.CLKPWR_WAKE_CAUSE b = true ∧ sameBut [Reg.CLKPWR_WAKE_CAUSE] c c' ∧
        c' = { c with regs := c'.regs, pwr := c'.pwr }) ∧
    (c.pwr.entry.any (2 ≤ ·) = true → c'.pwr = { c.pwr with latched := c.pwr.latched ++ [src] }) ∧
    (c.pwr.entry.any (2 ≤ ·) = false → c.pstate = 2 ∨ c.pstate = 3 → c.pwr.waiting = none →
      c'.pwr = { c.pwr with main := true, isl := true, waiting := some src }) ∧
    (c.pwr.entry.any (2 ≤ ·) = false → (c.pstate ≠ 2 ∧ c.pstate ≠ 3) ∨ c.pwr.waiting ≠ none → c' = c)

end Sys2Proof.Safety
end

