-- ==== Sys2Proof/Certificates/Slice0/Obligations.lean ====
section
/-! DEFINITION. The statements for the provers: what the rules of spec/ say the commands do, what they leave unchanged, and
what every step keeps. A statement names the log entry of notes/assumptions/ where it rests on a choice of the model. -/

open Sys2Proof Sys2Proof.Machine Sys2Proof.Safety

/-- The front of the queue runs (the block's queue is the model's); an empty queue idles (log entry 6). -/
def Obligations.StepRunsFrontOrIdles : Prop :=
  (∀ (s : State) (c : Instr) (rest : List Instr), s.pending = c :: rest → step s = exec c { s with pending := rest }) ∧
    ∀ s : State, s.pending = [] → ∃ c, step s = .next (s.chipTo c) ∧
      c.tb = (if 2 ≤ s.chip.pstate then s.chip.tb else s.chip.tb.advance 1) ∧
      (∀ n : Fin 2, (c.core (32 + n)).wdog =
        if s.chip.rdb (Reg.ST_WDOG_CFG n) 31 = true ∧ s.chip.coreState (32 + n) ≠ 4 then (s.chip.core (32 + n)).wdog - 1
        else (s.chip.core (32 + n)).wdog) ∧
      (∀ k, c.core k = { s.chip.core k with wdog := (c.core k).wdog }) ∧
      sameBut [Reg.IRQ_RAW pgTB, Reg.TICK_PHASE, Reg.ST_WDOG_LEFT 0, Reg.ST_WDOG_LEFT 1] s.chip c ∧
      c = { s.chip with regs := c.regs, tb := c.tb, clk := c.clk, cores := c.cores }

/-- The Reset columns of the register tables and the states that the chapters give after reset. -/
def Obligations.ResetStateHoldsTheResetValues : Prop :=
  State.reset.pending = [] ∧ State.reset.mem.cells = [] ∧ State.reset.mem.wf = true ∧
    (∀ e ∈ [(Reg.TICK_CFG, (0x23 : Word)), (Reg.TICK_ECYC_MIN, 0xF_FFFF), (Reg.SNAP_FLIP_MASK, 0xFFFF_FFFF),
        (Reg.DMIX_ZC, 1), (Reg.JACK_CFG, 0x140A), (Reg.JACK_THR0, 0x2C0_0030), (Reg.ASTER_CFG, 0x1142),
        (Reg.ASTER_STATE, 0x300_FF00), (Reg.TB_INC_INT, 2), (Reg.IRIS_CFG, 0x1400), (Reg.CB0_TXLEVEL, 0x200),
        (Reg.SPKC_SA_CFG, 0x64_0005), (Reg.FG_STATE, 0x38), (Reg.FG_QCAUSE, 1), (Reg.FG_CFG, 0xFF), (Reg.FG_WDOG, 0x68),
        (Reg.FG_HIST, 1), (Reg.GUARD_CFG, 0x14), (Reg.GUARD_STAT, 0), (Reg.MGLD_CFG, 0x1_0000), (Reg.MGLD_ROLE, 0),
        (Reg.SYS_TEMP_WARN, 0x550), (Reg.RST_TO_VAL, 0x1000), (Reg.RST_RESET_CAUSE, 0), (Reg.BOOTQ_CFG, 3),
        (Reg.CLKPWR_PSTAT, 0), (Reg.FUSE_STAT, 0)],
      (State.reset.dev.readReg e.1).1 = e.2) ∧
    (∀ n : Fin 4, ∀ e ∈ [(Reg.AES_CFG n, (0x28 : Word)), (Reg.AES_TRIM0 n, 0x1000_0000), (Reg.ETH_CFG n, 0x66),
        (Reg.ETH_MAXLEN n, 0x5F2), (Reg.STM_CFG n, 0x200), (Reg.STM_RX_OFS n, 8)],
      (State.reset.dev.readReg e.1).1 = e.2) ∧
    (∀ n : Fin 2, ∀ e ∈ [(Reg.DRAM_CFG n, (0x8_0022 : Word)), (Reg.DRAM_TIM0 n, 0x8C_0118), (Reg.DRAM_TIM1 n, 0xF42),
        (Reg.DRAM_RT_CFG n, 0x4_0020), (Reg.DRAM_SCHED n, 0x3E8), (Reg.DRAM_STAT n, 0), (Reg.ST_APBASE n, 0x1000)],
      (State.reset.dev.readReg e.1).1 = e.2) ∧
    (∀ n : Fin 16, ∀ e ∈ [(Reg.SAP_FMT n, (0x8_0000 : Word)), (Reg.SAP_ZC n, 1), (Reg.SPK_CFG n, 0x190),
        (Reg.SPK_DT n, 0x140), (Reg.SPK_MOD n, 0x14_00F3), (Reg.SPK_VOL n, 0x1000_0000)],
      (State.reset.dev.readReg e.1).1 = e.2) ∧
    (∀ n : Fin 10, (State.reset.dev.readReg (Reg.LANE_STAT n)).1 = 0x40) ∧
    (∀ g : Fin 536, State.reset.chip.rd (Reg.GUARD_G g) = 0x1B28_0000) ∧
    (∀ m : Fin 32, State.reset.chip.rd (Reg.MEC_APBASE m) = 0x1000) ∧
    (∀ k : Fin 34, State.reset.chip.coreState k = 0) ∧ (∀ q : Fin 1024, State.reset.chip.qEnabled q = false) ∧
    banksOn State.reset.chip ∧ State.reset.chip.tickRuns = false ∧ State.reset.chip.fgState = 0 ∧
    State.reset.chip.sealed = false ∧ State.reset.chip.mgldRole = 0 ∧ (∀ n : Fin 10, State.reset.chip.laneState n = 0) ∧
    ∀ n : Fin 16, State.reset.chip.spkState n = 0

/-- R31, R32 and the restart of R34. -/
def Obligations.TickStartRefusesInvalidConfigurations : Prop :=
  ∀ s : State,
    (s.chip.tick.on = false →
      (5 < s.chip.rdf Reg.TICK_CFG 2 0 ∨ 5 < s.chip.rdf Reg.TICK_CFG 6 4 ∨ s.chip.rdf Reg.TICK_CFG 9 8 = 3 ∨
          (4 ≤ s.chip.rdf Reg.TICK_CFG 2 0 ∧ s.chip.rdf Reg.TICK_CFG 6 4 = 0) →
        ∃ c, exec .tickStart s = .next (s.chipTo c) ∧ c = { s.chip with regs := c.regs } ∧
          errs pgTICK 0x02 0 s.chip c ∧ sameBut (errRegs pgTICK) s.chip c) ∧
      (s.chip.rdf Reg.TICK_CFG 2 0 ≤ 5 → s.chip.rdf Reg.TICK_CFG 6 4 ≤ 5 → s.chip.rdf Reg.TICK_CFG 9 8 ≠ 3 →
          (s.chip.rdf Reg.TICK_CFG 2 0 < 4 ∨ s.chip.rdf Reg.TICK_CFG 6 4 ≠ 0) →
        ∃ c, exec .tickStart s = .next (s.chipTo c) ∧
          c = { s.chip with
            regs := c.regs
            tick := { s.chip.tick with
              on := true, stopping := false, restart := false, enAt := s.chip.tb.short, skipped := false
              named := c.tick.named } } ∧
          (s.chip.rdf Reg.TICK_CFG 9 8 = 2 → c.tick.named = none) ∧
          (s.chip.rdf Reg.TICK_CFG 9 8 = 1 → before (s.chip.rd Reg.TICK_START_TIME) s.chip.tb.short = false →
            c.tick.named = some (s.chip.rd Reg.TICK_START_TIME)) ∧
          (s.chip.rdf Reg.TICK_CFG 9 8 = 0 ∨
              s.chip.rdf Reg.TICK_CFG 9 8 = 1 ∧ before (s.chip.rd Reg.TICK_START_TIME) s.chip.tb.short = true →
            c.tick.named = some (s.chip.tb.short +
              word (2 ^ s.chip.rdf Reg.TICK_CFG 6 4 * 1000000000 / rateHz s.chip.tick.rateNext))) ∧
          c.en pgTICK = true ∧ sameBut (Reg.CTRL pgTICK :: irqErrRegs pgTICK) s.chip c ∧
          (if s.chip.rdf Reg.TICK_CFG 9 8 = 1 ∧ before (s.chip.rd Reg.TICK_START_TIME) s.chip.tb.short = true
            then raises pgTICK 3 s.chip c ∧ errs pgTICK 0x03 0 s.chip c
            else sameBut [Reg.CTRL pgTICK] s.chip c))) ∧
    (s.chip.tick.on = true → s.chip.tick.stopping = true →
      ∃ c, exec .tickStart s = .next (s.chipTo c) ∧ c.tick = { s.chip.tick with restart := true } ∧ c.en pgTICK = true ∧
        sameBut [Reg.CTRL pgTICK] s.chip c ∧ c = { s.chip with regs := c.regs, tick := c.tick }) ∧
    (s.chip.tick.on = true → s.chip.tick.stopping = false → exec .tickStart s = .next s)

/-- R39, R41, R70, R71 and R395. -/
def Obligations.ReadsLatchAndCountersClear : Prop :=
  (∀ (s : State) (v : Word),
      (∃ c, exec .tickCountLoRead s = .next (s.chipTo c) ∧ c.rdata = s.chip.tick.count.setWidth 32 ∧
        c.rd Reg.TICK_COUNT_HI = (s.chip.tick.count >>> 32).setWidth 32 ∧ sameBut [Reg.TICK_COUNT_HI] s.chip c ∧
        c = { s.chip with regs := c.regs, rdata := c.rdata }) ∧
      (∃ c, exec (.ecycClr v) s = .next (s.chipTo c) ∧ c = { s.chip with regs := c.regs } ∧
        (bit v 0 = true → c.rd Reg.TICK_ECYC_MIN = 0xF_FFFF ∧ c.rd Reg.TICK_ECYC_MAX = 0 ∧
          sameBut [Reg.TICK_ECYC_MIN, Reg.TICK_ECYC_MAX] s.chip c) ∧
        (bit v 0 = false → c = s.chip))) ∧
  (∀ s : State,
      (∃ c, exec .tbNsRead s = .next (s.chipTo c) ∧ c.rdata = s.chip.tb.ns ∧
        c.rd Reg.TB_SEC_LO = s.chip.tb.sec.setWidth 32 ∧ c.rd Reg.TB_SEC_HI = (s.chip.tb.sec >>> 32).setWidth 32 ∧
        c.rd Reg.TB_SUBNS = s.chip.tb.frac ∧ sameBut [Reg.TB_SEC_LO, Reg.TB_SEC_HI, Reg.TB_SUBNS] s.chip c ∧
        c = { s.chip with regs := c.regs, rdata := c.rdata }) ∧
      (∃ c, exec .tbShortRead s = .next (s.chipTo c) ∧ c.rdata = s.chip.tb.short ∧
        c.rd Reg.TB_SHORT_EPOCH_LAT = s.chip.tb.epoch ∧ sameBut [Reg.TB_SHORT_EPOCH_LAT] s.chip c ∧
        c = { s.chip with regs := c.regs, rdata := c.rdata }) ∧
      (∃ c, exec .timeCapture s = .next (s.chipTo c) ∧ c.rd Reg.TB_CAP_SHORT = s.chip.tb.short ∧
        c.rd Reg.TB_CAP_EPOCH = s.chip.tb.epoch ∧ c.rd Reg.TB_CAP_NS = s.chip.tb.ns ∧
        c.rd Reg.TB_CAP_SEC_LO = s.chip.tb.sec.setWidth 32 ∧ c.rd Reg.TB_CAP_SEC_HI = (s.chip.tb.sec >>> 32).setWidth 32 ∧
        c.rd Reg.TB_CAP_SUBNS = s.chip.tb.frac ∧ raises pgTB 4 s.chip c ∧
        sameBut [Reg.TB_CAP_SHORT, Reg.TB_CAP_EPOCH, Reg.TB_CAP_NS, Reg.TB_CAP_SEC_LO, Reg.TB_CAP_SEC_HI, Reg.TB_CAP_SUBNS,
          Reg.IRQ_RAW pgTB] s.chip c ∧ c = { s.chip with regs := c.regs })) ∧
  (∀ (s : State) (v : Word),
      (∃ c, exec .hubEvmonRead s = .next (s.chipTo c) ∧ c.rdata = s.chip.rd Reg.HUB_EVMON ∧ c.rd Reg.HUB_EVMON = 0 ∧
        sameBut [Reg.HUB_EVMON] s.chip c ∧ c = { s.chip with regs := c.regs, rdata := c.rdata }) ∧
      (∃ c, exec (.hubWclkDivWrite v) s = .next (s.chipTo c) ∧ c.rd Reg.HUB_WCLK_DIV = v &&& 0xFFFF ∧ c.hub.wclk = 0 ∧
        sameBut [Reg.HUB_WCLK_DIV] s.chip c ∧ c = { s.chip with regs := c.regs, hub := { s.chip.hub with wclk := 0 } }) ∧
      (∀ src : Fin 256,
        (hubReserved src = true → exec (.hubSourceCfgWrite src v) s = .next s) ∧
        (hubReserved src = false → ∃ c, exec (.hubSourceCfgWrite src v) s = .next (s.chipTo c) ∧
          c = { s.chip with regs := c.regs } ∧ c.rd (Reg.HUB_SRC_CFG src) = v &&& 0xF11F ∧
          (if 4 ≤ fld v 4 0 ∧ fld v 4 0 ≤ 15
            then raises pgHUB 0 s.chip c ∧ errs pgHUB 0x01 (word src.val) s.chip c ∧
              sameBut (Reg.HUB_SRC_CFG src :: irqErrRegs pgHUB) s.chip c
            else sameBut [Reg.HUB_SRC_CFG src] s.chip c))))

/-- R391, both outcomes of a commit. -/
def Obligations.IncrementCommitOrRefusal : Prop :=
  ∀ (s : State) (v : Word),
    (1 ≤ fld v 3 0 ∧ fld v 3 0 < 4 →
      exec (.incCommit v) s = .next (s.chipTo { s.chip with
        tb := { s.chip.tb with incInt := v.setWidth 4, incFrac := s.chip.rd Reg.TB_INC_FRAC }
        aster := { s.chip.aster with moved := true } })) ∧
    (fld v 3 0 = 0 ∨ 4 ≤ fld v 3 0 →
      ∃ c, exec (.incCommit v) s = .next (s.chipTo c) ∧ c = { s.chip with regs := c.regs } ∧
        raises pgTB 3 s.chip c ∧ errs pgTB 1 0 s.chip c ∧ sameBut (irqErrRegs pgTB) s.chip c) ∧
    (∃ c, exec (.registerWrite 0x10040 v) s = .next (s.chipTo c) ∧ c.tb = s.chip.tb ∧ sameBut [Reg.TB_INC_FRAC] s.chip c ∧
      (s.chip.blkPhase pgTB ≠ 2 → c.rd Reg.TB_INC_FRAC = v))

/-- R392: the step, and its refusal. -/
def Obligations.TimeStepMovesPtpOnly : Prop :=
  ∀ s : State,
    ((s.chip.rd Reg.TB_STEP_NS).toInt.natAbs ≤ 999999999 → s.chip.pstate < 2 →
      ∃ c, exec .timeStep s = .next (s.chipTo c) ∧
        (s.chip.rdb Reg.TB_STAT 0 = false → (∃ n : Int, (c.tb.sec.toNat : Int) * 1000000000 + c.tb.ns.toNat =
            ((s.chip.tb.advance 1).sec.toNat : Int) * 1000000000 + (s.chip.tb.advance 1).ns.toNat + s.chip.stepOffset
              + n * (2 ^ 48 * 1000000000)) ∧
          c.tb.ns.toNat < 1000000000 ∧ c.freeCtr = s.chip.freeCtr) ∧
        c.tb.short = (s.chip.tb.advance 1).short ∧ c.tb.epoch = (s.chip.tb.advance 1).epoch ∧
        c.tb.frac = (s.chip.tb.advance 1).frac ∧ c.tb.incInt = s.chip.tb.incInt ∧ c.tb.incFrac = s.chip.tb.incFrac ∧
        c.rdb Reg.TB_STAT 0 = true ∧ c.rd Reg.TB_STEP_SHORT = c.tb.short ∧ c.rdb (Reg.IRQ_RAW pgTB) 1 = true ∧
        sameBut [Reg.TB_STAT, Reg.TB_STEP_SHORT, Reg.IRQ_RAW pgTB, Reg.TICK_PHASE] s.chip c ∧
        c.aster = { s.chip.aster with moved := true } ∧
        c = { s.chip with regs := c.regs, tb := c.tb, clk := c.clk, aster := c.aster, freeCtr := c.freeCtr }) ∧
    (999999999 < (s.chip.rd Reg.TB_STEP_NS).toInt.natAbs →
      ∃ c, exec .timeStep s = .next (s.chipTo c) ∧ c = { s.chip with regs := c.regs } ∧
        errs pgTB 2 0 s.chip c ∧ sameBut (errRegs pgTB) s.chip c)

/-- R388 and R394 at the cycle of the event; log entry 6 for the cycles before it. -/
def Obligations.CountersRollOver : Prop :=
  (∀ s : State, 2 ≤ s.chip.pstate → exec .shortWrap s = .next s ∧ exec .secondRollover s = .next s) ∧
  ∀ s : State, 1 ≤ s.chip.tb.incInt.toNat ∧ s.chip.tb.incInt.toNat < 4 → s.chip.pstate < 2 →
    (∃ c, exec .shortWrap s = .next (s.chipTo c) ∧ c.tb.epoch = s.chip.tb.epoch + 1 ∧ c.tb.short.toNat < 4 ∧
      c.rdb (Reg.IRQ_RAW pgTB) 0 = true ∧ sameBut [Reg.IRQ_RAW pgTB, Reg.TICK_PHASE] s.chip c ∧
      c = { s.chip with regs := c.regs, tb := c.tb, clk := c.clk }) ∧
    (s.chip.tb.ns.toNat < 1000000000 →
      ∃ c, exec .secondRollover s = .next (s.chipTo c) ∧ c.tb.sec = s.chip.tb.sec + 1 ∧ c.tb.ns.toNat < 4 ∧
        c.ppsLevel = s.chip.rdb Reg.PPS_OUT_CFG 0 ∧ c.rdb (Reg.IRQ_RAW pgTB) 2 = true ∧ sameBut [Reg.IRQ_RAW pgTB, Reg.TICK_PHASE] s.chip c ∧
        c = { s.chip with regs := c.regs, tb := c.tb, clk := c.clk })

/-- R8, R9, R53; R619 for a page in BLOCK reset. -/
def Obligations.PagesIgnoreWhatTheyDoNotName : Prop :=
  ∀ (s : State) (a : BitVec 20) (v : Word),
    (s.chip.blkPhase (a.toNat / 0x1000) ≠ 2 →
      (pageKind (a.toNat / 0x1000) = none → exec (.registerWrite a v) s = .next s) ∧
      (∀ (pk : PageKind) (i : Nat), pageKind (a.toNat / 0x1000) = some (pk, i) → 0x40 ≤ a.toNat % 0x1000 →
        (pageRow pk i (a.toNat % 0x1000) = none → exec (.registerWrite a v) s = .next s) ∧
        (∀ r, pageRow pk i (a.toNat % 0x1000) = some r → r.acc = .ro →
          exec (.registerWrite a v) s = .next s))) ∧
    (s.chip.blkPhase (a.toNat / 0x1000) = 2 →
      ∃ c, exec (.registerWrite a v) s = .next (s.chipTo c) ∧ c.pwr.blkHeld = s.chip.pwr.blkHeld ++ [(a.toNat, v)] ∧
        c = { s.chip with pwr := { s.chip.pwr with blkHeld := c.pwr.blkHeld } }) ∧
    (s.chip.blkPhase pgTICK ≠ 2 →
      ∃ c, exec (.registerWrite 0x09074 v) s = .next (s.chipTo c) ∧ c = { s.chip with regs := c.regs } ∧
        c.rdf Reg.TICK_OFS0 19 0 = fld v 19 0 ∧ c.rdf Reg.TICK_OFS0 31 20 = s.chip.rdf Reg.TICK_OFS0 31 20 ∧
        sameBut [Reg.TICK_OFS0] s.chip c)

/-- R57 and R58. -/
def Obligations.FlagsAndErrorRecordOfAPage : Prop :=
  ∀ (s : State) (p : Fin 256) (v : Word) (pk : PageKind) (i : Nat), pageKind p = some (pk, i) → s.chip.blkPhase p ≠ 2 →
    (∃ c, exec (.irqForce p v) s = .next (s.chipTo c) ∧ c = { s.chip with regs := c.regs } ∧
      c.rd (Reg.IRQ_RAW p) = s.chip.rd (Reg.IRQ_RAW p) ||| (v &&& pageIrqBits pk i) ∧ sameBut [Reg.IRQ_RAW p] s.chip c) ∧
    (s.chip.rdf (Reg.ERR_CODE p) 7 0 ≠ 0 → fld v 7 0 = s.chip.rdf (Reg.ERR_CODE p) 7 0 →
      ∃ c, exec (.errCodeClear p v) s = .next (s.chipTo c) ∧ c = { s.chip with regs := c.regs } ∧
        c.rd (Reg.ERR_CODE p) = 0 ∧ c.rd (Reg.ERR_INFO p) = 0 ∧ sameBut (errRegs p) s.chip c) ∧
    (s.chip.rdf (Reg.ERR_CODE p) 7 0 = 0 ∨ fld v 7 0 ≠ s.chip.rdf (Reg.ERR_CODE p) 7 0 →
      exec (.errCodeClear p v) s = .next s) ∧
    (∃ c, exec (.registerWrite (BitVec.ofNat 20 (Reg.IRQ_RAW p)) v) s = .next (s.chipTo c) ∧
      c.rd (Reg.IRQ_RAW p) = s.chip.rd (Reg.IRQ_RAW p) &&& ~~~v ∧ sameBut [Reg.IRQ_RAW p] s.chip c ∧
      (∀ i, c.hubSrc i = { s.chip.hubSrc i with high := (s.chip.hubSrc i).high && c.hubLevel i }) ∧
      c = { s.chip with regs := c.regs, hub := { s.chip.hub with srcs := c.hub.srcs } })

/-- R619; R55 and R56 for the idle handshake; R47 for REMAP. -/
def Obligations.BlockResetProceedsByIdleness : Prop :=
  ∀ s : State,
    (∀ p : Fin 256,
      (pageKind p = none ∨ p.val ∈ [pgSYS, pgRST, pgCLKPWR, pgFUSE, pgFG] ∨ s.chip.blkPhase p ≠ 0 →
        exec (.blockResetRequest p) s = .next s) ∧
      (s.chip.blkPhase p ≠ 1 → exec (.blockResetTimeout p) s = .next s) ∧
      (s.chip.blkPhase p ≠ 2 → exec (.blockResetRelease p) s = .next s) ∧
      (pageKind p = none ∨ s.chip.idleReq p = true → exec (.idleRequest p) s = .next s) ∧
      (s.chip.idleReady p = false → exec (.idleAck p) s = .next s) ∧
      (∀ pk i, pageKind p = some (pk, i) →
        (blockFixed pk = false → s.chip.blkPhase p = 0 → (pk = .guardP → s.chip.sealed = false) →
          (∀ c0, c0 = (if pk = .dramP then s.chip.dramSleep i 3 else s.chip) →
            (c0.idleReady p = true → c0.idleAtOnce p = true →
              ∃ d, exec (.blockResetRequest p) s = .next (s.devTo d) ∧ blockReset pk i p false s d) ∧
            (c0.idleReady p = false ∨ c0.idleAtOnce p = false →
              ∃ c, exec (.blockResetRequest p) s = .next (s.chipTo c) ∧ c.blkPhase p = 1 ∧
                c = { c0 with pwr := { s.chip.pwr with blk := c.pwr.blk } }))) ∧
        (blockFixed pk = false → s.chip.blkPhase p = 1 → (pk = .guardP → s.chip.sealed = false) →
          (∃ d, exec (.blockResetTimeout p) s = .next (s.devTo d) ∧ blockReset pk i p true s d) ∧
          (s.chip.idleReady p = true → ∃ d, exec (.idleAck p) s = .next (s.devTo d) ∧ blockReset pk i p false s d)) ∧
        (s.chip.blkPhase p = 2 → (∀ m, blockPort pk i = some m → s.chip.draining m = false) →
          (∀ b h, b = s.chipTo { s.chip with pwr := { s.chip.pwr with
              blk := drop (· == p.val) s.chip.pwr.blk
              blkHeld := s.chip.pwr.blkHeld.filter (fun e => e.1 / 0x1000 != p.val) } } →
            h = s.chip.pwr.blkHeld.filter (fun e => e.1 / 0x1000 == p.val) →
            (h = [] → exec (.blockResetRelease p) s = .next b) ∧
            (∀ a v, h = [(a, v)] → exec (.blockResetRelease p) s = .next (b.devTo (b.dev.writeReg a v))) ∧
            exec (.blockResetRelease p) s = .next (b.devTo (h.foldl (fun d e => d.writeReg e.1 e.2) b.dev)))) ∧
        (s.chip.idleReq p = false →
          ∃ d, exec (.idleRequest p) s = .next (s.devTo d) ∧ d.chip.idleReq p = true ∧
            (pk ≠ .qfP → pk ≠ .dramP → d.mem = s.mem ∧ d.chip = { s.chip with regs := d.chip.regs } ∧
              d.chip.idleAck p = (s.chip.idleAck p || (s.chip.idleReady p && s.chip.idleAtOnce p)) ∧
              sameBut [Reg.CTRL p, Reg.STAT p] s.chip d.chip) ∧
            (pk = .dramP → d.mem = s.mem ∧ d.chip.idleAck p = (s.chip.idleAck p || (s.chip.idleReady p && s.chip.idleAtOnce p)) ∧
              sameBut [Reg.CTRL p, Reg.STAT p] s.chip d.chip ∧
              (s.chip.dramLive i = true → (d.chip.dramSt i).want = 5) ∧
              d.chip = { s.chip with regs := d.chip.regs, dram := d.chip.dram }) ∧
            (pk = .qfP → d.chip.idleAck p = true ∧ d.chip.qfActive = false))) ∧
      (s.chip.idleReady p = true → s.chip.idleReq p = false → s.chip.blkPhase p ≠ 1 → exec (.idleAck p) s = .next s) ∧
      (s.chip.idleReady p = true → s.chip.idleReq p = true → s.chip.blkPhase p ≠ 1 →
        ∃ c, exec (.idleAck p) s = .next (s.chipTo c) ∧ c = { s.chip with regs := c.regs } ∧ c.idleAck p = true ∧
          sameBut [Reg.STAT p] s.chip c)) ∧
    (s.chip.blkPhase pgTB = 0 → rising s.chip.regs = true →
      ∃ c, exec (.blockResetRequest 0x10) s = .next (s.chipTo c) ∧ c.tb = tbReset ∧
        (∀ k, pageOf k = pgTB → c.rd k = regReset k) ∧ c.rd Reg.RST_BLK_LAST = 0x10 ∧ c.blkPhase pgTB = 2 ∧
        (∀ k, pageOf k ≠ pgTB → k ≠ Reg.RST_BLK_LAST → c.rd k = s.chip.rd k) ∧
        c = { s.chip with regs := c.regs, tb := tbReset, hub := c.hub, pwr := { s.chip.pwr with blk := c.pwr.blk } }) ∧
    (∀ v : Word, ∃ c, exec (.remapWrite v) s = .next (s.chipTo c) ∧ c.rd Reg.SYS_CTRL = v &&& 1 ∧
      (∀ a, c.region a = { s.chip with regs := put s.chip.regs Reg.SYS_CTRL (v &&& 1) }.region a))

/-- R311, R314, R319 and R672. -/
def Obligations.MatrixIssueAndArbitration : Prop :=
  ∀ s : State,
    (∀ t : Txn,
      (txnOk t = false ∨ s.chip.draining t.master = true → exec (.transactionIssue t) s = .next s) ∧
      (txnOk t = true → s.chip.draining t.master = false → (∀ h ∈ s.chip.mtx.held, h.master ≠ t.master) →
        (s.chip.atLimit t.master t.chan = false →
          ∃ c o, exec (.transactionIssue t) s = .next (s.chipTo c) ∧ c.mtx.seq = s.chip.mtx.seq + 1 ∧
            c.mtx.opn = s.chip.mtx.opn ++ [o] ∧ o.seq = s.chip.mtx.seq ∧ o.txn = t ∧ o.left = o.targets.length ∧
            (∃ w, c.mtx.wait = s.chip.mtx.wait ++ w ∧ w.map (·.target) = o.targets ∧
              ∀ p ∈ w, p.seq = s.chip.mtx.seq ∧ p.master = t.master) ∧
            c.mtx.acc = s.chip.mtx.acc ∧ c.mtx.held = s.chip.mtx.held ∧ sameBut [Reg.MTX_TRACK] s.chip c ∧
            c = { s.chip with regs := c.regs, mtx := c.mtx }) ∧
        (s.chip.atLimit t.master t.chan = true →
          exec (.transactionIssue t) s =
            .next (s.chipTo { s.chip with mtx := { s.chip.mtx with held := s.chip.mtx.held ++ [t] } })))) ∧
    (∀ (t : Fin 13) (d : Dev), d = s.dev.mayServeAll →
      ((∀ p ∈ s.chip.mtx.acc, s.chip.partWaits p = true) → d = s.dev) ∧
      (d.chip.heads t = [] → exec (.transactionGrant t) s = .next (s.devTo d)) ∧
      (d.chip.heads t ≠ [] → (t.val = 8 ∨ t.val = 9 → d.chip.dramAccepts (t.val - 8) = true) →
        ∃ g, g ∈ d.chip.heads t ∧
          (∀ h ∈ d.chip.heads t, d.chip.effQos h < d.chip.effQos g ∨
            (d.chip.effQos h = d.chip.effQos g ∧ d.chip.rrPlace t g.master ≤ d.chip.rrPlace t h.master)) ∧
          (∀ e, e = d.chipOp (·.partAccept t g) →
            (t.val = 8 ∨ t.val = 9 → exec (.transactionGrant t) s =
              .next (s.devTo (if e.chip.dramServes (t.val - 8) then e else e.servePart g))) ∧
            (t.val ≠ 8 → t.val ≠ 9 → e.chip.partTied g = true → exec (.transactionGrant t) s = .next (s.devTo e)) ∧
            (t.val ≠ 8 → t.val ≠ 9 → e.chip.partTied g = false →
              exec (.transactionGrant t) s = .next (s.devTo (e.chipOp Chip.freeNext)) ∨
              exec (.transactionGrant t) s = .next (s.devTo ((e.chipOp Chip.freeNext).serveUpTo g)))))) ∧
    (∀ (t : Fin 13) (m : Fin 15), (∀ o ∈ s.chip.mtx.opn, o.txn.master ≠ m) → exec (.transactionResponse t m) s = .next s) ∧
    (∀ (t : Fin 13) (m : Fin 15) (o : MtxOpen) (rest : List MtxOpen),
      s.chip.mtx.opn = o :: rest → o.txn.master = m → t.val ∈ o.targets → o.left = 0 →
      o.fails = [] → (o.txn.write = true → m.val ≠ 4 ∧ m.val ≠ 5 ∧ m.val ≠ 13) →
      (o.txn.write = true → ∀ k, look [] s.chip.snap.held k = []) → (∀ p ∈ s.chip.mtx.acc, p.seq ≠ o.seq) → (∀ x ∈ rest, x.seq ≠ o.seq) → s.chip.mtx.held = [] →
      ∃ c, exec (.transactionResponse t m) s = .next (s.chipTo c) ∧ c.mtx = { s.chip.mtx with opn := rest } ∧
        (o.txn.write = false →
          c.rdata = word (bytesNat (((List.range (o.txn.beats * o.txn.size)).map (look 0 o.data)).take 4))) ∧
        (o.txn.write = true → c.rdata = s.chip.rdata) ∧
        c = { s.chip with rdata := c.rdata, rwords := c.rwords, mtx := c.mtx }) ∧
    (∀ v : Word,
      (bit v 0 = false → exec (.mtxStatsClr v) s = .next s) ∧
      (bit v 0 = true → ∃ c, exec (.mtxStatsClr v) s = .next (s.chipTo c) ∧ c = { s.chip with regs := c.regs } ∧
        (∀ t : Fin 13, c.rd (Reg.MTX_TP_GRANTS t) = 0 ∧ c.rd (Reg.MTX_TP_WAITMAX t) = 0) ∧
        c.rd Reg.MTX_DECERR_COUNT = 0 ∧ c.rd Reg.MTX_SLVERR_COUNT = 0)) ∧
    (∀ m : Fin 15,
      (s.chip.draining m = false → exec (.portDrain m) s = .next s ∧ exec (.drainDone m) s = .next s) ∧
      (s.chip.draining m = true → (∀ o ∈ s.chip.mtx.opn, o.txn.master ≠ m) →
        ∃ c, exec (.drainDone m) s = .next (s.chipTo c) ∧ c = { s.chip with regs := c.regs } ∧ c.draining m = false ∧
          sameBut [Reg.MTX_MP_STAT m] s.chip c) ∧
      (s.chip.draining m = true →
        ∃ d, exec (.portDrain m) s = .next (s.devTo d) ∧ (∀ o ∈ d.chip.mtx.opn, o.txn.master ≠ m) ∧
          (∀ p ∈ d.chip.mtx.wait, p.master ≠ m.val) ∧ (∀ p ∈ d.chip.mtx.acc, p.master ≠ m.val) ∧
          (∀ t ∈ d.chip.mtx.held, t.master ≠ m))) ∧
    (∀ m : Fin 32, (∀ p ∈ s.chip.mtx.acc, p.target ≠ 11) → exec (.localAccessServe m) s = .next s) ∧
    (∀ (m : Fin 32) (p : MtxPart) (rest : List MtxPart), s.chip.mtx.acc = p :: rest → p.target = 11 → s.chip.partMec p = m.val →
      (∃ a ∈ s.chip.partAddrs p, (s.chip.region a).xy = true) →
      exec (.localAccessServe m) s = .next (s.devTo (s.dev.servePart p)))

/-- R112, R113, R212 to R214 and R108: the three steps of the Ledger in a window. -/
def Obligations.CommitWindowSampleVerdictCommit : Prop :=
  ∀ s : State,
    (s.chip.rdf Reg.TICK_PHASE 1 0 ≠ 1 → exec .cwOpen s = .next s) ∧
    (s.chip.rdf Reg.TICK_PHASE 1 0 ≠ 2 → exec .verdict s = .next s ∧ exec .outputCommit s = .next s ∧
      ∀ n : Nat, exec (.tickWatchdogFeed n) s = .next s) ∧
    (s.chip.rdf Reg.TICK_PHASE 1 0 = 1 →
      ∃ c, exec .cwOpen s = .next (s.chipTo c) ∧ c.rdf Reg.TICK_PHASE 1 0 = 2 ∧ c.rdb (Reg.IRQ_RAW pgTICK) 1 = true ∧
        (∀ m : Fin 32, bit c.ledger.late m = (!s.chip.tick.firstTick && bit s.chip.ledger.gov.chk m &&
          (s.chip.rdf (Reg.MEC_STATE m) 2 0 != 2 || s.chip.rdb (Reg.MEC_RUNCTL m) 0))) ∧
        (∀ q x, (q, x) ∈ s.chip.qf.qs → s.chip.qfActive = true → s.chip.tick.firstTick = false →
          x.en = true → x.sched = true → x.w1 = true → x.lagLeft = 0 →
          ∃ y, (q, y) ∈ c.qf.qs ∧ y.exp = x.exp + word x.quota ∧ y.checked = true ∧ y.push = x.push ∧ y.pop = x.pop ∧
            y.commit = x.commit ∧
            (y.passed = true ↔ 0 ≤ ((if x.chkPop then x.pop else x.push) - (x.exp + word x.quota)).toInt)) ∧
        c.cores = s.chip.cores ∧ c.tb = s.chip.tb) ∧
    (s.chip.rdf Reg.TICK_PHASE 1 0 = 2 →
      (∃ c, exec .verdict s = .next (s.chipTo c) ∧
        (c.ledger.ok = true ↔ s.chip.ledger.late = 0 ∧ ∀ e ∈ s.chip.qf.qs, e.2.checked = true → e.2.passed = true) ∧
        c.rdb Reg.TICK_LEDGER 0 = c.ledger.ok ∧ c.rdb Reg.TICK_LEDGER 1 = s.chip.ledger.chk ∧
        (∀ q x, (q, x) ∈ s.chip.qf.qs → ∃ y, (q, y) ∈ c.qf.qs ∧
          y = { x with settled := x.passed && (c.ledger.ok || !s.chip.unfinishedQueues.contains q) }) ∧
        (c.ledger.ok = false → c.rd Reg.TICK_LATE_MEC = s.chip.ledger.late ∧
          c.rd Reg.TICK_OVR_TICK = s.chip.tick.count.setWidth 32 ∧
          c.rd Reg.TICK_OVR_COUNT = satInc (s.chip.rd Reg.TICK_OVR_COUNT) ∧ c.rdb (Reg.IRQ_RAW pgTICK) 2 = true ∧
          c.rdb (Reg.IRQ_RAW pgFG) 3 = true) ∧
        (c.ledger.ok = true → c.rd Reg.TICK_OVR_COUNT = s.chip.rd Reg.TICK_OVR_COUNT ∧
          c.rd Reg.TICK_LATE_MEC = s.chip.rd Reg.TICK_LATE_MEC)) ∧
      (s.chip.qfActive = true →
        ∃ c, exec .outputCommit s = .next (s.chipTo c) ∧
          (∀ q x, (q, x) ∈ s.chip.qf.qs → ∃ y, (q, y) ∈ c.qf.qs ∧ y.push = x.push ∧ y.pop = x.pop ∧
            y.commit = (if x.checked && x.committed && x.settled then x.commit + word x.quota else x.commit) ∧
            y.exp = (if x.checked && x.committed && !x.settled then x.expOld else x.exp)) ∧
          c = { s.chip with qf := c.qf, ledger := c.ledger }))

/-- R23 at the boundary; R33 and R34 for the first and the last. -/
def Obligations.EngineBoundaryMovesTheTick : Prop :=
  ∀ (s : State) (n : BitVec 20),
    (s.chip.tick.on = false → exec (.engineBoundary n) s = .next s) ∧
    (s.chip.rdf Reg.TICK_PHASE 1 0 ≠ 0 → s.chip.rdf Reg.TICK_PHASE 1 0 ≠ 2 → exec (.engineBoundary n) s = .next s) ∧
    (s.chip.rdf Reg.TICK_PHASE 1 0 = 0 →
      (∀ t, s.chip.tick.named = some t → before (s.chip.tb.short + 66) t = true ∨
        before (s.chip.tb.short + 66) (s.chip.tick.enAt + 64) = true) → exec (.engineBoundary n) s = .next s) ∧
    (∀ t : Word, s.chip.tick.on = true → s.chip.rdf Reg.TICK_PHASE 1 0 = 0 → s.chip.tick.named = some t →
      before (s.chip.tb.short + 66) t = false → before (s.chip.tb.short + 66) (s.chip.tick.enAt + 64) = false →
      ∃ d, exec (.engineBoundary n) s = .next (s.devTo d) ∧
        d.chip.tick.count = BitVec.ofNat 48 (s.chip.rdf Reg.TICK_COUNT_LOAD_HI 15 0 * 2 ^ 32 + (s.chip.rd Reg.TICK_COUNT_LOAD_LO).toNat) ∧
        d.chip.tick.firstTick = true ∧ d.chip.tick.len = n.toNat ∧ d.chip.tick.audios = 0 ∧ d.chip.rdf Reg.TICK_PHASE 1 0 = 1 ∧ d.chip.rdb (Reg.IRQ_RAW pgTICK) 0 = true ∧
        d.chip.rd Reg.TICK_OVR_COUNT = 0 ∧ d.chip.rd Reg.TICK_ECYC_MIN = 0xF_FFFF ∧ d.chip.rd Reg.TICK_ECYC_MAX = 0 ∧
        d.chip.cores = s.chip.cores) ∧
    (s.chip.tick.on = true → s.chip.rdf Reg.TICK_PHASE 1 0 = 2 → s.chip.tick.stopping = false →
      ∃ d, exec (.engineBoundary n) s = .next (s.devTo d) ∧ d.chip.tick.count = s.chip.tick.count + 1 ∧
        d.chip.tick.firstTick = false ∧ d.chip.rdf Reg.TICK_PHASE 1 0 = 1 ∧ d.chip.rdb (Reg.IRQ_RAW pgTICK) 0 = true ∧
        d.chip.rd Reg.TICK_ECYC = word s.chip.tick.len ∧ d.chip.tick.len = n.toNat) ∧
    (s.chip.tick.on = true → s.chip.rdf Reg.TICK_PHASE 1 0 = 2 → s.chip.tick.stopping = true → s.chip.tick.restart = false →
      ∃ d, exec (.engineBoundary n) s = .next (s.devTo d) ∧ d.chip.tick.count = s.chip.tick.count ∧
        d.chip.tick.on = false ∧ d.chip.rdf Reg.TICK_PHASE 1 0 = 0 ∧ d.chip.rdb (Reg.IRQ_RAW pgTICK) 4 = true ∧
        d.chip.snap.flip = none ∧ d.chip.snap.glide = none ∧ d.chip.ledger = ledgerReset) ∧
    (s.chip.tick.on = true → s.chip.rdf Reg.TICK_PHASE 1 0 = 0 →
      ∃ c, exec .tickStop s = .next (s.chipTo c) ∧ c.tick.on = false ∧ c.tick.count = s.chip.tick.count ∧ c.en pgTICK = false ∧
        c.rdf Reg.TICK_PHASE 1 0 = 0 ∧ c.rdb (Reg.IRQ_RAW pgTICK) 4 = true ∧ c.cores = s.chip.cores) ∧
    (s.chip.tick.on = true → s.chip.rdf Reg.TICK_PHASE 1 0 ≠ 0 →
      ∃ c, exec .tickStop s = .next (s.chipTo c) ∧ c.tick = { s.chip.tick with stopping := true, restart := false } ∧
        c.en pgTICK = false ∧ sameBut [Reg.CTRL pgTICK] s.chip c ∧ c = { s.chip with regs := c.regs, tick := c.tick })

/-- R229 and R235: acceptance; R232 and R236: disarming. -/
def Obligations.FlipAndGlideArmsAreCheckedInOrder : Prop :=
  ∀ (s : State) (i : Instr) (t : BitVec 48),
    (i = .flipArm ∧ t = s.chip.tickOf Reg.SNAP_FLIP_TICK_LO Reg.SNAP_FLIP_TICK_HI ∨
        i = .flipArmNext ∧ t = s.chip.nextWindow →
      (∀ code : Nat,
        (code = 3 ∧ s.chip.tick.on = false ∨ code = 2 ∧ s.chip.tick.on = true ∧ s.chip.snap.flip ≠ none ∨
          code = 1 ∧ s.chip.tick.on = true ∧ s.chip.snap.flip = none ∧
            (2 ^ 47 ≤ (t - s.chip.tick.count).toNat ∨ (t = s.chip.tick.count ∧ s.chip.rdf Reg.TICK_PHASE 1 0 = 2)) →
          ∃ c, exec i s = .next (s.chipTo c) ∧ c = { s.chip with regs := c.regs } ∧ raises pgSNAP 2 s.chip c ∧
            errs pgSNAP code 0 s.chip c ∧ sameBut (irqErrRegs pgSNAP) s.chip c)) ∧
      (s.chip.tick.on = true → s.chip.snap.flip = none → (t - s.chip.tick.count).toNat < 2 ^ 47 →
        (t = s.chip.tick.count → s.chip.rdf Reg.TICK_PHASE 1 0 ≠ 2) →
        exec i s = .next (s.chipTo { s.chip with snap := { s.chip.snap with
          flip := some { tick := t, mask := s.chip.rd Reg.SNAP_FLIP_MASK, lag := s.chip.rdb Reg.SNAP_CFG 1, begun := false } } }))) ∧
    (i = .glideArm ∧ t = s.chip.tickOf Reg.SNAP_GLIDE_TICK_LO Reg.SNAP_GLIDE_TICK_HI ∨
        i = .glideArmNext ∧ t = s.chip.nextWindow →
      (∀ code : Nat,
        (code = 3 ∧ s.chip.tick.on = false ∨ code = 2 ∧ s.chip.tick.on = true ∧ s.chip.snap.glide ≠ none ∨
          code = 1 ∧ s.chip.tick.on = true ∧ s.chip.snap.glide = none ∧
            (2 ^ 47 ≤ (t - s.chip.tick.count).toNat ∨ (t = s.chip.tick.count ∧ s.chip.rdf Reg.TICK_PHASE 1 0 = 2)) →
          ∃ c, exec i s = .next (s.chipTo c) ∧ c = { s.chip with regs := c.regs } ∧ raises pgSNAP 2 s.chip c ∧
            errs pgSNAP code 0 s.chip c ∧ sameBut (irqErrRegs pgSNAP) s.chip c)) ∧
      (s.chip.tick.on = true → s.chip.snap.glide = none → (t - s.chip.tick.count).toNat < 2 ^ 47 →
        (t = s.chip.tick.count → s.chip.rdf Reg.TICK_PHASE 1 0 ≠ 2) →
        (s.chip.glBad (s.chip.rd Reg.SNAP_GLIDE_MASK) = none →
          exec i s = .next (s.chipTo { s.chip with snap := { s.chip.snap with
            glide := some { tick := t, mask := s.chip.rd Reg.SNAP_GLIDE_MASK, g := s.chip.rdf Reg.SNAP_GLIDE_G 11 0 + 1 } } })) ∧
        (∀ m, s.chip.glBad (s.chip.rd Reg.SNAP_GLIDE_MASK) = some m →
          ∃ c, exec i s = .next (s.chipTo c) ∧ c = { s.chip with regs := c.regs } ∧ raises pgSNAP 2 s.chip c ∧
            errs pgSNAP 0x06 (word (m * 0x1_0000)) s.chip c))) ∧
    (∀ f, s.chip.snap.flip = some f →
      (f.begun = true ∨ (f.tick = s.chip.tick.count ∧ s.chip.rdf Reg.TICK_PHASE 1 0 = 2) → exec .flipDisarm s = .next s) ∧
      (f.begun = false → (f.tick = s.chip.tick.count → s.chip.rdf Reg.TICK_PHASE 1 0 ≠ 2) →
        ∃ c, exec .flipDisarm s = .next (s.chipTo c) ∧ c.snap = { s.chip.snap with flip := none } ∧ raises pgSNAP 3 s.chip c ∧
          sameBut [Reg.IRQ_RAW pgSNAP] s.chip c ∧ c = { s.chip with regs := c.regs, snap := c.snap })) ∧
    (∀ g, s.chip.snap.glide = some g → g.tick = s.chip.tick.count → s.chip.rdf Reg.TICK_PHASE 1 0 = 2 →
      exec .glideDisarm s = .next s) ∧
    (∀ g, s.chip.snap.glide = some g → (g.tick = s.chip.tick.count → s.chip.rdf Reg.TICK_PHASE 1 0 ≠ 2) →
      ∃ c, exec .glideDisarm s = .next (s.chipTo c) ∧ c.snap = { s.chip.snap with glide := none } ∧ raises pgSNAP 3 s.chip c ∧
        sameBut [Reg.IRQ_RAW pgSNAP] s.chip c ∧ c = { s.chip with regs := c.regs, snap := c.snap }) ∧
    (s.chip.snap.flip = none → exec .flipDisarm s = .next s) ∧ (s.chip.snap.glide = none → exec .glideDisarm s = .next s) ∧
    (∃ c, exec .flipLastRead s = .next (s.chipTo c) ∧ c.rdata = s.chip.snap.last.setWidth 32 ∧
      c.rd Reg.SNAP_FLIP_LAST_HI = (s.chip.snap.last >>> 32).setWidth 32 ∧ sameBut [Reg.SNAP_FLIP_LAST_HI] s.chip c ∧
      c = { s.chip with regs := c.regs, rdata := c.rdata })

/-- R230 and R233. -/
def Obligations.FlipExchangesBanksAndPages : Prop :=
  ∀ s : State,
    (s.chip.snap.flip = none ∨ s.chip.rdf Reg.TICK_PHASE 1 0 ≠ 2 → exec .snapdragonFlip s = .next s) ∧
    (∀ f, s.chip.snap.flip = some f → s.chip.rdf Reg.TICK_PHASE 1 0 = 2 →
      (f.begun = false → f.tick ≠ s.chip.tick.count → exec .snapdragonFlip s = .next s) ∧
      (f.begun = true → s.chip.tick.count ≠ f.tick + 1 → exec .snapdragonFlip s = .next s) ∧
      (f.begun = false → f.tick = s.chip.tick.count → f.lag = true →
        ∃ c, exec .snapdragonFlip s = .next (s.chipTo c) ∧ c.rd Reg.SNAP_LIVE = s.chip.rd Reg.SNAP_LIVE ^^^ f.mask ∧
          c.snap = { s.chip.snap with flip := some { f with begun := true } } ∧ sameBut [Reg.SNAP_LIVE] s.chip c ∧
          c = { s.chip with regs := c.regs, snap := c.snap }) ∧
      ((f.begun = false ∧ f.tick = s.chip.tick.count ∧ f.lag = false) ∨ (f.begun = true ∧ s.chip.tick.count = f.tick + 1) →
        ∃ c, exec .snapdragonFlip s = .next (s.chipTo c) ∧
          c.rd Reg.SNAP_LIVE = (if f.begun then s.chip.rd Reg.SNAP_LIVE else s.chip.rd Reg.SNAP_LIVE ^^^ f.mask) ∧
          c.snap = { s.chip.snap with flip := none, last := f.tick } ∧
          c.rd Reg.SNAP_FLIP_LAST_LO = f.tick.setWidth 32 ∧ raises pgSNAP 0 s.chip c ∧
          (if s.chip.tick.snapPatch then c.patch.live = s.chip.patch.shadow ∧ c.patch.shadow = s.chip.patch.live
            else c.patch = s.chip.patch) ∧
          (if s.chip.tick.snapDmix then c.dmix.live = s.chip.dmix.shadow ∧ c.dmix.shadow = s.chip.dmix.live
            else c.dmix = s.chip.dmix) ∧
          sameBut [Reg.SNAP_LIVE, Reg.SNAP_FLIP_LAST_LO, Reg.SNAP_FLIP_COUNT, Reg.IRQ_RAW pgSNAP] s.chip c ∧
          c = { s.chip with regs := c.regs, snap := c.snap, patch := c.patch, dmix := c.dmix })) ∧
    (s.chip.tick.on = true →
      ∃ c, exec .flipNow s = .next (s.chipTo c) ∧ c = { s.chip with regs := c.regs } ∧ errs pgSNAP 0x07 0 s.chip c ∧
        sameBut (errRegs pgSNAP) s.chip c) ∧
    (s.chip.tick.on = false →
      ∃ c, exec .flipNow s = .next (s.chipTo c) ∧
        c.rd Reg.SNAP_LIVE = s.chip.rd Reg.SNAP_LIVE ^^^ s.chip.rd Reg.SNAP_FLIP_MASK ∧
        (s.chip.snapBit pgPATCH = true → c.patch.live = s.chip.patch.shadow ∧ c.patch.shadow = s.chip.patch.live) ∧
        (s.chip.snapBit pgPATCH = false → c.patch = s.chip.patch) ∧
        (s.chip.snapBit pgDMIX = true → c.dmix.live = s.chip.dmix.shadow ∧ c.dmix.shadow = s.chip.dmix.live) ∧
        (s.chip.snapBit pgDMIX = false → c.dmix = s.chip.dmix) ∧ c.rdb (Reg.IRQ_RAW pgSNAP) 0 = true)

/-- R237 for the step, R236 for a stop, R228 for the writes held. -/
def Obligations.GlideStepsAndHeldWrites : Prop :=
  ∀ s : State,
    (s.chip.rdf Reg.TICK_PHASE 1 0 ≠ 2 → exec .glideStep s = .next s) ∧
    (s.chip.rdf Reg.TICK_PHASE 1 0 = 2 → s.mem.wf = true →
      ∃ d, exec .glideStep s = .next (s.devTo d) ∧
        (∀ m : Fin 32, d.chip.glRem m = s.chip.glRem m - 1) ∧
        ((∃ m : Fin 32, s.chip.glRem m = 1) → d.chip.rdb (Reg.IRQ_RAW pgSNAP) 1 = true) ∧
        (∀ a, (∀ m : Fin 32, s.chip.glRem m ≠ 0 →
            a < 0x4006_0000 + 0x10_0000 * m.val ∨ 0x4007_0000 + 0x10_0000 * m.val ≤ a) → d.mem.get a = s.mem.get a) ∧
        d.chip = { s.chip with regs := d.chip.regs } ∧
        (∀ m : Fin 32, s.chip.glRem m = 1 → s.chip.glLen m = 1 → s.dev.glideEntryAt m 0 < 0x8000 →
          d.mem.word (s.chip.bankWord m true (s.dev.glideEntryAt m 0 % 8192)) =
            s.mem.word (s.chip.bankWord m false (s.dev.glideEntryAt m 0 % 8192)))) ∧
    (∃ c, exec .glideStop s = .next (s.chipTo c) ∧
      (∀ m : Fin 32, c.rd (Reg.SNAP_GL_REM m) =
        if bit (s.chip.rd Reg.SNAP_GLIDE_MASK) m then 0 else s.chip.rd (Reg.SNAP_GL_REM m)) ∧
      ((∃ m : Fin 32, bit (s.chip.rd Reg.SNAP_GLIDE_MASK) m = true ∧ s.chip.glRem m ≠ 0) →
        c.rdb (Reg.IRQ_RAW pgSNAP) 3 = true) ∧
      c = { s.chip with
        regs := c.regs
        snap := { s.chip.snap with steps := s.chip.snap.steps &&& ~~~(s.chip.rd Reg.SNAP_GLIDE_MASK) } }) ∧
    (∀ m : Fin 32,
      (look [] s.chip.snap.held m = [] → ∃ c, exec (.heldCoeffWrite m) s = .next (s.chipTo c) ∧
        c = { s.chip with snap := { s.chip.snap with held := c.snap.held, past := true } }) ∧
      (∀ w : HeldWrite, look [] s.chip.snap.held m = [w] →
        s.chip.rdb Reg.SNAP_LIVE m ≠ decide (0x6_8000 ≤ w.ofs) → s.chip.shadowLocked m = false →
        ∃ c, exec (.heldCoeffWrite m) s = .next (s.devTo
          { mem := s.mem.setEach (w.bytes.map (fun e => (0x4000_0000 + m.val * 0x10_0000 + e.1, e.2))), chip := c }) ∧
          look [] c.snap.held m = [] ∧ c.snap.past = true))

/-- R63 and R66: the claim and the end of service. -/
def Obligations.HubClaimReturnsTheBestSource : Prop :=
  ∀ (s : State) (t : Fin 3),
    ((∀ i, i < 256 → s.chip.offerable t i = false) → exec (.hubClaim t) s = .next (s.chipTo (s.chip.ret 0x8000_0000))) ∧
    (∀ b, b < 256 → s.chip.offerable t b = true →
      (∀ i, i < 256 → s.chip.offerable t i = true →
        s.chip.hubPrio i < s.chip.hubPrio b ∨ (s.chip.hubPrio i = s.chip.hubPrio b ∧ b ≤ i)) →
      ∃ c, exec (.hubClaim t) s = .next (s.chipTo c) ∧
        c.rdata = word ((s.chip.hubSrc b).count.toNat * 0x1_0000 + b) ∧ c.rd (Reg.HUB_CTIME t) = (s.chip.hubSrc b).time ∧
        sameBut [Reg.HUB_CTIME t] s.chip c ∧
        c.hubSrc b = { s.chip.hubSrc b with
          pend := !s.chip.hubPulseMode b && (s.chip.hubSrc b).pend
          insvc := some t
          count := if s.chip.freeze pgHUB then (s.chip.hubSrc b).count else 0 } ∧
        (∀ i, i ≠ b → c.hubSrc i = s.chip.hubSrc i) ∧
        c = { s.chip with regs := c.regs, rdata := c.rdata, hub := { s.chip.hub with srcs := c.hub.srcs } }) ∧
    (∀ v : Word,
      ((s.chip.hubSrc (fld v 7 0)).insvc = some t →
        ∃ c, exec (.hubDone t v) s = .next (s.chipTo c) ∧
          c.hubSrc (fld v 7 0) = { s.chip.hubSrc (fld v 7 0) with insvc := none } ∧
          (∀ i, i ≠ fld v 7 0 → c.hubSrc i = s.chip.hubSrc i) ∧
          c = { s.chip with hub := { s.chip.hub with srcs := c.hub.srcs } }) ∧
      ((s.chip.hubSrc (fld v 7 0)).insvc ≠ some t → exec (.hubDone t v) s = .next s))

/-- R62, R64 and R68 at one assertion, and the commands that bring one about. -/
def Obligations.HubAssertionLatchesAndDelivers : Prop :=
  ∀ s : State,
    (∀ src : Fin 256, src.val ≠ 236 →
      (hubReserved src = true ∨ (s.chip.quiet = true ∧ (src.val ≤ 6 ∨ (96 ≤ src.val ∧ src.val ≤ 127))) ∨
        (hubKindP src = false ∧ (s.chip.hubLevel src = false ∨ (s.chip.hubSrc src).high = true))) →
      exec (.hubSourceAssert src) s = .next s) ∧
    (s.chip.hub.wclk < s.chip.rdf Reg.HUB_WCLK_DIV 15 0 → exec (.hubSourceAssert 236) s =
      .next (s.chipTo { s.chip with hub := { s.chip.hub with wclk := s.chip.hub.wclk + 1 } })) ∧
    (∀ src : Fin 256, hubReserved src = false → (s.chip.quiet = true → 6 < src.val ∧ (src.val < 96 ∨ 127 < src.val)) →
      hubKindP src = true ∨ (s.chip.hubLevel src = true ∧ (s.chip.hubSrc src).high = false) →
      (src.val = 236 → s.chip.rdf Reg.HUB_WCLK_DIV 15 0 ≤ s.chip.hub.wclk) →
      ∃ c, exec (.hubSourceAssert src) s = .next (s.chipTo c) ∧ c = { s.chip with regs := c.regs, hub := c.hub } ∧
        (∀ i, i ≠ src.val → c.hubSrc i = s.chip.hubSrc i) ∧
        (c.hubSrc src).high = (!hubKindP src || (s.chip.hubSrc src).high) ∧
        (s.chip.freeze pgHUB = true → (c.hubSrc src).count = (s.chip.hubSrc src).count ∧ (c.hubSrc src).time = (s.chip.hubSrc src).time) ∧
        (s.chip.freeze pgHUB = false →
          ((s.chip.hubSrc src).count = 0 → (c.hubSrc src).count = 1 ∧ (c.hubSrc src).time = s.chip.tb.short) ∧
          ((s.chip.hubSrc src).count ≠ 0 → (c.hubSrc src).time = (s.chip.hubSrc src).time ∧
            (c.hubSrc src).count.toNat = min 255 ((s.chip.hubSrc src).count.toNat + 1))) ∧
        (16 ≤ s.chip.hubRoute src →
          (c.hubSrc src).pend = false ∧
          (s.chip.en pgHUB = true → c.rdb Reg.HUB_EVMON (s.chip.hubRoute src - 16) = true ∧
            ∀ m : Fin 32, c.rdb (Reg.MEC_EVPEND m) (s.chip.hubRoute src - 16) = true) ∧
          (s.chip.en pgHUB = false → c.regs = s.chip.regs)) ∧
        (s.chip.hubRoute src < 16 →
          (c.hubSrc src).pend = (s.chip.hubPulseMode src || (s.chip.hubSrc src).pend) ∧ c.regs = s.chip.regs)) ∧
    (∀ n : Fin 2, s.chip.rdf Reg.TICK_PHASE 1 0 ≠ 0 →
      (if n.val = 0 then s.chip.tick.ofs0 else s.chip.tick.ofs1) < s.chip.tick.len →
      ∃ c, exec (.ofsEvent n) s = .next (s.chipTo c) ∧ c = { s.chip with regs := c.regs, hub := c.hub } ∧
        look 0 c.hub.pulse (3 + n.val) = look 0 s.chip.hub.pulse (3 + n.val) + 1 ∧
        (s.chip.quiet = false → s.chip.freeze pgHUB = false → (s.chip.hubSrc (3 + n.val)).count = 0 → (c.hubSrc (3 + n.val)).time = s.chip.tb.short)) ∧
    (∀ n : Fin 2, s.chip.rdf Reg.TICK_PHASE 1 0 = 0 ∨
        s.chip.tick.len ≤ (if n.val = 0 then s.chip.tick.ofs0 else s.chip.tick.ofs1) →
      exec (.ofsEvent n) s = .next s) ∧
    (∀ v : Word, ∃ c, exec (.hubSwset v) s = .next (s.chipTo c) ∧ c = { s.chip with regs := c.regs, hub := c.hub } ∧
      (s.chip.freeze pgHUB = false → ∀ k : Fin 8, (c.hubSrc (88 + k.val)).count =
        if bit v k = true ∧ (s.chip.hubSrc (88 + k.val)).count ≠ 255 then (s.chip.hubSrc (88 + k.val)).count + 1
        else (s.chip.hubSrc (88 + k.val)).count) ∧
      (∀ i, i < 88 ∨ 96 ≤ i → c.hubSrc i = s.chip.hubSrc i))

/-- R191 and R192, one clause for each operation. -/
def Obligations.AluOperationsDeliverTheirFunction : Prop :=
  ∀ (s : State) (c : CoreId) (b : Bundle), issues (coreNum c) b s →
    (∀ (i : Instr) (x : Int),
      (i = .add c ∧ ctOp b.ct = 0x01 ∧ x = (opDA (coreNum c) b s).toInt + (opDB (coreNum c) b s).toInt ∨
        i = .sub c ∧ ctOp b.ct = 0x02 ∧ x = (opDA (coreNum c) b s).toInt - (opDB (coreNum c) b s).toInt ∨
        i = .neg c ∧ ctOp b.ct = 0x03 ∧ x = -(opDA (coreNum c) b s).toInt ∨
        i = .abs c ∧ ctOp b.ct = 0x04 ∧ x = (opDA (coreNum c) b s).toInt.natAbs ∨
        i = .shl c ∧ ctOp b.ct = 0x05 ∧
          x = (opDA (coreNum c) b s).toInt * 2 ^ min ((opDB (coreNum c) b s).toNat % 64) 32) →
      issuesWith (coreNum c) s i (onlyCt b)
        (ctList (coreNum c) s (destD (coreNum c) b s) ((narrowed (bit b.ct 25) x).setWidth 80) 2 (clamps (bit b.ct 25) x))) ∧
    (∀ (i : Instr) (v : Word),
      (i = .asr c ∧ ctOp b.ct = 0x06 ∧ v = BitVec.ofInt 32 (roundMode (fld (s.chip.core (coreNum c)).mode 1 0)
          (opDA (coreNum c) b s).toInt (min ((opDB (coreNum c) b s).toNat % 64) 32)) ∨
        i = .lsr c ∧ ctOp b.ct = 0x07 ∧ v = opDA (coreNum c) b s >>> min ((opDB (coreNum c) b s).toNat % 64) 32 ∨
        i = .and c ∧ ctOp b.ct = 0x08 ∧ v = opDA (coreNum c) b s &&& opDB (coreNum c) b s ∨
        i = .or c ∧ ctOp b.ct = 0x09 ∧ v = opDA (coreNum c) b s ||| opDB (coreNum c) b s ∨
        i = .xor c ∧ ctOp b.ct = 0x0A ∧ v = opDA (coreNum c) b s ^^^ opDB (coreNum c) b s ∨
        i = .not c ∧ ctOp b.ct = 0x0B ∧ v = ~~~opDA (coreNum c) b s ∨
        i = .min c ∧ ctOp b.ct = 0x0C ∧
          v = (if (opDB (coreNum c) b s).toInt < (opDA (coreNum c) b s).toInt then opDB (coreNum c) b s else opDA (coreNum c) b s) ∨
        i = .max c ∧ ctOp b.ct = 0x0D ∧
          v = (if (opDA (coreNum c) b s).toInt < (opDB (coreNum c) b s).toInt then opDB (coreNum c) b s else opDA (coreNum c) b s) ∨
        i = .slt c ∧ ctOp b.ct = 0x0E ∧
          v = (if (opDA (coreNum c) b s).toInt < (opDB (coreNum c) b s).toInt then 0xFFFF_FFFF else 0) ∨
        i = .seq c ∧ ctOp b.ct = 0x0F ∧ v = (if opDA (coreNum c) b s = opDB (coreNum c) b s then 0xFFFF_FFFF else 0)) →
      issuesWith (coreNum c) s i (onlyCt b)
        (ctList (coreNum c) s (destD (coreNum c) b s) (v.setWidth 80) 2 false))

/-- R139, R141, R142, R188 and R190. The counts of redundant sign bits are characterised, not computed. -/
def Obligations.MovesExtractionAndNormalisation : Prop :=
  ∀ (s : State) (c : CoreId) (b : Bundle), issues (coreNum c) b s →
    (ctOp b.ct = 0x10 → ∀ t, codeDest (s.chip.core (coreNum c)).rrb (fld b.ct 24 18) = some t →
      issuesWith (coreNum c) s (.mov c) (onlyCt b) [inFlight (coreNum c) s 1 t
        ((match codeDest (s.chip.core (coreNum c)).rrb (fld b.ct 17 11) with
          | some u => ((s.chip.core (coreNum c)).peek u).setWidth 32
          | none => if fld b.ct 17 11 = 0x75 then s.chip.evpend (coreNum c) else 0).setWidth 80)]) ∧
    (ctOp b.ct = 0x11 → ∀ t, codeDest (s.chip.core (coreNum c)).rrb (fld b.ct 24 18) = some t → fld b.ct 17 16 ≠ 3 →
      issuesWith (coreNum c) s (.ldi c) (onlyCt b) [inFlight (coreNum c) s 1 t
        ((if fld b.ct 17 16 = 0 then BitVec.ofInt 32 (fldS b.ct 15 0)
          else if fld b.ct 17 16 = 1 then word (fld b.ct 15 0)
          else (((s.chip.core (coreNum c)).peek t).setWidth 32 &&& 0xFFFF) ||| word (fld b.ct 15 0 * 0x1_0000)).setWidth 80)]) ∧
    (ctOp b.ct = 0x12 →
      (∀ lo, (fld b.ct 15 14 = 1 ∧ lo = 48 ∨ fld b.ct 15 14 = 2 ∧ lo = 16 ∨ fld b.ct 15 14 = 3 ∧ lo = 0) →
        issuesWith (coreNum c) s (.ext c) (onlyCt b) [inFlight (coreNum c) s 1 (destD (coreNum c) b s)
          (((look 0 (s.chip.core (coreNum c)).a (fld b.ct 18 16)).extractLsb' lo 32).setWidth 80)]) ∧
      (fld b.ct 15 14 = 0 → ∀ x : Int,
        x = (if bit (s.chip.core (coreNum c)).mode 8
          then roundMode (fld (s.chip.core (coreNum c)).mode 1 0) (look 0 (s.chip.core (coreNum c)).a (fld b.ct 18 16)).toInt 40
          else (look 0 (s.chip.core (coreNum c)).a (fld b.ct 18 16)).toInt) →
        issuesWith (coreNum c) s (.ext c) (onlyCt b)
          (ctList (coreNum c) s (destD (coreNum c) b s) ((narrowed (bit b.ct 25) x).setWidth 80) 3 (clamps (bit b.ct 25) x)))) ∧
    (ctOp b.ct = 0x13 → ∃ e : Nat, e ≤ 31 ∧ -(2 ^ (31 - e)) ≤ (opDA (coreNum c) b s).toInt ∧
      (opDA (coreNum c) b s).toInt < 2 ^ (31 - e) ∧
      (e = 31 ∨ (opDA (coreNum c) b s).toInt < -(2 ^ (30 - e)) ∨ 2 ^ (30 - e) ≤ (opDA (coreNum c) b s).toInt) ∧
      issuesWith (coreNum c) s (.expd c) (onlyCt b)
        [inFlight (coreNum c) s 1 (destD (coreNum c) b s) ((word e).setWidth 80)]) ∧
    (ctOp b.ct = 0x14 → ∀ v : BitVec 80, v = look 0 (s.chip.core (coreNum c)).a (fld b.ct 18 16) →
      ∃ n : Nat, n ≤ 79 ∧ -(2 ^ n) ≤ v.toInt ∧ v.toInt < 2 ^ n ∧ (n = 0 ∨ v.toInt < -(2 ^ (n - 1)) ∨ 2 ^ (n - 1) ≤ v.toInt) ∧
        issuesWith (coreNum c) s (.expa c) (onlyCt b)
          [inFlight (coreNum c) s 1 (destD (coreNum c) b s) ((BitVec.ofInt 32 (71 - (n : Int))).setWidth 80)]) ∧
    (ctOp b.ct = 0x15 →
      (∀ n : Nat, n ≤ 31 → (opDB (coreNum c) b s).toInt = n → ∀ x : Int, x = (opDA (coreNum c) b s).toInt * 2 ^ n →
        issuesWith (coreNum c) s (.normd c) (onlyCt b)
          (ctList (coreNum c) s (destD (coreNum c) b s) ((narrowed (bit b.ct 25) x).setWidth 80) 4 (clamps (bit b.ct 25) x))) ∧
      (∀ n : Nat, 0 < n → n ≤ 32 → (opDB (coreNum c) b s).toInt = -n →
        issuesWith (coreNum c) s (.normd c) (onlyCt b)
          [inFlight (coreNum c) s 1 (destD (coreNum c) b s)
            ((BitVec.ofInt 32 (roundMode (fld (s.chip.core (coreNum c)).mode 1 0) (opDA (coreNum c) b s).toInt n)).setWidth 80)])) ∧
    (ctOp b.ct = 0x16 → ∀ v : BitVec 80, v = look 0 (s.chip.core (coreNum c)).a (fld b.ct 21 19) →
      (∀ n : Nat, n ≤ 79 → (opDB (coreNum c) b s).toInt = n → ∀ x : Int, x = v.toInt * 2 ^ n →
        (bit b.ct 25 = false ∨ -(2 ^ 79) ≤ x ∧ x < 2 ^ 79 → issuesWith (coreNum c) s (.norma c) (onlyCt b)
          [inFlight (coreNum c) s 1 (.a (fld b.ct 24 22)) (BitVec.ofInt 80 x)]) ∧
        (bit b.ct 25 = true → x < -(2 ^ 79) ∨ 2 ^ 79 ≤ x → issuesWith (coreNum c) s (.norma c) (onlyCt b)
          [inFlight (coreNum c) s 1 (.a (fld b.ct 24 22)) (BitVec.ofInt 80 (if x < 0 then -(2 ^ 79) else 2 ^ 79 - 1)),
            inFlight (coreNum c) s 1 (.flag 4) 1])) ∧
      (∀ n : Nat, 0 < n → n ≤ 80 → (opDB (coreNum c) b s).toInt = -n → issuesWith (coreNum c) s (.norma c) (onlyCt b)
        [inFlight (coreNum c) s 1 (.a (fld b.ct 24 22))
          (BitVec.ofInt 80 (roundMode (fld (s.chip.core (coreNum c)).mode 1 0) v.toInt n))]))

/-- R136 to R138 and R177 to R180. -/
def Obligations.MacOperationsAccumulateExactly : Prop :=
  ∀ (s : State) (c : CoreId) (b : Bundle) (sl : Slot) (w : Word), issues (coreNum c) b s →
    (sl = .ma ∧ w = b.ma ∨ sl = .mb ∧ w = b.mb ∧ isSteward (coreNum c) = false) →
    ∀ (base : Nat → Int) (p : Nat → Nat → Nat → Int) (sum : Nat → Int → BitVec 80),
      (∀ k, base k = if bit w 26 then 0 else (look 0 (s.chip.core (coreNum c)).a k).toInt) →
      (∀ n i j, p n i j = (if bit w n then -1 else 1) * ((opD (coreNum c) s i).toInt * (opD (coreNum c) s j).toInt *
        (if bit (s.chip.core (coreNum c)).mode 8 then 2 ^ 9 else 1) * 2 ^ (if fld w 5 4 = 3 then 0 else fld w 5 4))) →
      (∀ k x, sum k x = if bit w 27 then BitVec.ofInt 80 (satSigned 80 (base k + x)) else BitVec.ofInt 80 (base k + x)) →
      (macOp w = 0x1 → issuesWith (coreNum c) s (.dot c sl) (alone b sl w)
        [inFlight (coreNum c) s 4 (.a (fld w 23 21)) (sum (fld w 23 21)
          (p 24 (fld w 17 12 / 2 * 2) (fld w 11 6 / 2 * 2) + p 25 (fld w 17 12 / 2 * 2 + 1) (fld w 11 6 / 2 * 2 + 1)))]) ∧
      (fld w 23 21 ≠ fld w 20 18 →
        (macOp w = 0x2 → issuesWith (coreNum c) s (.dual c sl) (alone b sl w)
          [inFlight (coreNum c) s 4 (.a (fld w 23 21)) (sum (fld w 23 21) (p 24 (fld w 17 12 / 2 * 2) (fld w 11 6 / 2 * 2))),
            inFlight (coreNum c) s 4 (.a (fld w 20 18))
              (sum (fld w 20 18) (p 25 (fld w 17 12 / 2 * 2 + 1) (fld w 11 6 / 2 * 2 + 1)))]) ∧
        (macOp w = 0x3 → issuesWith (coreNum c) s (.bcast c sl) (alone b sl w)
          [inFlight (coreNum c) s 4 (.a (fld w 23 21)) (sum (fld w 23 21) (p 24 (fld w 17 12 / 2 * 2) (fld w 11 6))),
            inFlight (coreNum c) s 4 (.a (fld w 20 18)) (sum (fld w 20 18) (p 25 (fld w 17 12 / 2 * 2 + 1) (fld w 11 6)))]) ∧
        (macOp w = 0x4 → issuesWith (coreNum c) s (.cross c sl) (alone b sl w)
          [inFlight (coreNum c) s 4 (.a (fld w 23 21)) (sum (fld w 23 21) (p 24 (fld w 17 12) (fld w 11 6 / 2 * 2))),
            inFlight (coreNum c) s 4 (.a (fld w 20 18)) (sum (fld w 20 18) (p 25 (fld w 17 12) (fld w 11 6 / 2 * 2 + 1)))])) ∧
      (macOp w = 0x5 → issuesWith (coreNum c) s (.mac1 c sl) (alone b sl w)
        [inFlight (coreNum c) s 4 (.a (fld w 23 21)) (sum (fld w 23 21) (p 24 (fld w 17 12) (fld w 11 6)))]) ∧
      (macOp w = 0x6 → issuesWith (coreNum c) s (.aadd c sl) (alone b sl w)
        [inFlight (coreNum c) s 4 (.a (fld w 23 21)) (sum (fld w 23 21)
          ((if bit w 24 then -1 else 1) * (look 0 (s.chip.core (coreNum c)).a (fld w 20 18)).toInt))]) ∧
      (macOp w = 0x7 → issuesWith (coreNum c) s (.ada c sl) (alone b sl w)
        [inFlight (coreNum c) s 4 (.a (fld w 23 21)) (sum (fld w 23 21)
          ((if bit w 24 then -1 else 1) * ((opD (coreNum c) s (fld w 17 12)).toInt *
            (if bit (s.chip.core (coreNum c)).mode 8 then 2 ^ 40 else 1))))])

/-- R148 to R152, R182, R186 and R187. -/
def Obligations.LocalLoadsAndStores : Prop :=
  ∀ (s : State) (c : CoreId) (b : Bundle), issues (coreNum c) b s →
    (lsFmt b.ls = 2 → ∀ (addr : Word) (post : Option Word) (rs : List (Nat × Nat)),
      (s.chip.core (coreNum c)).addressOf s.chip.freeCtr 16 (singleAccess b.ls) = (addr, post) →
      rs = pairOf (singleAccess b.ls).pair (singleAccess b.ls).dreg →
      (∀ o, s.chip.servedLocally (coreNum c) true true addr.toNat = some o →
        ((singleAccess b.ls).st = false →
          issuesWith (coreNum c) s (.singleLoad c) (b.ma = 0 ∧ b.mb = 0 ∧ b.ct = 0)
            (rs.map (fun r => inFlight (coreNum c) s 3 (.d (physReg (s.chip.core (coreNum c)).rrb r.1))
              ((s.dev.localWord (coreNum c) (o + 4 * r.2)).setWidth 80)) ++
              (match post with
                | some q => [inFlight (coreNum c) s 1 (.p (singleAccess b.ls).p) (q.setWidth 80)]
                | none => []))) ∧
        ((singleAccess b.ls).st = true → s.mem.wf = true →
          ∃ d, exec (.singleStore c) s = .next (s.devTo d) ∧
            sameRegs (s.chip.core (coreNum c)) (d.chip.core (coreNum c)) ∧
            (∀ q, post = some q →
              inFlight (coreNum c) s 1 (.p (singleAccess b.ls).p) (q.setWidth 80) ∈ (d.chip.core (coreNum c)).flight) ∧
            (coeffOffset (coreNum c) o = true → d.mem = s.mem) ∧
            (coeffOffset (coreNum c) o = false →
              (∀ r ∈ rs, d.mem.word (localBase (coreNum c) + o + 4 * r.2) = opD (coreNum c) s r.1) ∧
              sameOutside (localBase (coreNum c) + o) (4 * rs.length) s.mem d.mem))) ∧
      (s.chip.servedLocally (coreNum c) true true addr.toNat = none → (singleAccess b.ls).st = false →
        ∃ d r, exec (.singleLoad c) s = .next (s.devTo d) ∧ (d.chip.core (coreNum c)).hold = .remote [r] none ∧
          r.addr = addr ∧ r.write = false ∧ d.chip.coreState (coreNum c) = 3 ∧ d.mem = s.mem)) ∧
    (lsFmt b.ls = 0 → ∀ (y : Bool) (a : LsAccess) (addr : Word) (post : Option Word) (o : Nat) (rs : List (Nat × Nat)),
      halfAccess b.ls (if y then 0 else 15) = some a → halfAccess b.ls (if y then 15 else 0) = none →
      (s.chip.core (coreNum c)).addressOf s.chip.freeCtr (if y then 24 else 16) a = (addr, post) →
      s.chip.servedLocally (coreNum c) (!y) y addr.toNat = some o → rs = pairOf a.pair a.dreg →
      (a.st = false → issuesWith (coreNum c) s (.lsPair c) False
        (rs.map (fun r => inFlight (coreNum c) s 3 (.d (physReg (s.chip.core (coreNum c)).rrb r.1))
          ((s.dev.localWord (coreNum c) (o + 4 * r.2)).setWidth 80)))) ∧
      (a.st = true → s.mem.wf = true → coeffOffset (coreNum c) o = false →
        ∃ d, exec (.lsPair c) s = .next (s.devTo d) ∧ sameRegs (s.chip.core (coreNum c)) (d.chip.core (coreNum c)) ∧
          (∀ r ∈ rs, d.mem.word (localBase (coreNum c) + o + 4 * r.2) = opD (coreNum c) s r.1) ∧
          sameOutside (localBase (coreNum c) + o) (4 * rs.length) s.mem d.mem)) ∧
    (lsFmt b.ls = 0 → ∀ (a1 a2 : LsAccess) (ad1 ad2 : Word) (q1 q2 : Option Word) (o1 o2 : Nat),
      halfAccess b.ls 15 = some a1 → halfAccess b.ls 0 = some a2 → a1.st = false → a2.st = false →
      (s.chip.core (coreNum c)).addressOf s.chip.freeCtr 16 a1 = (ad1, q1) →
      (s.chip.core (coreNum c)).addressOf s.chip.freeCtr 24 a2 = (ad2, q2) →
      s.chip.servedLocally (coreNum c) true false ad1.toNat = some o1 →
      s.chip.servedLocally (coreNum c) false true ad2.toNat = some o2 →
      (∀ r ∈ pairOf a1.pair a1.dreg, ∀ r2 ∈ pairOf a2.pair a2.dreg, r.1 ≠ r2.1) →
      issuesWith (coreNum c) s (.lsPair c) False
        (((pairOf a1.pair a1.dreg).map (fun r => inFlight (coreNum c) s 3 (.d (physReg (s.chip.core (coreNum c)).rrb r.1))
          ((s.dev.localWord (coreNum c) (o1 + 4 * r.2)).setWidth 80))) ++
        ((pairOf a2.pair a2.dreg).map (fun r => inFlight (coreNum c) s 3 (.d (physReg (s.chip.core (coreNum c)).rrb r.1))
          ((s.dev.localWord (coreNum c) (o2 + 4 * r.2)).setWidth 80))))) ∧
    (lsFmt b.ls = 3 → ∀ (p : Nat) (q : Int) (bs ln : Nat), p = fld b.ls 29 26 →
      q = (look 0 (s.chip.core (coreNum c)).p p).toNat +
        (if bit b.ls 25 then fldS b.ls 20 0 else (look 0 (s.chip.core (coreNum c)).m (fld b.ls 24 21)).toInt) →
      bs = (look 0 (s.chip.core (coreNum c)).b p).toNat → ln = (look 0 (s.chip.core (coreNum c)).l p).toNat →
      issuesWith (coreNum c) s (.modp c) (b.ma = 0 ∧ b.mb = 0 ∧ b.ct = 0)
        [inFlight (coreNum c) s 1 (.p p)
          ((BitVec.ofInt 32 (if 8 ≤ p ∨ ln = 0 then q else if ((bs + ln : Nat) : Int) ≤ q then q - ln
            else if q < bs then q + ln else q)).setWidth 80)]) ∧
    (lsFmt b.ls = 1 → ∀ (q : Nat) (x : Queue) (rs : List (Nat × Nat)), q = fld b.ls 21 12 → x = s.chip.queue q →
      rs = pairOf (bit b.ls 28) (fld b.ls 27 22) → s.chip.qEnabled q = true →
      (bit b.ls 29 = false → x.ckind = coreKind (coreNum c) → x.cid = coreEndpoint (coreNum c) →
        (∀ r ∈ rs, s.chip.qOverlap q (x.addr (x.pop + word r.2)) = false) →
        ∃ d, exec (.queuePop c) s = .next (s.devTo d) ∧ d.mem = s.mem ∧
          d.chip.queue q = { x with pop := x.pop + word rs.length } ∧
          (∀ r ∈ rs, inFlight (coreNum c) s 3 (.d (physReg (s.chip.core (coreNum c)).rrb r.1))
            ((s.mem.word (x.addr (x.pop + word r.2))).setWidth 80) ∈ (d.chip.core (coreNum c)).flight)) ∧
      (bit b.ls 29 = true → x.pkind = coreKind (coreNum c) → x.pid = coreEndpoint (coreNum c) → x.skip = 0 →
        s.mem.wf = true →
        ∃ d, exec (.queuePush c) s = .next (s.devTo d) ∧ d.chip.queue q = { x with push := x.push + word rs.length } ∧
          (∀ r ∈ rs, d.mem.word (x.addr (x.push + word r.2)) = opD (coreNum c) s r.1) ∧
          (∀ a, (∀ r ∈ rs, a < x.addr (x.push + word r.2) ∨ x.addr (x.push + word r.2) + 4 ≤ a) →
            d.mem.get a = s.mem.get a)))

/-- R153 to R156, R158 and R193 to R195. -/
def Obligations.BranchesLoopsAndEndOfTick : Prop :=
  ∀ (s : State) (c : CoreId),
    (∀ b : Bundle, issues (coreNum c) b s → (s.chip.core (coreNum c)).lost = false → (s.chip.core (coreNum c)).branch = none →
      (s.chip.core (coreNum c)).pc < bundleCount (coreNum c) →
      ((s.chip.core (coreNum c)).loop 0).active = false → ((s.chip.core (coreNum c)).loop 1).active = false →
      (∀ (i : Instr) (t : Nat),
        (i = .br c ∧ ctOp b.ct = 0x18 ∨ i = .call c ∧ ctOp b.ct = 0x19) ∧
            condHolds (fld b.ct 24 22) (opD (coreNum c) s (fld b.ct 21 16)) = true ∧
            t = ((((s.chip.core (coreNum c)).pc : Int) + fldS b.ct 15 0) % bundleCount (coreNum c)).toNat ∨
          i = .jr c ∧ ctOp b.ct = 0x1A ∧
            t = (look 0 (s.chip.core (coreNum c)).p (fld b.ct 19 16)).toNat / 16 % bundleCount (coreNum c) ∨
          i = .ret c ∧ ctOp b.ct = 0x1B ∧ t = (look 0 (s.chip.core (coreNum c)).p 15).toNat / 16 % bundleCount (coreNum c) →
        ∃ d, exec i s = .next (s.devTo d) ∧ (d.chip.core (coreNum c)).branch = some (2, t) ∧
          (d.chip.core (coreNum c)).pc = ((s.chip.core (coreNum c)).pc + 1) % bundleCount (coreNum c) ∧
          (ctOp b.ct = 0x19 → inFlight (coreNum c) s 1 (.p 15)
            (BitVec.ofNat 80 (16 * (((s.chip.core (coreNum c)).pc + 3) % bundleCount (coreNum c))))
            ∈ (d.chip.core (coreNum c)).flight)) ∧
      (∀ i : Instr, (i = .br c ∧ ctOp b.ct = 0x18 ∨ i = .call c ∧ ctOp b.ct = 0x19) →
        condHolds (fld b.ct 24 22) (opD (coreNum c) s (fld b.ct 21 16)) = false →
        ∃ d, exec i s = .next (s.devTo d) ∧ (d.chip.core (coreNum c)).branch = none ∧
          (d.chip.core (coreNum c)).pc = ((s.chip.core (coreNum c)).pc + 1) % bundleCount (coreNum c)) ∧
      (∀ (i : Instr) (step : Nat) (count : BitVec 16),
        (i = .loop c ∧ ctOp b.ct = 0x1C ∧ step = 0 ∨ i = .loopr c ∧ ctOp b.ct = 0x1D ∧ step = fld b.ct 24 22 + 1) →
        fld b.ct 21 12 ≠ 0 →
        count = (if bit b.ct 25 then (opD (coreNum c) s (fld b.ct 5 0)).setWidth 16 else BitVec.ofNat 16 (fld b.ct 11 0)) →
        ∃ d, exec i s = .next (s.devTo d) ∧
          (d.chip.core (coreNum c)).loop 0 =
            { active := count != 0, start := ((s.chip.core (coreNum c)).pc + 1) % bundleCount (coreNum c)
              stop := ((s.chip.core (coreNum c)).pc + fld b.ct 21 12) % bundleCount (coreNum c), step := step, count := count } ∧
          (count ≠ 0 → (d.chip.core (coreNum c)).pc = ((s.chip.core (coreNum c)).pc + 1) % bundleCount (coreNum c)) ∧
          (count = 0 → (d.chip.core (coreNum c)).pc = ((s.chip.core (coreNum c)).pc + fld b.ct 21 12 + 1) % bundleCount (coreNum c))) ∧
      (isSteward (coreNum c) = false → ctOp b.ct = 0x20 →
        ∃ d, exec (.endt c) s = .next (s.devTo d) ∧ (d.chip.core (coreNum c)).drain = .endt) ∧
      (isSteward (coreNum c) = false → ctOp b.ct = 0x21 → onlyCt b →
        ∃ d, exec (.waitev c) s = .next (s.devTo d) ∧
          (s.chip.rdb (Reg.MEC_EVPEND (coreNum c)) (fld b.ct 3 0) = true →
            d.chip.rdb (Reg.MEC_EVPEND (coreNum c)) (fld b.ct 3 0) = false ∧ d.chip.coreState (coreNum c) = 1) ∧
          (s.chip.rdb (Reg.MEC_EVPEND (coreNum c)) (fld b.ct 3 0) = false →
            (d.chip.core (coreNum c)).hold = .event (fld b.ct 3 0) ∧ d.chip.coreState (coreNum c) = 3))) ∧
    (∀ b : Bundle, issues (coreNum c) b s → ctOp b.ct = 0 → (s.chip.core (coreNum c)).lost = false →
      (s.chip.core (coreNum c)).branch = none → ((s.chip.core (coreNum c)).loop 1).active = false →
      ((s.chip.core (coreNum c)).loop 0).active = true →
      ((s.chip.core (coreNum c)).loop 0).stop = (s.chip.core (coreNum c)).pc →
      ∃ d, exec (.loopEnd c) s = .next (s.devTo d) ∧
        (d.chip.core (coreNum c)).rrb = ((s.chip.core (coreNum c)).rrb + ((s.chip.core (coreNum c)).loop 0).step) % 32 ∧
        (1 < ((s.chip.core (coreNum c)).loop 0).count.toNat →
          (d.chip.core (coreNum c)).pc = ((s.chip.core (coreNum c)).loop 0).start ∧
          ((d.chip.core (coreNum c)).loop 0).count = ((s.chip.core (coreNum c)).loop 0).count - 1) ∧
        (((s.chip.core (coreNum c)).loop 0).count.toNat ≤ 1 →
          (d.chip.core (coreNum c)).pc = ((s.chip.core (coreNum c)).pc + 1) % bundleCount (coreNum c) ∧
          ((d.chip.core (coreNum c)).loop 0).active = false)) ∧
    ((s.chip.core (coreNum c)).drain = .endt → s.chip.coreState (coreNum c) = 1 → isSteward (coreNum c) = false →
      (∀ f ∈ (s.chip.core (coreNum c)).flight, f.due ≤ (s.chip.core (coreNum c)).issued + 4) →
      ∃ k, exec (.endtComplete c) s = .next (s.chipTo k) ∧ (k.core (coreNum c)).flight = [] ∧
        (s.chip.rdb (Reg.MEC_RUNCTL (coreNum c)) 0 = false → k.coreState (coreNum c) = 2) ∧
        (s.chip.rdb (Reg.MEC_RUNCTL (coreNum c)) 0 = true → k.coreState (coreNum c) = 0 ∧
          k.rdb (Reg.IRQ_RAW (pgCore (coreNum c))) 0 = true)) ∧
    (∀ e, e < 16 → (s.chip.core (coreNum c)).hold = .event e → (s.chip.core (coreNum c)).step = false → isSteward (coreNum c) = false →
      (s.chip.rdb (Reg.MEC_EVPEND (coreNum c)) e = false → exec (.eventWaitEnd c) s = .next s) ∧
      (s.chip.rdb (Reg.MEC_EVPEND (coreNum c)) e = true →
        ∃ k, exec (.eventWaitEnd c) s = .next (s.chipTo k) ∧ k.rdb (Reg.MEC_EVPEND (coreNum c)) e = false ∧
          (k.core (coreNum c)).hold = .none ∧ k.coreState (coreNum c) = 1))

/-- R79 and R80: a present state changes only when its transition ends. -/
def Obligations.BankStateRequestStartsTransitions : Prop :=
  ∀ s : State,
    (∀ (k : Fin 4) (v : Word), ∃ c, exec (.bankStateRequest k v) s = .next (s.chipTo c) ∧
      c = { s.chip with regs := c.regs, bank := { s.chip.bank with reqs := c.bank.reqs } } ∧
      (∀ b, b < 64 → c.bankCur b = s.chip.bankCur b) ∧
      (∀ b, b < 64 → b / 16 ≠ k.val → c.bankReq b = s.chip.bankReq b) ∧
      (∀ i : Fin 16, s.chip.underTest (16 * k.val + i.val) = false →
        (s.chip.bankReq (16 * k.val + i.val) = bankReqReset → s.chip.bankCur (16 * k.val + i.val) ≠ 3 →
          c.bankReq (16 * k.val + i.val) =
            if s.chip.bankCur (16 * k.val + i.val) = fld v (2 * i.val + 1) (2 * i.val) then bankReqReset
            else if s.chip.bankAccepted (16 * k.val + i.val) ≠ [] then
              { bankReqReset with
                ready := some (Fin.ofNat 4 (fld v (2 * i.val + 1) (2 * i.val)))
                after := s.chip.bankAccepted (16 * k.val + i.val) }
            else { bankReqReset with trans := some (Fin.ofNat 4 (fld v (2 * i.val + 1) (2 * i.val))) }) ∧
        ((s.chip.bankReq (16 * k.val + i.val)).trans.isSome = true →
          c.bankReq (16 * k.val + i.val) =
            { s.chip.bankReq (16 * k.val + i.val) with held := some (Fin.ofNat 4 (fld v (2 * i.val + 1) (2 * i.val))) }))) ∧
    (∀ (b : Fin 64) (t : Fin 4),
      (∀ l, s.chip.bankReq b = { bankReqReset with ready := some t, after := l } →
        ((∀ e ∈ l, e ∉ s.chip.bankAccepted b) → ∃ c, exec (.bankTransitionStart b) s = .next (s.chipTo c) ∧
          c.bankReq b = { bankReqReset with trans := some t }) ∧
        ((∃ e ∈ l, e ∈ s.chip.bankAccepted b) → exec (.bankTransitionStart b) s = .next s)) ∧
      (s.chip.bankReq b = { bankReqReset with held := some t } → s.chip.bankCur b ≠ 3 → s.chip.bankCur b ≠ t.val →
          s.chip.bankAccepted b = [] →
        ∃ c, exec (.bankTransitionStart b) s = .next (s.chipTo c) ∧ c.bankReq b = { bankReqReset with trans := some t }) ∧
      (s.chip.bankReq b = { bankReqReset with wait := some t } → s.chip.firstWaiting = some b.val → s.chip.leavingOff < 8 →
        ∃ c, exec (.bankTransitionStart b) s = .next (s.chipTo c) ∧ c.bankReq b = { bankReqReset with trans := some t } ∧
          ∀ i, i ≠ b.val → c.bankReq i = s.chip.bankReq i) ∧
      ((s.chip.bankReq b).trans = some t →
        ∃ d, exec (.bankTransitionDone b) s = .next (s.devTo d) ∧ d.chip.bankCur b = t.val ∧ (d.chip.bankReq b).trans = none ∧
          (∀ i, i < 64 → i ≠ b.val → d.chip.bankCur i = s.chip.bankCur i ∧ d.chip.bankReq i = s.chip.bankReq i) ∧
          d.chip.rdb (Reg.IRQ_RAW pgBANK) 0 = true ∧
          (s.chip.bankCur b ≠ 3 → d.mem = s.mem) ∧
          (s.chip.bankCur b = 3 → s.mem.wf = true →
            (∀ a, bankBase b ≤ a → a < bankBase b + 0x8_0000 → d.mem.get a = Config.undefByte s.chip.freeCtr a) ∧
            sameOutside (bankBase b) 0x8_0000 s.mem d.mem)))

/-- R91, R92 and R94; R84, R85, and R81 for an alias write to a bank that is not On. -/
def Obligations.BistRunsAndAliasWrites : Prop :=
  (∀ s : State,
      (∀ v : Word,
        (s.chip.bank.bist = true ∨ fld v 1 0 = 3 ∨
            (∃ b, b < 64 ∧ s.chip.rdb (Reg.BANK_BIST_SEL (b / 32)) (b % 32) = true ∧
              s.chip.bankCur b ≠ 1) →
          ∃ c, exec (.bistStart v) s = .next (s.chipTo c) ∧ c = { s.chip with regs := c.regs } ∧
            errs pgBANK 0x04 0 s.chip c ∧ sameBut (Reg.BANK_BIST_CTL :: errRegs pgBANK) s.chip c) ∧
        (s.chip.bank.bist = false → fld v 1 0 ≠ 3 →
            (∀ b, b < 64 → s.chip.rdb (Reg.BANK_BIST_SEL (b / 32)) (b % 32) = true →
              s.chip.bankCur b = 1) →
          ∃ c, exec (.bistStart v) s = .next (s.chipTo c) ∧ c.bank.bist = true ∧ c.rdb Reg.BANK_BIST_STAT 0 = true ∧
            (∀ b, b ∈ c.bank.sel ↔ b < 64 ∧ s.chip.rdb (Reg.BANK_BIST_SEL (b / 32)) (b % 32) = true) ∧
            c.bank.tested = [] ∧ c = { s.chip with regs := c.regs, bank := { c.bank with reqs := s.chip.bank.reqs } })) ∧
      (∀ (g : Fin 8) (o : Option (BitVec 19)) (b : Nat), s.chip.bank.bist = true → s.chip.bistBank g = some b →
        ∃ c, exec (.bistBankDone g o) s = .next (s.chipTo c) ∧ c.bank.tested = s.chip.bank.tested ++ [b] ∧
          (∀ x, o = some x → look 0 c.bank.fails b = x.toNat) ∧ (o = none → c.bank.fails = s.chip.bank.fails)) ∧
      (∀ (g : Fin 8) (o : Option (BitVec 19)), s.chip.bistBank g = none → exec (.bistBankDone g o) s = .next s) ∧
      (∀ i : Instr,
        (i = .bistAbort ∧ s.chip.bank.bist = true ∨
          i = .bistDone ∧ s.chip.bank.bist = true ∧ ∀ b ∈ s.chip.bank.sel, b ∈ s.chip.bank.tested) →
        ∃ d, exec i s = .next (s.devTo d) ∧ d.chip.bank.bist = false ∧ d.chip.rdf Reg.BANK_BIST_STAT 1 0 = 2 ∧
          d.chip.rdb (Reg.IRQ_RAW pgBANK) 1 = true ∧
          d.chip.rdb Reg.BANK_BIST_STAT 2 = !s.chip.bank.fails.isEmpty ∧
          (s.chip.bank.fails.isEmpty = false → d.chip.rdb (Reg.IRQ_RAW pgBANK) 2 = true) ∧
          (∀ b : Fin 64, d.chip.rdb (Reg.BANK_BIST_FAIL (b.val / 32)) (b.val % 32) = s.chip.bank.fails.any (fun e => e.1 == b.val)) ∧
          (s.mem.wf = true → ∀ a, (∀ b ∈ s.chip.bank.sel, a < bankBase b ∨ bankBase b + 0x8_0000 ≤ a) →
            d.mem.get a = s.mem.get a)) ∧
      (s.chip.bank.bist = false → exec .bistAbort s = .next s ∧ exec .bistDone s = .next s ∧
        ∀ (g : Fin 8) (o : Option (BitVec 19)), exec (.bistBankDone g o) s = .next s)) ∧
  (∀ s : State,
      (∀ (m : Fin 15) (set : Bool) (ofs : BitVec 25) (mask : Word) (a : Nat),
        a = (if set then 0x2400_0000 else 0x2800_0000) + ofs.toNat / 4 * 4 →
        (s.chip.mustWait m 0 true [a] = true → exec (.aliasWrite set ⟨m, ofs⟩ mask) s = .next s) ∧
        (s.chip.mustWait m 0 true [a] = false → s.chip.bankOn (ofs.toNat / 0x8_0000) = true → s.mem.wf = true →
          ∃ d, exec (.aliasWrite set ⟨m, ofs⟩ mask) s = .next (s.devTo d) ∧
            d.mem.word (0x2000_0000 + ofs.toNat / 4 * 4) =
              (if set then s.mem.word (0x2000_0000 + ofs.toNat / 4 * 4) ||| mask
                else s.mem.word (0x2000_0000 + ofs.toNat / 4 * 4) &&& ~~~mask) ∧
            sameOutside (0x2000_0000 + ofs.toNat / 4 * 4) 4 s.mem d.mem ∧ d.mem.wf = true ∧
            (s.chip.freeze pgMTX = false → d.chip.rd (Reg.MTX_TP_GRANTS (ofs.toNat / 0x40_0000)) =
              satInc (s.chip.rd (Reg.MTX_TP_GRANTS (ofs.toNat / 0x40_0000)))) ∧
            sameBut [Reg.MTX_TP_GRANTS (ofs.toNat / 0x40_0000), Reg.BANK_CONFLICT (ofs.toNat / 0x40_0000)] s.chip d.chip ∧
            d.chip = { s.chip with
              regs := d.chip.regs
              mtx := { s.chip.mtx with last := d.chip.mtx.last }
              freeCtr := d.chip.freeCtr }) ∧
        (s.chip.mustWait m 0 true [a] = false → s.chip.bankOn (ofs.toNat / 0x8_0000) = false →
          ∃ c, exec (.aliasWrite set ⟨m, ofs⟩ mask) s = .next (s.chipTo c) ∧
            errs pgBANK 0x01 (word (ofs.toNat / 0x8_0000)) s.chip c ∧ raises pgMTX 1 s.chip c ∧
            errs pgMTX 0x02 (word (m.val + ofs.toNat / 0x40_0000 * 0x100 + 0x1_0000)) s.chip c ∧
            (s.chip.freeze pgMTX = false → c.rd Reg.MTX_SLVERR_COUNT = satInc (s.chip.rd Reg.MTX_SLVERR_COUNT)) ∧
            samePagesBut [pgBANK, pgMTX] s.chip c ∧
            c = { s.chip with regs := c.regs, mtx := { s.chip.mtx with last := c.mtx.last }, freeCtr := c.freeCtr })) ∧
      (∀ v : Word, ∃ c, exec (.conflictClr v) s = .next (s.chipTo c) ∧ c = { s.chip with regs := c.regs } ∧
        (∀ g : Fin 8, c.rd (Reg.BANK_CONFLICT g) = if bit v g then 0 else s.chip.rd (Reg.BANK_CONFLICT g)) ∧
        (∀ k, (∀ g : Fin 8, k ≠ Reg.BANK_CONFLICT g) → c.rd k = s.chip.rd k)))

/-- R101, R109 to R111 and R116 for one push. -/
def Obligations.QueuePushOutcomes : Prop :=
  ∀ (s : State) (q : Fin 1024) (kind : BitVec 4) (id : BitVec 8) (w : Word),
    ((s.chip.queue q).pkind ≠ kind.toNat ∨ (s.chip.queue q).pid ≠ id.toNat →
      ∃ c, exec (.endpointPush q kind id w) s = .next (s.chipTo c) ∧ c = { s.chip with regs := c.regs } ∧
        queueErrs q kind.toNat id.toNat 2 0x05 s.chip c) ∧
    ((s.chip.queue q).pkind = kind.toNat → (s.chip.queue q).pid = id.toNat →
      (s.chip.qEnabled q = false →
        ∃ c, exec (.endpointPush q kind id w) s = .next (s.chipTo c) ∧ c = { s.chip with regs := c.regs } ∧
          queueErrs q kind.toNat id.toNat 3 0x06 s.chip c) ∧
      (s.chip.qEnabled q = true → (s.chip.queue q).skip ≠ 0 →
        exec (.endpointPush q kind id w) s = .next (s.chipTo (s.chip.setQueue q
          { s.chip.queue q with skip := (s.chip.queue q).skip - 1, push := (s.chip.queue q).push + 1 }))) ∧
      (s.chip.qEnabled q = true → (s.chip.queue q).skip = 0 → 0 < (s.chip.queue q).pcred → s.mem.wf = true →
        ∃ d, exec (.endpointPush q kind id w) s = .next (s.devTo d) ∧
          (s.chip.qOverlap q ((s.chip.queue q).addr (s.chip.queue q).push) = false →
            d.chip = s.chip.setQueue q { s.chip.queue q with push := (s.chip.queue q).push + 1 } ∧
            d.mem.word ((s.chip.queue q).addr (s.chip.queue q).push) = w) ∧
          (s.chip.qOverlap q ((s.chip.queue q).addr (s.chip.queue q).push) = true →
            d.chip = { s.chip.setQueue q { s.chip.queue q with push := (s.chip.queue q).push + 1 } with
              freeCtr := s.chip.freeCtr + 1 } ∧
            d.mem.word ((s.chip.queue q).addr (s.chip.queue q).push) = Config.freeBits 32 s.chip.freeCtr) ∧
          sameOutside ((s.chip.queue q).addr (s.chip.queue q).push) 4 s.mem d.mem) ∧
      (s.chip.qEnabled q = true → (s.chip.queue q).skip = 0 → (s.chip.queue q).pcred ≤ 0 →
        waitingKind kind.toNat = true →
        ∃ c, exec (.endpointPush q kind id w) s = .next (s.chipTo c) ∧
          c.queue q = { s.chip.queue q with pwait := true, pheld := some w } ∧ sameQueuesBut q s.chip c ∧
          c = { s.chip with qf := c.qf }) ∧
      (s.chip.qEnabled q = true → (s.chip.queue q).skip = 0 → (s.chip.queue q).pcred ≤ 0 →
        waitingKind kind.toNat = false →
        ∃ c, exec (.endpointPush q kind id w) s = .next (s.chipTo c) ∧
          c.queue q = { s.chip.queue q with
            dropped := if s.chip.freeze pgQF then (s.chip.queue q).dropped else satInc (s.chip.queue q).dropped } ∧
          sameQueuesBut q s.chip c ∧ queueErrs q kind.toNat id.toNat 0 0x03 s.chip c ∧
          c = { s.chip with regs := c.regs, qf := c.qf }))

/-- R101, R108 to R111 and R121 for one pop. -/
def Obligations.QueuePopOutcomes : Prop :=
  ∀ (s : State) (q : Fin 1024) (kind : BitVec 4) (id : BitVec 8),
    ((s.chip.queue q).ckind ≠ kind.toNat ∨ (s.chip.queue q).cid ≠ id.toNat →
      ∃ c, exec (.endpointPop q kind id) s = .next (s.chipTo c) ∧ c = { s.chip with regs := c.regs, rdata := 0 } ∧
        queueErrs q kind.toNat id.toNat 2 0x05 s.chip c) ∧
    ((s.chip.queue q).ckind = kind.toNat → (s.chip.queue q).cid = id.toNat →
      (s.chip.qEnabled q = false →
        ∃ c, exec (.endpointPop q kind id) s = .next (s.chipTo c) ∧ c = { s.chip with regs := c.regs, rdata := 0 } ∧
          queueErrs q kind.toNat id.toNat 3 0x06 s.chip c) ∧
      (s.chip.qEnabled q = true → 0 < (s.chip.queue q).ccred →
        ∃ c, exec (.endpointPop q kind id) s = .next (s.chipTo c) ∧
          c.queue q = { s.chip.queue q with pop := (s.chip.queue q).pop + 1 } ∧ sameQueuesBut q s.chip c ∧
          (s.chip.qOverlap q ((s.chip.queue q).addr (s.chip.queue q).pop) = false →
            c.rdata = s.mem.word ((s.chip.queue q).addr (s.chip.queue q).pop) ∧ c.freeCtr = s.chip.freeCtr) ∧
          (s.chip.qOverlap q ((s.chip.queue q).addr (s.chip.queue q).pop) = true →
            c.rdata = Config.freeBits 32 s.chip.freeCtr ∧ c.freeCtr = s.chip.freeCtr + 1) ∧
          c = { s.chip with rdata := c.rdata, freeCtr := c.freeCtr, qf := c.qf }) ∧
      (s.chip.qEnabled q = true → (s.chip.queue q).ccred ≤ 0 → waitingKind kind.toNat = true →
        exec (.endpointPop q kind id) s = .next (s.chipTo (s.chip.setQueue q { s.chip.queue q with cwait := true }))) ∧
      (s.chip.qEnabled q = true → (s.chip.queue q).ccred ≤ 0 → waitingKind kind.toNat = false →
        ∃ c, exec (.endpointPop q kind id) s = .next (s.chipTo c) ∧ c.rdata = 0 ∧
          c.queue q = { s.chip.queue q with
            under := if s.chip.freeze pgQF then (s.chip.queue q).under else satInc (s.chip.queue q).under } ∧
          sameQueuesBut q s.chip c ∧ queueErrs q kind.toNat id.toNat 1 0x04 s.chip c ∧
          c = { s.chip with regs := c.regs, rdata := 0, qf := c.qf }))

/-- R109, R118, R126 and R128. -/
def Obligations.QueueCommandsAndWaits : Prop :=
  ∀ s : State,
    ((s.chip.queue s.chip.qsel).en = true →
      ∃ c, exec .queueEnable s = .next (s.chipTo c) ∧ c = { s.chip with regs := c.regs } ∧
        errs pgQF 0x01 (word s.chip.qsel) s.chip c ∧ sameBut (errRegs pgQF) s.chip c) ∧
    ((s.chip.queue s.chip.qsel).en = false → (s.chip.queue s.chip.qsel).valid = false →
      ∃ c, exec .queueEnable s = .next (s.chipTo c) ∧ c = { s.chip with regs := c.regs } ∧
        errs pgQF 0x02 (word s.chip.qsel) s.chip c ∧ sameBut (errRegs pgQF) s.chip c) ∧
    ((s.chip.queue s.chip.qsel).en = false → (s.chip.queue s.chip.qsel).valid = true →
      ∃ d x, exec .queueEnable s = .next (s.devTo d) ∧ d.chip.queue s.chip.qsel = x ∧ sameQueuesBut s.chip.qsel s.chip d.chip ∧
        d.chip = { s.chip with qf := d.chip.qf, freeCtr := d.chip.freeCtr } ∧
        (s.mem.wf = true → ∀ a, (∀ e ∈ s.chip.qf.qs, e.1 ≠ s.chip.qsel → e.2.en = true →
            a < ((s.chip.queue s.chip.qsel).shared e.2).1 ∨ ((s.chip.queue s.chip.qsel).shared e.2).2 ≤ a) →
          d.mem.get a = s.mem.get a) ∧ x.en = true ∧ x.push = 0 ∧ x.pop = 0 ∧ x.commit = 0 ∧ x.exp = 0 ∧ x.skip = 0 ∧
        x.dropped = 0 ∧ x.under = 0 ∧ x.d0 = (s.chip.queue s.chip.qsel).d0 ∧ x.d1 = (s.chip.queue s.chip.qsel).d1 ∧
        x.d2 = (s.chip.queue s.chip.qsel).d2 ∧ x.d3 = (s.chip.queue s.chip.qsel).d3) ∧
    (∃ d, exec .queueDisable s = .next (s.devTo d) ∧ (d.chip.queue s.chip.qsel).en = false ∧
      (d.chip.queue s.chip.qsel).pwait = false ∧ (d.chip.queue s.chip.qsel).cwait = false) ∧
    ((s.chip.queue s.chip.qsel).pwait = false → (s.chip.queue s.chip.qsel).cwait = false →
      ∃ c, exec .queueDisable s = .next (s.chipTo c) ∧
        c.queue s.chip.qsel = { s.chip.queue s.chip.qsel with en := false } ∧ sameQueuesBut s.chip.qsel s.chip c ∧
        c = { s.chip with qf := c.qf }) ∧
    ((s.chip.queue s.chip.qsel).en = true →
      ∃ c, exec .queueFlush s = .next (s.chipTo c) ∧ c = { s.chip with regs := c.regs } ∧
        errs pgQF 0x01 (word s.chip.qsel) s.chip c ∧ sameBut (errRegs pgQF) s.chip c) ∧
    ((s.chip.queue s.chip.qsel).en = false →
      exec .queueFlush s = .next (s.chipTo (s.chip.setQueue s.chip.qsel
        { s.chip.queue s.chip.qsel with pop := (s.chip.queue s.chip.qsel).push }))) ∧
    exec .queueClrstat s = .next (s.chipTo (s.chip.setQueue s.chip.qsel
      { s.chip.queue s.chip.qsel with dropped := 0, under := 0 })) ∧
    (∀ q : Fin 1024,
      ((s.chip.queue q).pwait = false → exec (.creditWaitEnd q false) s = .next s) ∧
      ((s.chip.queue q).cwait = false → exec (.creditWaitEnd q true) s = .next s) ∧
      (s.chip.qEnabled q = true → (s.chip.queue q).pcred ≤ 0 →
        exec (.creditWaitEnd q false) s = .next s) ∧
      (s.chip.qEnabled q = true → (s.chip.queue q).ccred ≤ 0 → exec (.creditWaitEnd q true) s = .next s) ∧
      (∀ w : Word, (s.chip.queue q).pwait = true → (s.chip.queue q).pheld = some w → s.chip.qEnabled q = true →
        (s.chip.queue q).skip = 0 → 0 < (s.chip.queue q).pcred → s.mem.wf = true →
        s.chip.qOverlap q ((s.chip.queue q).addr (s.chip.queue q).push) = false →
        ∃ d, exec (.creditWaitEnd q false) s = .next (s.devTo d) ∧
          d.chip.queue q = { s.chip.queue q with pwait := false, pheld := none, push := (s.chip.queue q).push + 1 } ∧
          d.mem.word ((s.chip.queue q).addr (s.chip.queue q).push) = w ∧
          sameOutside ((s.chip.queue q).addr (s.chip.queue q).push) 4 s.mem d.mem ∧
          d.chip = { s.chip with qf := d.chip.qf }) ∧
      (∀ (m : Fin 32) (side : Bool), (if side then (s.chip.queue q).cwait else (s.chip.queue q).pwait) = true →
        s.chip.qEnabled q = true → (side = false → (s.chip.queue q).pheld = none) →
        0 < (if side then (s.chip.queue q).ccred else (s.chip.queue q).pcred) →
        (if side then (s.chip.queue q).ckind else (s.chip.queue q).pkind) = 3 →
        (if side then (s.chip.queue q).cid else (s.chip.queue q).pid) = m.val →
        s.chip.chanState m = 2 → s.chip.rdf (Reg.CUR_CH_STAT m) 7 5 = 7 →
        ∃ c, exec (.creditWaitEnd q side) s = .next (s.chipTo c) ∧ c.chanState m = 1 ∧
          c.queue q = (if side then { s.chip.queue q with cwait := false } else { s.chip.queue q with pwait := false }) ∧
          sameQueuesBut q s.chip c ∧ sameBut [Reg.CUR_CH_STAT m] s.chip c) ∧
      (∀ (m : CoreId) (b : Bundle) (k : Nat) (rs : List (Nat × Nat)), k = coreNum m → (s.chip.queue q).cwait = true →
        s.chip.qEnabled q = true → (s.chip.queue q).ckind = coreKind k → (s.chip.queue q).cid = coreEndpoint k →
        (s.chip.core k).hold = .credit q false → s.chip.coreState k = 3 → (s.chip.core k).drain = .none →
        (s.chip.core k).step = false → (∀ f ∈ (s.chip.core k).flight, (s.chip.core k).issued < f.due) →
        s.dev.fetch k = some b → (isSteward k = true → b.illegal = false ∧ (s.chip.core k).sup = true ∧ ctOp b.ct ≠ 0x32) →
        lsFmt b.ls = 1 → bit b.ls 29 = false → fld b.ls 21 12 = q.val → rs = pairOf (bit b.ls 28) (fld b.ls 27 22) →
        (rs.length : Int) ≤ (s.chip.queue q).ccred →
        (∀ r ∈ rs, s.chip.qOverlap q ((s.chip.queue q).addr ((s.chip.queue q).pop + word r.2)) = false) →
        ∃ d, exec (.creditWaitEnd q true) s = .next (s.devTo d) ∧ d.mem = s.mem ∧
          d.chip.queue q = { s.chip.queue q with cwait := false, pop := (s.chip.queue q).pop + word rs.length } ∧
          ∀ r ∈ rs, inFlight k s 3 (.d (physReg (s.chip.core k).rrb r.1))
            ((s.mem.word ((s.chip.queue q).addr ((s.chip.queue q).pop + word r.2))).setWidth 80) ∈ (d.chip.core k).flight) ∧
      (s.chip.qEnabled q = true → (s.chip.queue q).sched = true → s.chip.tickRuns = true →
        (∀ n, n = (s.chip.queue q).moverWords (s.chip.queue q).pos (s.chip.queue q).work (s.chip.queue q).pcred → 0 < n →
          (s.chip.queue q).pkind = 10 → (s.chip.queue q).pid = 0 → (s.chip.queue q).skip = 0 →
          ∃ d, exec (.bankMoverTransfer q) s = .next (s.devTo d) ∧ sameQueuesBut q s.chip d.chip ∧
            (d.chip.queue q).push = (s.chip.queue q).push + word n ∧ (d.chip.queue q).work = (s.chip.queue q).work - n ∧
            (d.chip.queue q).pos = ((s.chip.queue q).pos + 4 * n) % (s.chip.queue q).ringSize ∧
            (d.chip.queue q).pop = (s.chip.queue q).pop) ∧
        (∀ n, n = (s.chip.queue q).moverWords (s.chip.queue q).cpos (s.chip.queue q).cwork (s.chip.queue q).ccred → 0 < n →
          (s.chip.queue q).pkind ≠ 10 → (s.chip.queue q).ckind = 10 → (s.chip.queue q).cid = 0 →
          ∃ d, exec (.bankMoverTransfer q) s = .next (s.devTo d) ∧ sameQueuesBut q s.chip d.chip ∧
            (d.chip.queue q).pop = (s.chip.queue q).pop + word n ∧ (d.chip.queue q).cwork = (s.chip.queue q).cwork - n ∧
            (d.chip.queue q).cpos = ((s.chip.queue q).cpos + 4 * n) % (s.chip.queue q).ringSize ∧
            (d.chip.queue q).push = (s.chip.queue q).push)))

/-- R162, R165, R166, R198 and R199. -/
def Obligations.StewardExceptionsAreEntered : Prop :=
  ∀ (s : State) (n : Fin 2) (x : CoreSt) (c0 : Chip), x = s.chip.core (32 + n) → c0 = (s.dev.fetchBus (32 + n)).chip →
    (∀ b : Bundle, atBundle (32 + n) b s →
      (∀ sl, b.illegal = true → b.hasReserved sl = true →
        ∃ d, exec (.reservedOpcode (.st n) sl) s = .next (s.devTo d) ∧ entered (32 + n) 0x01 x.pc s c0 d ∧
          (d.chip.core (32 + n)).badaddr = x.badaddr) ∧
      (b.illegal = false → x.sup = false → ∀ i : Instr,
        (i = .mts (.st n) ∧ ctOp b.ct = 0x30 ∨ i = .mfs (.st n) ∧ ctOp b.ct = 0x31 ∨ i = .rete (.st n) ∧ ctOp b.ct = 0x33 ∨
          i = .waiti (.st n) ∧ ctOp b.ct = 0x34) →
        ∃ d, exec i s = .next (s.devTo d) ∧ entered (32 + n) 0x02 x.pc s c0 d ∧ (d.chip.core (32 + n)).badaddr = x.badaddr) ∧
      (b.illegal = false → x.sup = false → ctOp b.ct < 0x30 → lsFmt b.ls = 2 →
        s.chip.userForbidden (32 + n) (singleAccess b.ls).st
          (x.addressOf s.chip.freeCtr 16 (singleAccess b.ls)).1.toNat = true → ∀ i : Instr,
        (i = .singleLoad (.st n) ∧ (singleAccess b.ls).st = false ∨ i = .singleStore (.st n) ∧ (singleAccess b.ls).st = true) →
        ∃ d, exec i s = .next (s.devTo d) ∧ entered (32 + n) 0x02 x.pc s c0 d ∧
          (d.chip.core (32 + n)).badaddr = (x.addressOf s.chip.freeCtr 16 (singleAccess b.ls)).1) ∧
      (b.illegal = false → ctOp b.ct = 0x32 → (x.sup = true ∨ b.ls = 0) →
        ∃ d, exec (.trap (.st n)) s = .next (s.devTo d) ∧ entered (32 + n) 0x04 x.pc s c0 d ∧
          (d.chip.core (32 + n)).badaddr = word (fld b.ct 15 0))) ∧
    (s.chip.coreState (32 + n) = 1 → x.drain = .none → x.step = false → x.hold = .none → x.orphans = [] → x.flight = [] →
      s.chip.atBreak (32 + n) = false → s.chip.fetchWaits (32 + n) = false → s.dev.fetch (32 + n) = none →
      ∀ (data : List Word) (err : Bool),
      ∃ d, exec (.remoteAccessResponse (.st n) data err) s = .next (s.devTo d) ∧ entered (32 + n) 0x03 x.pc s c0 d ∧
        (d.chip.core (32 + n)).badaddr = word (16 * x.pc)) ∧
    (s.chip.stewardIrq (32 + n) = true → x.drain = .none → x.step = false → x.branch = none →
      (s.chip.coreState (32 + n) = 1 ∨ s.chip.coreState (32 + n) = 3 ∧ x.hold = .interrupt) →
      (x.ie = true → ∃ d, exec (.interruptTaken n) s = .next (s.devTo d) ∧ entered (32 + n) 0x08 x.pc s s.chip d) ∧
      (x.ie = false → s.chip.coreState (32 + n) = 3 →
        ∃ c, exec (.interruptTaken n) s = .next (s.chipTo c) ∧ c.coreState (32 + n) = 1 ∧ (c.core (32 + n)).hold = .none ∧
          sameRegs x (c.core (32 + n)) ∧ sameBut [stateKey (32 + n)] s.chip c))

/-- R163, R164, R166, R175 and R198. -/
def Obligations.StewardSystemOperations : Prop :=
  (∀ (s : State) (n : Fin 2) (b : Bundle), issues (32 + n) b s → (s.chip.core (32 + n)).sup = true →
    (ctOp b.ct = 0x30 →
      ∃ d, exec (.mts (.st n)) s = .next (s.devTo d) ∧
        (d.chip.core (32 + n)).supReg (fld b.ct 2 0) =
          (match fld b.ct 2 0 with
            | 0 | 1 => opD (32 + n) s (fld b.ct 24 19) &&& 3
            | 3 => opD (32 + n) s (fld b.ct 24 19) &&& 0xFF
            | 5 => opD (32 + n) s (fld b.ct 24 19) &&& 0xFFFF_FE00
            | _ => opD (32 + n) s (fld b.ct 24 19)) ∧
        (∀ j, j ≠ fld b.ct 2 0 → (d.chip.core (32 + n)).supReg j = (s.chip.core (32 + n)).supReg j) ∧
        sameRegs (s.chip.core (32 + n)) (d.chip.core (32 + n)) ∧
        (onlyCt b → d.mem = s.mem ∧
          d.chip = { (s.dev.fetchBus (32 + n)).chip with cores := d.chip.cores, freeCtr := d.chip.freeCtr })) ∧
    (ctOp b.ct = 0x31 →
      issuesWith (32 + n) s (.mfs (.st n)) (onlyCt b)
        [inFlight (32 + n) s 1 (.d (physReg (s.chip.core (32 + n)).rrb (fld b.ct 24 19)))
          (((s.chip.core (32 + n)).supReg (fld b.ct 2 0)).setWidth 80)]) ∧
    (ctOp b.ct = 0x33 →
      ∃ d, exec (.rete (.st n)) s = .next (s.devTo d) ∧
        (d.chip.core (32 + n)).status = (s.chip.core (32 + n)).estat ∧
        (d.chip.core (32 + n)).pc = (s.chip.core (32 + n)).epc.toNat / 16 ∧ (d.chip.core (32 + n)).branch = none ∧
        (∀ j, j ≠ 0 → (d.chip.core (32 + n)).supReg j = (s.chip.core (32 + n)).supReg j)) ∧
    (ctOp b.ct = 0x34 →
      (s.chip.stewardIrq (32 + n) = true → onlyCt b → issuesWith (32 + n) s (.waiti (.st n)) True []) ∧
      (s.chip.stewardIrq (32 + n) = false → onlyCt b →
        ∃ d, exec (.waiti (.st n)) s = .next (s.devTo d) ∧ (d.chip.core (32 + n)).hold = .interrupt ∧
          d.chip.coreState (32 + n) = 3 ∧ sameRegs (s.chip.core (32 + n)) (d.chip.core (32 + n)) ∧ d.mem = s.mem ∧
          sameBut [stateKey (32 + n)] (s.dev.fetchBus (32 + n)).chip d.chip))) ∧
  (∀ (s : State) (m : Fin 32) (b : Bundle), issues m b s →
    (8 ≤ macOp b.ma → b.mb = 0 → b.ls = 0 → b.ct = 0 → issuesWith m s (.reservedOpcode (.mec m) .ma) True []) ∧
    (ctOp b.ct = 0x17 ∨ ctOp b.ct = 0x1E ∨ ctOp b.ct = 0x1F ∨ 0x22 ≤ ctOp b.ct ∧ ctOp b.ct ≤ 0x2F ∨ 0x35 ≤ ctOp b.ct →
      onlyCt b → issuesWith m s (.reservedOpcode (.mec m) .ct) True [])) ∧
  (∀ (s : State) (n : Fin 2),
    ∃ c, exec (.icacheInvalidate n) s = .next (s.chipTo c) ∧
      c.core (32 + n) = { s.chip.core (32 + n) with icache := [] } ∧
      (∀ j, j ≠ 32 + n.val → c.core j = s.chip.core j) ∧ c = { s.chip with cores := c.cores })

/-- R143, R159 and R160. -/
def Obligations.CoresStartHaltStepAndResume : Prop :=
  ∀ (s : State) (c : CoreId) (k : Nat) (x : CoreSt), k = coreNum c → x = s.chip.core k →
    (s.chip.coreState k = 0 → s.chip.en (pgCore k) = true → s.chip.idleReq (pgCore k) = false → s.chip.coreClocked k = true →
      ∃ h, exec (.coreStart c) s = .next (s.chipTo h) ∧ (h.core k).pc = s.chip.entry k ∧ (h.core k).hold = .none ∧
        (h.core k).branch = none ∧ sameRegs x (h.core k) ∧
        stopped k (if isSteward k = true ∨ s.chip.rdb (Reg.MEC_RUNCTL k) 0 = true then 1 else 2) s h) ∧
    (s.chip.coreState k ≠ 0 ∨ s.chip.en (pgCore k) = false ∨ s.chip.idleReq (pgCore k) = true ∨ s.chip.coreClocked k = false →
      exec (.coreStart c) s = .next s) ∧
    (s.chip.coreState k = 1 ∨ s.chip.coreState k = 3 → x.drain = .none → x.step = false →
      ∃ h, exec (.coreHalt c) s = .next (s.chipTo h) ∧ h.core k = { x with drain := .halt } ∧ h.canIssue k = false ∧
        h.regs = s.chip.regs) ∧
    (x.drain = .halt → s.chip.coreState k = 1 → flightsDue k s →
      ∃ h, exec (.haltDone c) s = .next (s.chipTo h) ∧ (h.core k).drain = .none ∧ (h.core k).pc = x.pc ∧ stopped k 4 s h) ∧
    (s.chip.coreState k = 1 → x.drain = .none → s.chip.atBreak k = true → flightsDue k s → s.chip.coreClocked k = true →
      ∃ h, exec (.breakpoint c) s = .next (s.chipTo h) ∧ h.rdb (Reg.IRQ_RAW (pgCore k)) 1 = true ∧
        (h.core k).pc = x.pc ∧ stopped k 4 s h) ∧
    (s.chip.coreState k = 4 → s.chip.coreClocked k = true →
      ∃ h, exec (.coreResume c) s = .next (s.chipTo h) ∧ h.coreState k = 1 ∧ sameBut [stateKey k] s.chip h ∧
        h.cores = s.chip.cores) ∧
    (s.chip.coreState k ≠ 4 → exec (.coreStep c) s = .next s) ∧
    (∀ b : Bundle, s.chip.coreState k = 4 → x.drain = .none → flightsDue k s → x.branch = none → x.lost = false →
      (x.loop 0).active = false → (x.loop 1).active = false → s.chip.coreClocked k = true → s.chip.fetchWaits k = false →
      s.dev.fetch k = some b → b.ls = 0 → ctOp b.ct < 0x18 → (isSteward k = true → b.illegal = false) →
      ∃ d, exec (.coreStep c) s = .next (s.devTo d) ∧ d.chip.coreState k = 4 ∧ (d.chip.core k).flight = [] ∧
        (d.chip.core k).pc = (x.pc + 1) % bundleCount k ∧ d.mem = s.mem ∧ ∀ j, j ≠ k → d.chip.core j = s.chip.core j) ∧
    (∀ b : Bundle, s.chip.coreState k = 4 → x.drain = .none → x.flight = [] → x.branch = none → x.lost = false →
      (x.loop 0).active = false → (x.loop 1).active = false → s.chip.coreClocked k = true → s.chip.fetchWaits k = false →
      s.dev.fetch k = some b → onlyCt b → ctOp b.ct = 0x01 →
      (isSteward k = true → b.illegal = false) →
      ∃ d, exec (.coreStep c) s = .next (s.devTo d) ∧ d.chip.coreState k = 4 ∧ (d.chip.core k).flight = [] ∧
        (d.chip.core k).pc = (x.pc + 1) % bundleCount k ∧ d.mem = s.mem ∧
        (∀ n, n = physReg x.rrb (fld b.ct 24 19) →
          look 0 (d.chip.core k).d n =
            narrowed (bit b.ct 25) ((opDA k b s).toInt + (opDB k b s).toInt)) ∧
        (∀ n, n ≠ physReg x.rrb (fld b.ct 24 19) → look 0 (d.chip.core k).d n = look 0 x.d n)) ∧
    ((∃ f ∈ x.flight, f.due ≤ x.issued) →
      ∃ h, exec (.resultDelivery c) s = .next (s.chipTo h) ∧ h = { s.chip with cores := h.cores } ∧
        (∀ j, j ≠ k → h.core j = s.chip.core j) ∧
        (h.core k).flight = x.flight.filter (fun f => decide (x.issued < f.due)) ∧
        (∀ n, (∀ f ∈ x.flight, f.due ≤ x.issued → f.dest ≠ .d n) → look 0 (h.core k).d n = look 0 x.d n) ∧
        (∀ n, (∀ f ∈ x.flight, f.due ≤ x.issued → f.dest ≠ .a n) → look 0 (h.core k).a n = look 0 x.a n) ∧
        (∀ n, (∀ f ∈ x.flight, f.due ≤ x.issued → f.dest ≠ .p n) → look 0 (h.core k).p n = look 0 x.p n) ∧
        ∀ f ∈ x.flight, f.due ≤ x.issued → (∀ g ∈ x.flight, g.due ≤ x.issued → g.dest = f.dest → g = f) →
          (∀ n, f.dest = .d n → look 0 (h.core k).d n = f.val.setWidth 32) ∧
          (∀ n, f.dest = .a n → look 0 (h.core k).a n = f.val) ∧
          (∀ n, f.dest = .p n → look 0 (h.core k).p n = f.val.setWidth 32) ∧
          (∀ n, f.dest = .flag n → n < 32 → bit (h.core k).sstat n = true)) ∧
    (∀ (m : Fin 32) (v : Word),
      ∃ h, exec (.mecStatsClr m v) s = .next (s.chipTo h) ∧ sameBut [Reg.MEC_CYC_MAX m] s.chip h ∧
        h = { s.chip with regs := h.regs } ∧
        (bit v 0 = true → h.rd (Reg.MEC_CYC_MAX m) = 0) ∧ (bit v 0 = false → h = s.chip))

/-- R152 and R161. -/
def Obligations.RegisterWindowAndRemoteResponses : Prop :=
  ∀ (s : State) (c : CoreId) (k : Nat) (x : CoreSt), k = coreNum c → x = s.chip.core k →
    (∀ v : Word, (s.chip.coreState k = 0 ∨ s.chip.coreState k = 4) →
      (∃ h, exec (.regdataStage c false v) s = .next (s.chipTo h) ∧ h.core k = { x with stage1 := v } ∧ h.regs = s.chip.regs) ∧
      (∃ h, exec (.regdataStage c true v) s = .next (s.chipTo h) ∧ h.core k = { x with stage2 := v &&& 0xFFFF } ∧
        h.regs = s.chip.regs) ∧
      (∃ h, exec (.regdataCommit c v) s = .next (s.chipTo h) ∧
        (s.chip.regSel k < 0x40 → look 0 (h.core k).d (s.chip.regSel k) = v ∧ (h.core k).a = x.a ∧ (h.core k).p = x.p) ∧
        (∀ n, n < 8 → s.chip.regSel k = 0x40 + n → (h.core k).d = x.d ∧ (h.core k).p = x.p ∧
          look 0 (h.core k).a n = (x.stage2.setWidth 16 : BitVec 16) ++ x.stage1 ++ v) ∧
        (∀ n, n < 16 → s.chip.regSel k = 0x50 + n → look 0 (h.core k).p n = v ∧ (h.core k).d = x.d ∧ (h.core k).a = x.a) ∧
        (s.chip.regSel k < 0x80 → h.regs = s.chip.regs) ∧ (∀ j, j ≠ k → h.core j = s.chip.core j))) ∧
    (∀ (v : Word) (i : Instr), s.chip.coreState k ≠ 0 → s.chip.coreState k ≠ 4 →
      (i = .regdataCommit c v ∨ ∃ hi, i = .regdataStage c hi v) →
      ∃ h, exec i s = .next (s.chipTo h) ∧ h = { s.chip with regs := h.regs } ∧
        errs (pgCore k) 0x01 (if isSteward k then 0 else word (x.pc % 4096)) s.chip h ∧
        sameBut (errRegs (pgCore k)) s.chip h) ∧
    (∀ (a : RemoteAccess) (rest : List RemoteAccess) (h1 : CoreHold) (data : List Word) (err : Bool),
      x.hold = .remote (a :: rest) none → x.orphans = [] →
      s.chip.coreState k = 3 → x.step = false → h1 = (if rest = [] then x.next else .remote rest none) →
      (∀ p, s.chip.remoteAddr k a.addr.toNat = some p → s.chip.mustWait (corePort k) 0 a.write [p] = true →
        exec (.remoteAccessResponse c data err) s = .next s) ∧
      (∀ p n, s.chip.remoteAddr k a.addr.toNat = some p → s.chip.mustWait (corePort k) 0 a.write [p] = false →
        n = 1 ∨ n = 2 → p % (4 * n) = 0 → inBanks p (4 * n) → s.chip.bankOn (bankOfAddr p) = true →
        (a.write = false → a.dests.length = n →
          ∃ d, exec (.remoteAccessResponse c data err) s = .next (s.devTo d) ∧ (d.chip.core k).hold = h1 ∧
            d.chip.coreState k = (if h1 = .none then 1 else 3) ∧
            (∀ i t, a.dests[i]? = some (some t) →
              ({ due := a.due, dest := t, val := (s.mem.word (p + 4 * i)).setWidth 80 } : Flight) ∈ (d.chip.core k).flight) ∧
            sameRegs x (d.chip.core k) ∧ samePagesBut [pgMTX, pgBANK, pgCore k] s.chip d.chip ∧ d.mem = s.mem) ∧
        (a.write = true → a.data.length = n → a.dests = [] → s.mem.wf = true →
          ∃ d, exec (.remoteAccessResponse c data err) s = .next (s.devTo d) ∧ (d.chip.core k).hold = h1 ∧
            d.chip.coreState k = (if h1 = .none then 1 else 3) ∧ (d.chip.core k).flight = x.flight ∧
            sameRegs x (d.chip.core k) ∧ (∀ i v, a.data[i]? = some v → d.mem.word (p + 4 * i) = v) ∧
            sameOutside p (4 * n) s.mem d.mem)) ∧
      (∀ (e : Nat) (c0 : Chip), (s.chip.remoteAddr k a.addr.toNat = none ∧ e = a.addr.toNat ∨
          s.chip.remoteAddr k a.addr.toNat = some e ∧ s.chip.region e = .hole ∧
            s.chip.mustWait (corePort k) 0 a.write [e] = false) →
        c0 = s.chip.busError (corePort k) 15 a.write e 2 →
        (isSteward k = false →
          ∃ h, exec (.remoteAccessResponse c data err) s = .next (s.chipTo h) ∧
            (h.core k).hold = (if rest = [] then x.next else .remote rest (some a)) ∧
            (∀ t, some t ∈ a.dests → ({ due := a.due, dest := t, val := 0 } : Flight) ∈ (h.core k).flight) ∧
            sameRegs x (h.core k) ∧ raises (pgCore k) 2 c0 h ∧
            errs (pgCore k) 0x02 (word (a.pc % 4096 + a.addr.toNat % 2 ^ 20 * 4096)) c0 h ∧
            sameBut (stateKey k :: irqErrRegs (pgCore k)) c0 h) ∧
        (isSteward k = true → rest = [] →
          ∃ d, exec (.remoteAccessResponse c data err) s = .next (s.devTo d) ∧ entered k 0x03 a.pc s c0 d ∧
            (d.chip.core k).badaddr = a.addr) ∧
        (isSteward k = true → rest ≠ [] →
          ∃ h, exec (.remoteAccessResponse c data err) s = .next (s.chipTo h) ∧ (h.core k).hold = .remote rest (some a) ∧
            (h.core k).flight = x.flight ∧ sameRegs x (h.core k) ∧ sameBut [] c0 h)))

/-- R231, R252, R261, R268 and R269. -/
def Obligations.TablesTakeTheirEntries : Prop :=
  ∀ (s : State) (ofs : BitVec 20) (v : Word),
    (∃ c, exec (.selectTableWrite ofs v) s = .next (s.chipTo c) ∧
      c = { s.chip with regs := c.regs, patch := { s.chip.patch with live := c.patch.live, shadow := c.patch.shadow } } ∧
      (tableEntry ofs.toNat 0x4000 (s.chip.wsel pgPATCH) = none → c = s.chip) ∧
      (∀ sh k, tableEntry ofs.toNat 0x4000 (s.chip.wsel pgPATCH) = some (sh, k) →
        ((k < 0x010 ∨ 0x018 ≤ k ∧ k < 0x100 ∨ 0x310 ≤ k ∧ k < 0x400) → c = s.chip) ∧
        (0x010 ≤ k ∧ k < 0x018 ∨ 0x100 ≤ k ∧ k < 0x310 ∨ 0x400 ≤ k ∧ k < 0x1000 →
          (sh = false → look 0 c.patch.live k = v &&& 0x3_0FFF ∧ c.patch.shadow = s.chip.patch.shadow ∧
            c.regs = s.chip.regs ∧ ∀ j, j ≠ k → look 0 c.patch.live j = look 0 s.chip.patch.live j) ∧
          (sh = true → s.chip.pageLocked pgPATCH = false →
            look 0 c.patch.shadow k = v &&& 0x3_0FFF ∧ c.patch.live = s.chip.patch.live ∧
            c.regs = s.chip.regs ∧ ∀ j, j ≠ k → look 0 c.patch.shadow j = look 0 s.chip.patch.shadow j) ∧
          (sh = true → s.chip.pageLocked pgPATCH = true → c.patch = s.chip.patch ∧
            raises pgSNAP 4 s.chip c ∧ errs pgSNAP 0x04 (word (0x8000_0000 + ofs.toNat % 0x1000 * 0x1_0000 + pgPATCH)) s.chip c ∧
            sameBut (irqErrRegs pgSNAP) s.chip c)))) ∧
    (∃ c, exec (.dmixGainWrite ofs v) s = .next (s.chipTo c) ∧
      c = { s.chip with
        regs := c.regs, dmix := { s.chip.dmix with live := c.dmix.live, shadow := c.dmix.shadow, xp := c.dmix.xp } } ∧
      (tableEntry ofs.toNat 0x2000 (s.chip.wsel pgDMIX) = none → c = s.chip) ∧
      (∀ k, tableEntry ofs.toNat 0x2000 (s.chip.wsel pgDMIX) = some (false, k) →
        look 0 c.dmix.live k = v ∧ (c.xp k).gain = (s.chip.xp k).gain ∧ (c.xp k).target = v ∧
        (v = (s.chip.xp k).target → c.xp k = s.chip.xp k) ∧
        (v ≠ (s.chip.xp k).target → (c.xp k).pend = some v ∧
          (c.xp k).since = if (s.chip.xp k).pend.isSome then (s.chip.xp k).since else s.chip.tb.short) ∧
        (∀ j, j ≠ k → look 0 c.dmix.live j = look 0 s.chip.dmix.live j ∧ c.xp j = s.chip.xp j) ∧
        c.dmix.shadow = s.chip.dmix.shadow ∧ c.regs = s.chip.regs) ∧
      (∀ k, tableEntry ofs.toNat 0x2000 (s.chip.wsel pgDMIX) = some (true, k) →
        c.dmix.live = s.chip.dmix.live ∧ c.dmix.xp = s.chip.dmix.xp ∧
        (s.chip.pageLocked pgDMIX = false → look 0 c.dmix.shadow k = v ∧ c.regs = s.chip.regs ∧
          ∀ j, j ≠ k → look 0 c.dmix.shadow j = look 0 s.chip.dmix.shadow j) ∧
        (s.chip.pageLocked pgDMIX = true → c.dmix.shadow = s.chip.dmix.shadow ∧ raises pgSNAP 4 s.chip c))) ∧
    (∀ g : Fin 8,
      (∃ c, exec (.genTypeWrite g v) s = .next (s.chipTo c) ∧ c.rd (Reg.PATCH_GEN_CFG g) = v &&& 7 ∧
        c.gen g = { s.chip.gen g with phase := 0, count := 0 } ∧ (∀ j, j ≠ g.val → c.gen j = s.chip.gen j) ∧
        sameBut [Reg.PATCH_GEN_CFG g] s.chip c ∧
        c = { s.chip with regs := c.regs, patch := { s.chip.patch with gens := c.patch.gens } }) ∧
      (∃ c, exec (.genSeedWrite g v) s = .next (s.chipTo c) ∧
        c.gen g = { s.chip.gen g with lfsr := if v = 0 then 1 else v } ∧ (∀ j, j ≠ g.val → c.gen j = s.chip.gen j) ∧
        c = { s.chip with patch := { s.chip.patch with gens := c.patch.gens } }))

/-- R262, R267 and R268. -/
def Obligations.CrosspointTimeoutKeepsTheSumExact : Prop :=
  ∀ (s : State) (i : Fin 64) (j : Fin 32) (k : Nat), k = 64 * j.val + i.val →
    ((s.chip.xp k).pend = none ∨ s.chip.quiet = true → exec (.zcTimeout (.dmix i j)) s = .next s) ∧
    (∀ g : Word, (s.chip.xp k).pend = some g → s.chip.quiet = false →
      ∃ c, exec (.zcTimeout (.dmix i j)) s = .next (s.chipTo c) ∧ (c.xp k).gain = g ∧ (c.xp k).pend = none ∧
        look 0 c.dmix.s j.val = look 0 s.chip.dmix.s j.val +
          (g.toInt - (s.chip.xp k).gain.toInt) * (look 0 s.chip.dmix.x i.val).toInt ∧
        (∀ m, m ≠ k → c.xp m = s.chip.xp m) ∧ (∀ m, m ≠ j.val → look 0 c.dmix.s m = look 0 s.chip.dmix.s m) ∧
        (s.chip.freeze pgDMIX = false → c.rd Reg.DMIX_ZC_TIMEOUTS = satInc (s.chip.rd Reg.DMIX_ZC_TIMEOUTS)) ∧
        (s.chip.freeze pgDMIX = true → c.rd Reg.DMIX_ZC_TIMEOUTS = s.chip.rd Reg.DMIX_ZC_TIMEOUTS) ∧
        (s.chip.en pgDMIX = true →
          (2 ^ 31 ≤ (look 0 c.dmix.s j.val + 2 ^ 27) / 2 ^ 28 ∨ (look 0 c.dmix.s j.val + 2 ^ 27) / 2 ^ 28 < -(2 ^ 31)) →
          c.rdb Reg.DMIX_SAT j = true ∧ c.rdb (Reg.IRQ_RAW pgDMIX) 0 = true) ∧
        (-(2 ^ 31) ≤ (look 0 c.dmix.s j.val + 2 ^ 27) / 2 ^ 28 → (look 0 c.dmix.s j.val + 2 ^ 27) / 2 ^ 28 < 2 ^ 31 →
          sameBut [Reg.DMIX_ZC_TIMEOUTS] s.chip c) ∧
        sameBut [Reg.DMIX_ZC_TIMEOUTS, Reg.DMIX_SAT, Reg.IRQ_RAW pgDMIX] s.chip c ∧
        c = { s.chip with regs := c.regs, dmix := { s.chip.dmix with s := c.dmix.s, xp := c.dmix.xp } })

/-- R15, R250, R253 to R255 and R671, for the sources that no strobe itself produces. -/
def Obligations.StrobesPlayTheSelectedSources : Prop :=
  ∀ s : State,
    (2 ≤ s.chip.pstate → exec .sampleStrobe s = .next s) ∧
    (s.chip.pstate < 2 → ∃ d, exec .sampleStrobe s = .next (s.devTo d) ∧ d.chip.tick.idx = s.chip.tick.idx + 1 ∧
      d.chip.patch.live = s.chip.patch.live ∧ d.chip.patch.shadow = s.chip.patch.shadow ∧
      d.chip.tb = s.chip.tb ∧ d.chip.cores = s.chip.cores ∧
      (s.chip.pstate = 1 → d.chip.patch.sinks = s.chip.patch.sinks ∧ d.chip.patch.sink = s.chip.patch.sink) ∧
      (s.chip.pstate = 0 → rising s.chip.patch.src = true → ∀ (k : Nat) (x : SinkSt) (src : Nat → Word),
        x = (look sinkReset s.chip.patch.sinks k).strobe s.chip.patch.flip (look 0 s.chip.patch.live k) →
        (∀ j, src j = if 0x100 ≤ j ∧ j < 0x300 then look 0 s.chip.patch.src j else 0) →
        look sinkReset d.chip.patch.sinks k = x ∧
        (x.len = 0 → (0x100 ≤ x.b ∧ x.b < 0x300 ∨ x.b < 0x008) → look 0 d.chip.patch.sink k = src x.b) ∧
        (x.len ≠ 0 → (0x100 ≤ x.b ∧ x.b < 0x300 ∨ x.b < 0x008) → (0x100 ≤ x.a ∧ x.a < 0x300 ∨ x.a < 0x008) →
          look 0 d.chip.patch.sink k = satWord (roundHalfUp
            (fadeGain (512 - (x.pos + 1) * (512 / x.len)) * (src x.a).toInt +
              fadeGain ((x.pos + 1) * (512 / x.len)) * (src x.b).toInt) 24)))) ∧
    (∀ late : Bool, (s.chip.tickRuns = false → s.chip.tick.feed = false → exec (.audioBoundary late) s = .next s) ∧
      (∀ t, s.chip.tickRuns = true → s.chip.tick.audios = 0 → s.chip.tick.named = some t → before s.chip.tb.short t = true →
        exec (.audioBoundary late) s = .next s) ∧
      (s.chip.tickRuns = true ∨ s.chip.tick.feed = true →
        (s.chip.tickRuns = true → s.chip.tick.audios = 0 → ∃ t, s.chip.tick.named = some t ∧ before s.chip.tb.short t = false ∧
          before s.chip.tb.short (s.chip.tick.enAt + 64) = false) →
        ∃ d, exec (.audioBoundary late) s = .next (s.devTo d) ∧ d.chip.rd Reg.TICK_START_SHORT = s.chip.tb.short ∧
          d.chip.tick = { s.chip.tick with
            idx := 0, audios := s.chip.tick.audios + b2n s.chip.tickRuns, feed := s.chip.tickRuns, block := true } ∧
          d.chip.patch.flip = false ∧ d.chip.dmix.flip = false ∧ d.chip.patch.live = s.chip.patch.live ∧
          (∀ q, (d.chip.queue q).withheld = (s.chip.queue q).withhold ∧ (d.chip.queue q).withhold = false)))

/-- R278, R279, R300 and R301; that the address recorded for an instruction is its own is log entry 111. -/
def Obligations.CourierFetchesAndRefuses : Prop :=
  ∀ (s : State) (n : Fin 32) (pc : Nat), pc = s.chip.chanPc n →
    (pc + 8 ≤ 0x200_0000 → pc % 8 = 0 → s.chip.bankOn (pc / 0x8_0000) = true → portFree (chanPort n) n s.chip →
      ∃ d, s.dev.chanFetch n = d ∧ d.mem = s.mem ∧ d.chip.stall = s.chip.stall ∧ (d.chip.chan n).started = true ∧
        (∀ i, i < 8 → (d.chip.chan n).instr.extractLsb' (8 * i) 8 = s.mem.get (0x2000_0000 + pc + i)) ∧
        (∀ j, j ≠ n.val → d.chip.chan j = s.chip.chan j) ∧
        sameBut [Reg.MTX_TP_GRANTS (pc / 0x40_0000), Reg.BANK_CONFLICT (pc / 0x40_0000)] s.chip d.chip) ∧
    (pc < 0x200_0000 → s.chip.chanMayStart n = true → (s.chip.chan n).started = false →
      s.chip.mustWait (chanPort n) n false [0x2000_0000 + pc] = true → ∀ i : Instr,
      i ∈ [.courierStop n, .courierMove n, .courierGather n, .courierScatter n, .courierLoop n, .courierWait n,
        .courierSignal n, .courierFence n, .courierLdptr n, .courierAddptr n, .courierReservedOpcode n] →
      exec i s = .next s) ∧
    (s.chip.chanMayStart n = true → (s.chip.chan n).started = false → pc + 8 ≤ 0x200_0000 → pc % 8 = 0 →
      s.chip.bankOn (pc / 0x8_0000) = false → portFree (chanPort n) n s.chip →
      ∃ d, exec (.courierStop n) s = .next (s.devTo d) ∧ chanFailed n 0 0x05 (0x2000_0000 + pc) s.chip d.chip ∧
        d.mem = s.mem) ∧
    (∀ (w : BitVec 64) (d : Dev), fetched n w s d →
      (10 ≤ ifld w 63 60 → ∃ e, exec (.courierReservedOpcode n) s = .next (s.devTo e) ∧ e.mem = s.mem ∧
        chanFailed n (ifld w 63 60) 0x02 (0x2000_0000 + pc) d.chip e.chip) ∧
      (∀ i : Instr,
        (i = .courierMove n ∧ ifld w 63 60 = 1 ∨ i = .courierGather n ∧ ifld w 63 60 = 2 ∨
          i = .courierScatter n ∧ ifld w 63 60 = 3 ∨ i = .courierLoop n ∧ ifld w 63 60 = 4 ∨
          i = .courierWait n ∧ ifld w 63 60 = 5 ∨ i = .courierSignal n ∧ ifld w 63 60 = 6) →
        (d.chip.chanIllegal n = true → ∃ e, exec i s = .next (s.devTo e) ∧ e.mem = s.mem ∧
          chanFailed n (ifld w 63 60) 0x02 (0x2000_0000 + pc) d.chip e.chip) ∧
        (d.chip.chanIllegal n = false → d.chip.plainEff n = true → (ifld w 63 60 = 2 ∨ ifld w 63 60 = 3) →
          ∃ e, exec i s = .next (s.devTo e) ∧ e.mem = s.mem ∧
            chanFailed n (ifld w 63 60) 0x03 (0x2000_0000 + pc) d.chip e.chip)))

/-- R279 and R289 to R296. -/
def Obligations.CourierControlInstructions : Prop :=
  ∀ (s : State) (n : Fin 32),
    (∀ (w : BitVec 64) (d : Dev) (pc : Nat), beginsInstr n w s d → pc = d.chip.chanPc n →
      (ifld w 63 60 = 4 → ∀ (l cnt back cur : Nat), l = ifld w 59 59 → cnt = ifld w 31 16 → back = pc - 8 * ifld w 11 0 →
        cur = d.chip.rdf (Reg.CUR_CH_LOOP n) (16 * l + 15) (16 * l) →
        ∃ c, exec (.courierLoop n) s = .next (s.devTo { d with chip := c }) ∧
          sameBut [Reg.CUR_CH_STAT n, Reg.CUR_CH_LOOP n, Reg.CUR_CH_PC n] d.chip c ∧
          (d.chip.rdb (Reg.CUR_CH_STAT n) (20 + l) = false →
            (cnt = 1 → atOffset n (pc + 8) c ∧ c.rdb (Reg.CUR_CH_STAT n) (20 + l) = false) ∧
            (cnt ≠ 1 → atOffset n back c ∧ c.rdb (Reg.CUR_CH_STAT n) (20 + l) = true ∧
              c.rdf (Reg.CUR_CH_LOOP n) (16 * l + 15) (16 * l) = cnt - 1)) ∧
          (d.chip.rdb (Reg.CUR_CH_STAT n) (20 + l) = true →
            (cur = 0 → atOffset n back c ∧ c.rd (Reg.CUR_CH_LOOP n) = d.chip.rd (Reg.CUR_CH_LOOP n)) ∧
            (cur = 1 → atOffset n (pc + 8) c ∧ c.rdb (Reg.CUR_CH_STAT n) (20 + l) = false) ∧
            (1 < cur → atOffset n back c ∧ c.rdb (Reg.CUR_CH_STAT n) (20 + l) = true ∧
              c.rdf (Reg.CUR_CH_LOOP n) (16 * l + 15) (16 * l) = cur - 1))) ∧
      (ifld w 63 60 = 5 → ifld w 59 57 = 2 →
        ∃ c, exec (.courierWait n) s = .next (s.devTo { d with chip := c }) ∧
          (bit d.chip.curFlags (ifld w 4 0) = true → d.chip.flagTaken n (ifld w 4 0) = false →
            atOffset n (pc + 8) c ∧ c.curFlags = setBit d.chip.curFlags (ifld w 4 0) false) ∧
          (bit d.chip.curFlags (ifld w 4 0) = false → c.chanState n = 2 ∧ c.rdf (Reg.CUR_CH_STAT n) 7 5 = 2 ∧
            c.curFlags = d.chip.curFlags)) ∧
      (ifld w 63 60 = 5 → ifld w 59 57 = 1 →
        ∃ c, exec (.courierWait n) s = .next (s.devTo { d with chip := c }) ∧ c.curFlags = d.chip.curFlags ∧
          (d.chip.qEnabled (ifld w 9 0) = false ∨
              (max 1 (ifld w 31 16) : Int) ≤
                (if ifld w 56 56 = 0 then (d.chip.queue (ifld w 9 0)).pcred else (d.chip.queue (ifld w 9 0)).ccred) →
            atOffset n (pc + 8) c) ∧
          (d.chip.qEnabled (ifld w 9 0) = true →
            (if ifld w 56 56 = 0 then (d.chip.queue (ifld w 9 0)).pcred else (d.chip.queue (ifld w 9 0)).ccred) < 1 →
            c.chanState n = 2 ∧ c.rdf (Reg.CUR_CH_STAT n) 7 5 = 1)) ∧
      (ifld w 63 60 = 6 → ifld w 59 58 = 0 →
        ∃ c, exec (.courierSignal n) s = .next (s.devTo { d with chip := c }) ∧ atOffset n (pc + 8) c ∧
          c.curFlags = d.chip.curFlags ||| word (2 ^ (ifld w 41 32 % 32)) ∧
          sameBut [Reg.CUR_FLAGS 0, Reg.CUR_CH_PC n] d.chip c) ∧
      (ifld w 63 60 = 6 → ifld w 59 58 = 1 →
        ∃ c, exec (.courierSignal n) s = .next (s.devTo { d with chip := c }) ∧ atOffset n (pc + 8) c ∧
          c.rd (Reg.CUR_CH_SIG n) = word (ifld w 31 0 % 256) ∧ raises (chanPage n) (4 * chanSlot n + 1) d.chip c ∧
          sameBut [Reg.CUR_CH_SIG n, Reg.IRQ_RAW (chanPage n), Reg.CUR_CH_PC n] d.chip c) ∧
      (ifld w 63 60 = 6 → ifld w 59 58 = 2 → ∀ (q : Nat) (x : Queue), q = ifld w 41 32 → x = d.chip.queue q → x.pkind = 3 →
        x.pid = n → d.chip.qEnabled q = true → x.skip = 0 → 0 < x.pcred → d.mem.wf = true →
        d.chip.qOverlap q (x.addr x.push) = false →
        (∀ t ∈ d.chip.mtx.held, t.write = true → t.chan ≠ n) →
        ∃ e, exec (.courierSignal n) s = .next (s.devTo e) ∧ atOffset n (pc + 8) e.chip ∧
          e.chip.queue q = { x with push := x.push + 1 } ∧ e.mem.word (x.addr x.push) = word (ifld w 31 0) ∧
          sameOutside (x.addr x.push) 4 d.mem e.mem) ∧
      (ifld w 63 60 = 7 →
        ∃ c, exec (.courierFence n) s = .next (s.devTo { d with chip := c }) ∧ c.chanMayStart n = false ∧
          (c.chan n).fence = true ∧ c.regs = d.chip.regs) ∧
      (ifld w 63 60 = 0 →
        ∃ c, exec (.courierStop n) s = .next (s.devTo { d with chip := c }) ∧ c.chanMayStart n = false ∧
          (c.chan n).stop = true ∧ c.regs = d.chip.regs) ∧
      (ifld w 63 60 = 8 → ifld w 56 56 = 0 →
        ∃ c, exec (.courierLdptr n) s = .next (s.devTo { d with chip := c }) ∧ atOffset n (pc + 8) c ∧
          c.curPtr n (ifld w 59 57) = ifld w 39 0 ∧
          ∀ j, j < 8 → j ≠ ifld w 59 57 → c.curPtr n j = d.chip.curPtr n j) ∧
      (ifld w 63 60 = 8 → ifld w 56 56 = 1 → d.chip.chanWrites n = true → exec (.courierLdptr n) s = .next s) ∧
      (ifld w 63 60 = 8 → ifld w 56 56 = 1 → ∀ a, a = d.chip.curPtr n (ifld w 55 53) / 8 * 8 → inBanks a 8 →
        banksOn d.chip → d.chip.chanWrites n = false →
        ∃ c, exec (.courierLdptr n) s = .next (s.devTo { d with chip := c }) ∧ atOffset n (pc + 8) c ∧
          c.curPtr n (ifld w 59 57) = bytesNat ((List.range 5).map (fun i => d.mem.get (a + i)))) ∧
      (ifld w 63 60 = 9 →
        ∃ c, exec (.courierAddptr n) s = .next (s.devTo { d with chip := c }) ∧ atOffset n (pc + 8) c ∧
          (ifld w 56 56 = 0 → (c.curPtr n (ifld w 59 57) : Int) =
            ((d.chip.curPtr n (ifld w 59 57) : Int) + (word (ifld w 31 0)).toInt) % 2 ^ 40) ∧
          (ifld w 56 56 = 1 → d.chip.ringBase n + d.chip.ringLen n ≤ 2 ^ 40 →
            d.chip.ringBase n ≤ c.curPtr n (ifld w 59 57) ∧
            c.curPtr n (ifld w 59 57) < d.chip.ringBase n + d.chip.ringLen n ∧
            ((c.curPtr n (ifld w 59 57) : Int) - d.chip.curPtr n (ifld w 59 57) - (word (ifld w 31 0)).toInt)
              % d.chip.ringLen n = 0) ∧
          ∀ j, j < 8 → j ≠ ifld w 59 57 → c.curPtr n j = d.chip.curPtr n j)) ∧
    (s.chip.chanWrites n = true → exec (.fenceDone n) s = .next s) ∧
    (s.chip.chanState n = 1 → (s.chip.chan n).fence = true → s.chip.chanWrites n = false →
      ∃ c, exec (.fenceDone n) s = .next (s.chipTo c) ∧ atOffset n (s.chip.chanPc n + 8) c ∧ (c.chan n).fence = false ∧
        sameBut [Reg.CUR_CH_PC n] s.chip c) ∧
    (s.chip.chanWrites n = true → exec (.channelDone n) s = .next s) ∧
    (s.chip.chanState n = 1 → (s.chip.chan n).stop = true → s.chip.chanWrites n = false →
      ∃ c, exec (.channelDone n) s = .next (s.chipTo c) ∧ c.chanState n = 3 ∧ raises (chanPage n) (4 * chanSlot n) s.chip c ∧
        sameBut [Reg.CUR_CH_STAT n, Reg.IRQ_RAW (chanPage n)] s.chip c) ∧
    (∀ f, s.chip.chanState n = 2 → s.chip.rdf (Reg.CUR_CH_STAT n) 7 5 = 2 → ifld (s.chip.chan n).instr 59 57 = 2 →
      f = ifld (s.chip.chan n).instr 4 0 →
      (bit s.chip.curFlags f = true → s.chip.flagTaken n f = false →
        ∃ c, exec (.courierWaitEnd n) s = .next (s.chipTo c) ∧ atOffset n (s.chip.chanPc n + 8) c ∧
          c.curFlags = setBit s.chip.curFlags f false ∧
          sameBut [Reg.CUR_CH_STAT n, Reg.CUR_CH_PC n, Reg.CUR_FLAGS 0] s.chip c) ∧
      (bit s.chip.curFlags f = false → exec (.courierWaitEnd n) s = .next s)) ∧
    (∀ (w : BitVec 64) (m : Nat), s.chip.chanState n = 2 → s.chip.rdf (Reg.CUR_CH_STAT n) 7 5 = ifld w 59 57 →
      w = (s.chip.chan n).instr → m = ifld w 59 57 → m = 1 ∨ m = 4 →
      ∀ go, (go ↔ (m = 4 ∧ s.chip.reqLine (ifld w 4 0) = true) ∨
          (m = 1 ∧ (s.chip.qEnabled (ifld w 9 0) = false ∨ (max 1 (ifld w 31 16) : Int) ≤
            (if ifld w 56 56 = 0 then (s.chip.queue (ifld w 9 0)).pcred else (s.chip.queue (ifld w 9 0)).ccred)))) →
        (go → ∃ c, exec (.courierWaitEnd n) s = .next (s.chipTo c) ∧ atOffset n (s.chip.chanPc n + 8) c ∧
          c.chanState n = 1 ∧ sameBut [Reg.CUR_CH_STAT n, Reg.CUR_CH_PC n] s.chip c) ∧
        (¬go → exec (.courierWaitEnd n) s = .next s))

/-- R283 to R288 within Bank Memory. -/
def Obligations.CourierMovesItsBytes : Prop :=
  ∀ (s : State) (n : Fin 32), s.mem.wf = true → banksOn s.chip →
    (∀ (w : BitVec 64) (d : Dev) (m : MoveOp), beginsInstr n w s d → ifld w 63 60 = 1 → m = d.chip.moveOp n →
      m.sm = 0 → m.dm = 0 → 0 < m.len → inBanks m.src m.len → inBanks m.dst m.len → apart m.src m.len m.dst m.len →
      (ifld w 48 48 = 1 → exec (.courierMove n) s = .next (s.devTo (settled s d))) ∧
      (ifld w 48 48 = 0 → ∃ e, exec (.courierMove n) s = .next (s.devTo e) ∧
        (∀ i, i < m.len → e.mem.get (m.dst + i) = s.mem.get (m.src + i)) ∧ sameOutside m.dst m.len s.mem e.mem ∧
        atOffset n (d.chip.chanPc n + 8) e.chip ∧
        (d.chip.freeze (chanPage n) = false →
          e.chip.rd (Reg.CUR_CH_MOVED n) = satAdd (s.chip.rd (Reg.CUR_CH_MOVED n)) m.len) ∧
        (ifld w 49 49 = 0 → ∀ p, p < 8 → e.chip.curPtr n p = s.chip.curPtr n p) ∧
        (ifld w 49 49 = 1 → e.chip.curPtr n m.sp = m.src + m.len ∧ e.chip.curPtr n m.dp = m.dst + m.len))) ∧
    (∀ (m : MoveOp) (x : CurChan) (b : Nat), x = s.chip.chan n → m = s.chip.moveOp n → x.started = true → x.popped = [] →
      x.stop = false → x.fence = false → s.chip.chanState n = 1 → ifld x.instr 63 60 = 1 → ifld x.instr 48 48 = 1 →
      x.limit ≤ x.done → x.done < m.len → portFree (chanPort n) n s.chip → m.sm = 0 → m.dm = 0 →
      inBanks m.src m.len → inBanks m.dst m.len → apart m.src m.len m.dst m.len →
      m.src % 4 = 0 → m.dst % 4 = 0 → m.len % 4 = 0 → x.done % 4 = 0 →
      b = min m.len (x.done + 32 * 2 ^ ifld x.instr 41 40) →
      (s.chip.reqLine (ifld x.instr 47 43) = false → exec (.burstDecision n) s = .next s) ∧
      (s.chip.reqLine (ifld x.instr 47 43) = true → ∃ e, exec (.burstDecision n) s = .next (s.devTo e) ∧
        (∀ i, x.done ≤ i → i < b → e.mem.get (m.dst + i) = s.mem.get (m.src + i)) ∧
        sameOutside (m.dst + x.done) (b - x.done) s.mem e.mem ∧
        (b < m.len → (e.chip.chan n).done = b ∧ (e.chip.chan n).started = true ∧ e.chip.chanState n = 1) ∧
        (b = m.len → atOffset n (s.chip.chanPc n + 8) e.chip))) ∧
    (∀ (w : BitVec 64) (d : Dev) (g : GatherOp) (adr : Nat → Nat), beginsInstr n w s d → g = d.chip.gatherOp n →
      g.xm = 0 → g.wrap = false → d.chip.plainForced n = false →
      (∀ e, adr e = (g.base + bytesNat ((List.range g.ent).map (fun i => s.mem.get (g.tbl + e * g.ent + i))) * g.esz)
        % 2 ^ 40 / g.esz * g.esz) →
      inBanks g.tbl (g.cnt * g.ent) → inBanks g.side (g.cnt * g.esz) → g.side % 4 = 0 →
      (∀ e, e < g.cnt → inBanks (adr e) g.esz ∧ apart (adr e) g.esz g.side (g.cnt * g.esz)) →
      (ifld w 63 60 = 2 → apart g.tbl (g.cnt * g.ent) g.side (g.cnt * g.esz) →
        ∃ f, exec (.courierGather n) s = .next (s.devTo f) ∧
          (∀ e i, e < g.cnt → i < g.esz → f.mem.get (g.side + e * g.esz + i) = s.mem.get (adr e + i)) ∧
          sameOutside g.side (g.cnt * g.esz) s.mem f.mem ∧ atOffset n (d.chip.chanPc n + 8) f.chip) ∧
      (ifld w 63 60 = 3 → (∀ e, e < g.cnt → apart (adr e) g.esz g.tbl (g.cnt * g.ent)) →
        (∀ e e', e < e' → e' < g.cnt → adr e ≠ adr e') →
        ∃ f, exec (.courierScatter n) s = .next (s.devTo f) ∧
          (∀ e i, e < g.cnt → i < g.esz → f.mem.get (adr e + i) = s.mem.get (g.side + e * g.esz + i)) ∧
          (∀ a, (∀ e, e < g.cnt → a < adr e ∨ adr e + g.esz ≤ a) → f.mem.get a = s.mem.get a) ∧
          atOffset n (d.chip.chanPc n + 8) f.chip))

/-- R277, R291, R299 and R302. -/
def Obligations.CourierChannelsStartAndAbort : Prop :=
  ∀ (s : State) (n : Fin 32),
    (s.chip.chanStopped n = true → s.chip.en (chanPage n) = true → s.chip.idleReq (chanPage n) = false →
      ∃ c, exec (.channelStart n) s = .next (s.chipTo c) ∧ c.rd (Reg.CUR_CH_STAT n) = 1 ∧
        c.rd (Reg.CUR_CH_PC n) = s.chip.rd (Reg.CUR_CH_PROG n) &&& 0x1FF_FFF8 ∧
        c.rd (Reg.CUR_CH_MOVED n) = (if s.chip.freeze (chanPage n) then s.chip.rd (Reg.CUR_CH_MOVED n) else 0) ∧
        c.chan n = { curChanReset with bist := (s.chip.chan n).bist } ∧ (∀ j, j ≠ n.val → c.chan j = s.chip.chan j) ∧
        sameBut [Reg.CUR_CH_STAT n, Reg.CUR_CH_PC n, Reg.CUR_CH_MOVED n] s.chip c) ∧
    (s.chip.chanStopped n = true → s.chip.en (chanPage n) = false ∨ s.chip.idleReq (chanPage n) = true →
      exec (.channelStart n) s = .next s) ∧
    (s.chip.chanStopped n = false →
      ∃ c, exec (.channelStart n) s = .next (s.chipTo c) ∧ c = { s.chip with regs := c.regs } ∧
        errs (chanPage n) 0x01 (word (chanSlot n)) s.chip c ∧ sameBut (errRegs (chanPage n)) s.chip c) ∧
    (s.chip.chanState n = 1 ∨ s.chip.chanState n = 2 →
      ∃ c, exec (.channelAbort n) s = .next (s.chipTo c) ∧ c.chanState n = 5 ∧ (c.chan n).started = false ∧
        (c.chan n).popped = [] ∧ sameBut [Reg.CUR_CH_STAT n] s.chip c ∧
        (∀ q, (c.queue q).push = (s.chip.queue q).push ∧ (c.queue q).pop = (s.chip.queue q).pop) ∧
        (∀ q, (c.queue q).pkind = 3 → (c.queue q).pid = n.val → (c.queue q).pwait = false)) ∧
    (s.chip.chanState n ≠ 5 ∨ s.chip.chanOpen n ≠ [] → exec (.abortDone n) s = .next s) ∧
    (s.chip.chanState n = 5 → s.chip.chanOpen n = [] →
      ∃ c, exec (.abortDone n) s = .next (s.chipTo c) ∧ c.chanState n = 0 ∧ c.rdb (Reg.CUR_CH_STAT n) 16 = true ∧
        raises (chanPage n) (4 * chanSlot n + 3) s.chip c ∧
        sameBut [Reg.CUR_CH_STAT n, Reg.IRQ_RAW (chanPage n)] s.chip c ∧ c = { s.chip with regs := c.regs }) ∧
    (∀ (p : Fin 4) (v : Word),
      (∃ c, exec (.flagSet p v) s = .next (s.chipTo c) ∧ c.curFlags = s.chip.curFlags ||| v ∧
        sameBut [Reg.CUR_FLAGS 0] s.chip c ∧ c = { s.chip with regs := c.regs }) ∧
      (∃ c, exec (.plainRelease p v) s = .next (s.chipTo c) ∧
        (bit v 0 = true → look false c.cur.block p.val = false ∧
          ∀ j, j ≠ p.val → look false c.cur.block j = look false s.chip.cur.block j) ∧
        (bit v 0 = false → c = s.chip) ∧ c = { s.chip with cur := { s.chip.cur with block := c.cur.block } }))

/-- R325, R331, R334 to R336 and R339 to R342. -/
def Obligations.SerialPortFramesAreDelivered : Prop :=
  ∀ (s : State) (p : Fin 16),
    (s.chip.en (pgSAP p) = true → exec (.sapEnable p) s = .next s) ∧
    (s.chip.en (pgSAP p) = false → s.chip.sapValid p = false →
      ∃ c, exec (.sapEnable p) s = .next (s.chipTo c) ∧ c = { s.chip with regs := c.regs } ∧
        errs (pgSAP p) 0x02 0 s.chip c ∧ sameBut (errRegs (pgSAP p)) s.chip c) ∧
    (s.chip.en (pgSAP p) = false → s.chip.sapValid p = true →
      ∃ c, exec (.sapEnable p) s = .next (s.chipTo c) ∧ c.en (pgSAP p) = true ∧
        (c.sapSt p).rate = s.chip.rdf Reg.TICK_CFG 2 0 ∧ (c.sapSt p).lost = false ∧
        c.rd (Reg.SAP_INMASK_ACT p) = s.chip.rd (Reg.SAP_INMASK p) ∧
        c.rd (Reg.SAP_OUTMASK_ACT p) = s.chip.rd (Reg.SAP_OUTMASK p) ∧
        sameBut [Reg.CTRL (pgSAP p), Reg.SAP_INMASK_ACT p, Reg.SAP_OUTMASK_ACT p] s.chip c) ∧
    (∀ (f : SapFrame) (x : SapSt) (mask : Word) (slot : Nat → Word), x = s.chip.sapSt p →
      s.chip.en (pgSAP p) = true → s.chip.idleAck (pgSAP p) = false → x.lost = false → x.back = false → x.inFin = 32 →
      s.chip.rateMismatch p = false → s.chip.sapAsync p = false → feedEn (s.chip.rd (Reg.SAP_QIN p)) = false →
      s.chip.rd (Reg.SAP_NA_NOW p) = 0 → s.chip.sapDataW p ≤ s.chip.sapSlotW p →
      (mask = if x.edge = .sent then s.chip.rd (Reg.SAP_INMASK_ACT p) else s.chip.sapMaskNow p (Reg.SAP_INMASK p) x.inWr) →
      (∀ i, slot i = if bit mask i then
        (f.words[i]?.getD 0) &&& ~~~(word (2 ^ (32 - s.chip.sapDataW p) - 1)) else 0) →
      ∃ d, exec (.sapFrameReceived p f) s = .next (s.devTo d) ∧ d.mem = s.mem ∧
        d.chip.rd (Reg.SAP_INMASK_ACT p) = mask ∧
        d.chip.rdf (Reg.SAP_DLY p) 15 0 = (if s.chip.sapMaster p then 0 else f.dIn.toNat) ∧
        (s.chip.tickRuns = true → s.chip.tick.idx = 1 → f.slip ≠ .dropped → d.chip.rd (Reg.SAP_BLK_TIME p) = f.start) ∧
        (∀ i, 0x100 + 32 * p.val ≤ i ∧ i < 0x120 + 32 * p.val ∨ look 0 d.chip.patch.src i = look 0 s.chip.patch.src i) ∧
        (s.chip.rdb (Reg.SAP_FMT p) 19 = false → f.bclks = s.chip.sapSlots p * s.chip.sapSlotW p →
          (f.slip ≠ .dropped → ∀ i, i < s.chip.sapSlots p → look 0 d.chip.patch.src (0x100 + 32 * p.val + i) = slot i) ∧
          (f.slip = .dropped → d.chip.patch.src = s.chip.patch.src) ∧
          (f.slip ≠ .none → s.chip.freeze (pgSAP p) = false → d.chip.rdb (Reg.IRQ_RAW (pgSAP p)) 2 = true ∧
            d.chip.rd (Reg.SAP_SLIPS p) = satInc (s.chip.rd (Reg.SAP_SLIPS p)))) ∧
        (s.chip.sapMaster p = false → f.bclks ≠ s.chip.sapSlots p * s.chip.sapSlotW p → s.chip.freeze (pgSAP p) = false →
          d.chip.rdb (Reg.IRQ_RAW (pgSAP p)) 5 = true ∧
          d.chip.rd (Reg.SAP_FRAMEERRS p) = satInc (s.chip.rd (Reg.SAP_FRAMEERRS p))) ∧
        (∀ k, s.chip.rdb (Reg.SAP_FMT p) 19 = true → f.bclks = s.chip.sapSlots p * s.chip.sapSlotW p → f.slip = .none →
          2 * k + 1 < s.chip.sapSlots p → fld (f.words[2 * k]?.getD 0) 31 16 = 0xF872 →
          fld (f.words[2 * k + 1]?.getD 0) 31 16 = 0x4E1F →
          d.chip.rdb (Reg.SAP_NA_NOW p) k = true ∧ d.chip.rdb (Reg.SAP_NA_SEEN p) k = true ∧
            d.chip.rdb (Reg.IRQ_RAW (pgSAP p)) 3 = true ∧ look 0 d.chip.patch.src (0x100 + 32 * p.val + 2 * k) = 0 ∧
            look 0 d.chip.patch.src (0x100 + 32 * p.val + 2 * k + 1) = 0)) ∧
    (∀ f : SapFrame, s.chip.en (pgSAP p) = false ∨ s.chip.idleAck (pgSAP p) = true →
      exec (.sapFrameReceived p f) s = .next s) ∧
    (∀ (k : Nat) (wr : List (Word × Word)),
      ((∀ e ∈ wr, 2000000000 ≤ (s.chip.now - e.1).toNat * s.chip.sapBclk p) → s.chip.sapMaskNow p k wr = s.chip.rd k) ∧
      (∀ e t, wr = e :: t → (s.chip.now - e.1).toNat * s.chip.sapBclk p < 2000000000 → s.chip.sapMaskNow p k wr = e.2)) ∧
    (s.chip.en (pgSAP p) = false ∨ s.chip.sapMaster p = true ∨ (s.chip.sapSt p).lost = true →
      exec (.sapClockLoss p) s = .next s) ∧
    (s.chip.en (pgSAP p) = false ∨ (s.chip.sapSt p).lost = false → exec (.sapClockRecovery p) s = .next s) ∧
    (s.chip.en (pgSAP p) = true → s.chip.sapMaster p = false → (s.chip.sapSt p).lost = false →
      ∃ c, exec (.sapClockLoss p) s = .next (s.chipTo c) ∧ c.rdf (Reg.SAP_LINK p) 1 0 = 0 ∧
        raises (pgSAP p) 0 s.chip c ∧ (c.sapSt p).lost = true ∧ (c.sapSt p).inK = 0 ∧ (c.sapSt p).inp = (s.chip.sapSt p).inp ∧
        (s.chip.rdb (Reg.SAP_FMT p) 17 = true → (c.sapSt p).dout = []) ∧ (∀ e ∈ (c.sapSt p).dout, e.2 = 0) ∧
        sameBut [Reg.SAP_LINK p, Reg.IRQ_RAW (pgSAP p)] s.chip c ∧
        ∀ q, q ≠ p.val → c.sapSt q = s.chip.sapSt q) ∧
    (s.chip.en (pgSAP p) = true → (s.chip.sapSt p).lost = true → s.chip.pstate < 2 →
      ∃ d, exec .sampleStrobe s = .next (s.devTo d) ∧ ∀ i, i < s.chip.sapSlots p →
        look 0 d.chip.patch.src (0x100 + 32 * p.val + i) =
          if s.chip.inSlot p i = true ∧ s.chip.rateMismatch p = false ∧ s.chip.sapAsync p = false ∧ (s.chip.sapSt p).inK < 32
          then BitVec.ofInt 32 (Int.tdiv ((look 0 (s.chip.sapSt p).inp i).toInt * (31 - (s.chip.sapSt p).inK)) 32) else 0) ∧
    (s.chip.en (pgSAP p) = true → (s.chip.sapSt p).lost = true →
      ∃ c, exec (.sapClockRecovery p) s = .next (s.chipTo c) ∧ c.rdb (Reg.SAP_LINK p) 0 = true ∧
        raises (pgSAP p) 1 s.chip c ∧ (c.sapSt p).lost = false ∧ (c.sapSt p).back = true ∧
        sameBut [Reg.SAP_LINK p, Reg.IRQ_RAW (pgSAP p)] s.chip c) ∧
    (∀ k : Fin 16, ∃ c, exec (.nonaudioTimeout (.sap p k)) s = .next (s.chipTo c) ∧ c = { s.chip with regs := c.regs } ∧
      c.rdb (Reg.SAP_NA_NOW p) k = false ∧ sameBut [Reg.SAP_NA_NOW p] s.chip c)

/-- R267, R326, R333, R336 and R347. -/
def Obligations.OutputFramesObeyMaskTrimAndMutePath : Prop :=
  ∀ s : State,
    (∀ (p : Fin 16) (dOut : BitVec 16), s.chip.en (pgSAP p) = true → s.chip.idleAck (pgSAP p) = false →
      (s.chip.sapSt p).lost = false → (s.chip.sapSt p).back = false →
      ∃ c mask, exec (.sapFrameSent p dOut) s = .next (s.chipTo c) ∧
        c.rdf (Reg.SAP_DLY p) 31 16 = (if s.chip.sapMaster p then 0 else dOut.toNat) ∧
        c.rdf (Reg.SAP_DLY p) 15 0 = s.chip.rdf (Reg.SAP_DLY p) 15 0 ∧
        mask = (if (s.chip.sapSt p).edge = .received then s.chip.rd (Reg.SAP_OUTMASK_ACT p)
          else s.chip.sapMaskNow p (Reg.SAP_OUTMASK p) (s.chip.sapSt p).outWr) ∧
        c.rd (Reg.SAP_OUTMASK_ACT p) = mask ∧ c.patch = s.chip.patch ∧
        (s.chip.sapPinned p = true ∨ (∀ i, i < s.chip.sapSlots p → bit mask i = false) ∨ s.chip.sapAsync p = true →
          (c.sapSt p).dout = []) ∧
        (s.chip.en pgDMIX = false → c.fg = s.chip.fg ∧ (c.sapSt p).out = (s.chip.sapSt p).out) ∧
        (c.sapPinned p = false → (∃ i, i < s.chip.sapSlots p ∧ bit mask i = true) → s.chip.sapAsync p = false →
          ∀ i, i < s.chip.sapSlots p → ∀ w,
            (i, w) ∈ (c.sapSt p).dout ↔
              (if bit mask i then w = look 0 (c.sapSt p).out i else w = 0 ∧ s.chip.rdb (Reg.SAP_FMT p) 17 = false)) ∧
        (∀ i j, s.chip.quiet = true → s.chip.en pgDMIX = true → (s.chip.sapSt p).due = [] → (s.chip.sapSt p).outFin = 32 →
          i < s.chip.sapSlots p → s.chip.dmixDriver p i = some j → look 0 (c.sapSt p).sel i = 0) ∧
        ∀ q, q ≠ p.val → c.sapSt q = s.chip.sapSt q) ∧
    (∀ (p : Fin 16) (dOut : BitVec 16), s.chip.en (pgSAP p) = false ∨ s.chip.idleAck (pgSAP p) = true →
      exec (.sapFrameSent p dOut) s = .next s) ∧
    (∀ n : Fin 4, s.chip.aesTx n = false → exec (.aesFrameSent n) s = .next s) ∧
    (∀ n : Fin 4, s.chip.aesTx n = true →
      ∃ c, exec (.aesFrameSent n) s = .next (s.chipTo c) ∧ (c.aesSt n).frame = ((s.chip.aesSt n).frame + 1) % 192 ∧
        (s.chip.aesPinned n = true → (c.aesSt n).dout = []) ∧
        (s.chip.aesPinned n = false → (c.aesSt n).dout = [(0, s.chip.sentSubframe n 0), (1, s.chip.sentSubframe n 1)]) ∧
        c.regs = s.chip.regs ∧ ∀ m, m ≠ n.val → c.aesSt m = s.chip.aesSt m) ∧
    (∀ (p : Fin 16) (i : Fin 32) (z : ZcSt), z = look trimReset (s.chip.sapSt p).trims i.val →
      ∃ c, exec (.zcTimeout (.sap p i)) s = .next (s.chipTo c) ∧ c.regs = s.chip.regs ∧
        look trimReset (c.sapSt p).trims i.val = { z with gain := z.pend.getD z.gain, pend := none } ∧
        ∀ j, j ≠ i.val → look trimReset (c.sapSt p).trims j = look trimReset (s.chip.sapSt p).trims j) ∧
    (∀ (n : Fin 4) (ch : Fin 2) (z : ZcSt), z = look trimReset (s.chip.aesSt n).trims ch.val →
      ∃ c, exec (.zcTimeout (.aes n ch)) s = .next (s.chipTo c) ∧ c.regs = s.chip.regs ∧
        look trimReset (c.aesSt n).trims ch.val = { z with gain := z.pend.getD z.gain, pend := none }) ∧
    (∀ (n : Fin 16) (z : ZcSt), z = (s.chip.spkSt n).vol →
      ∃ c, exec (.zcTimeout (.spk n)) s = .next (s.chipTo c) ∧ c.regs = s.chip.regs ∧
        (c.spkSt n).vol = { z with gain := z.pend.getD z.gain, pend := none })

/-- R343 to R347, R349 and R360. -/
def Obligations.AesReceiversAndAsrcGroups : Prop :=
  ∀ s : State,
    (∀ (n : Fin 4) (x : AesSt), x = s.chip.aesSt n →
      (s.chip.aesRx n = true → s.chip.aesLocked n = false →
        ∃ c, exec (.aesLock n) s = .next (s.chipTo c) ∧ c.aesLocked n = true ∧ raises (pgAES n) 1 s.chip c ∧
          sameBut [Reg.AES_RXSTAT n, Reg.IRQ_RAW (pgAES n)] s.chip c) ∧
      (s.chip.aesLocked n = true →
        ∃ c, exec (.aesLockLoss n) s = .next (s.chipTo c) ∧ c.aesLocked n = false ∧ raises (pgAES n) 0 s.chip c ∧
          (c.aesSt n).fading = true ∧ (c.aesSt n).inp = x.inp ∧
          sameBut [Reg.AES_RXSTAT n, Reg.IRQ_RAW (pgAES n)] s.chip c) ∧
      (∀ f : AesFrame, s.chip.aesRx n = true → s.chip.aesLocked n = false →
        ∃ d, exec (.aesFrameReceived n f) s = .next (s.devTo d) ∧ d.mem = s.mem ∧
          (s.chip.freeze (pgAES n) = false →
            d.chip.rd (Reg.AES_BPERRS n) = satAdd (s.chip.rd (Reg.AES_BPERRS n)) f.biphase) ∧
          sameBut [Reg.AES_BPERRS n] s.chip d.chip ∧ d.chip.patch = s.chip.patch) ∧
      (∀ f : AesFrame, s.chip.aesRx n = true → s.chip.aesSync n = true → f.valid = true → x.back = false → x.inFin = 32 →
        s.chip.aesMuted n = false → s.chip.rdb (Reg.AES_CFG n) 4 = false → f.slip = .none →
        feedEn (s.chip.rd (Reg.AES_RXQ n)) = false →
        ∃ d, exec (.aesFrameReceived n f) s = .next (s.devTo d) ∧ d.mem = s.mem ∧
          look 0 d.chip.patch.src (0x010 + 2 * n.val) =
            (if f.a.parityErr then look 0 x.prev 0 else if f.a.v && s.chip.rdb (Reg.AES_CFG n) 2 then 0
              else word (f.a.audio.toNat * 256)) ∧
          look 0 d.chip.patch.src (0x011 + 2 * n.val) =
            (if f.b.parityErr then look 0 x.prev 1 else if f.b.v && s.chip.rdb (Reg.AES_CFG n) 2 then 0
              else word (f.b.audio.toNat * 256)) ∧
          d.chip.rd (Reg.AES_DLY n) = word f.dIn.toNat ∧
          (f.a.parityErr = true → d.chip.rdb (Reg.IRQ_RAW (pgAES n)) 4 = true) ∧
          (f.a.parityErr = false → f.b.parityErr = false →
            d.chip.rd (Reg.AES_PARERRS n) = s.chip.rd (Reg.AES_PARERRS n))) ∧
      (∀ f : AesFrame, s.chip.aesRx n = false → exec (.aesFrameReceived n f) s = .next s) ∧
      (∀ rate : BitVec 18, s.chip.aesRx n = true → (look [] x.cs 0).length ≠ 192 →
        ∃ c, exec (.aesStatusBlock n rate) s = .next (s.chipTo c) ∧ c.rdf (Reg.AES_RXSTAT n) 25 8 = rate.toNat ∧
          sameBut [Reg.AES_RXSTAT n] s.chip c) ∧
      (∀ rate : BitVec 18, s.chip.aesRx n = true → (look [] x.cs 0).length = 192 → ((look [] x.cs 0)[0]?).getD false = false →
        ((look [] x.cs 1)[0]?).getD false = false →
        ∃ c, exec (.aesStatusBlock n rate) s = .next (s.chipTo c) ∧ c.rdf (Reg.AES_RXSTAT n) 25 8 = rate.toNat ∧
          (∀ w, w < 6 → c.rd (Reg.AES_RXCS_A n w) = bitsWord (look [] x.cs 0) w ∧
            c.rd (Reg.AES_RXCS_B n w) = bitsWord (look [] x.cs 1) w ∧
            c.rd (Reg.AES_RXU_A n w) = bitsWord (look [] x.user 0) w ∧
            c.rd (Reg.AES_RXU_B n w) = bitsWord (look [] x.user 1) w ∧
            (s.chip.rd (Reg.AES_RXCS_A n w) ≠ bitsWord (look [] x.cs 0) w → c.rdb (Reg.IRQ_RAW (pgAES n)) 2 = true)) ∧
          c.rd (Reg.AES_CRCERRS n) = s.chip.rd (Reg.AES_CRCERRS n) ∧ c.aesLocked n = s.chip.aesLocked n) ∧
      (∀ v : Word, ∃ c, exec (.txcsCommit n v) s = .next (s.chipTo c) ∧ c.regs = s.chip.regs ∧
        (bit v 0 = true → (c.aesSt n).commit = true) ∧ (bit v 0 = false → c = s.chip) ∧ (c.aesSt n).active = x.active) ∧
      (x.commit = true → s.chip.aesTx n = true → x.frame = 0 → ∃ c, exec (.txcsCopy n) s = .next (s.chipTo c) ∧ raises (pgAES n) 8 s.chip c ∧
        (c.aesSt n).commit = false ∧ sameBut [Reg.IRQ_RAW (pgAES n)] s.chip c ∧
        ∀ i, i < 24 → look 0 (c.aesSt n).active i = s.chip.rd (Reg.AES_TXCS_A n 0 + 4 * i)) ∧
      (x.commit = false ∨ s.chip.aesTx n = false ∨ x.frame ≠ 0 → exec (.txcsCopy n) s = .next s) ∧
      (∃ c, exec (.nonaudioTimeout (.aes n)) s = .next (s.chipTo c) ∧ c.regs = s.chip.regs ∧
        c.aesSt n = { x with naPre := false })) ∧
    (∀ (g : Fin 8) (ratio : Word),
      (s.chip.asrcOn g = false → exec (.asrcLock g ratio) s = .next s) ∧
      (s.chip.rdb (Reg.ASRC_G_STAT g) 0 = false → exec (.asrcLockLoss g ratio) s = .next s) ∧
      (s.chip.asrcOn g = true →
        ∃ c, exec (.asrcLock g ratio) s = .next (s.chipTo c) ∧ c.rd (Reg.ASRC_G_RATIO g) = ratio ∧
          (2 ^ 21 ≤ ratio.toNat → ratio.toNat ≤ 2 ^ 27 → c.rdf (Reg.ASRC_G_STAT g) 1 0 = 1 ∧
            (s.chip.rdb (Reg.ASRC_G_STAT g) 0 = false → raises pgASRC g s.chip c)) ∧
          (ratio.toNat < 2 ^ 21 ∨ 2 ^ 27 < ratio.toNat → c.rdf (Reg.ASRC_G_STAT g) 1 0 = 2 ∧
            (s.chip.rdb (Reg.ASRC_G_STAT g) 0 = true → raises pgASRC (8 + g) s.chip c ∧ (c.asrcSt g).k = 32)) ∧
          sameBut [Reg.ASRC_G_RATIO g, Reg.ASRC_G_STAT g, Reg.IRQ_RAW pgASRC] s.chip c) ∧
      (s.chip.rdb (Reg.ASRC_G_STAT g) 0 = true →
        ∃ c, exec (.asrcLockLoss g ratio) s = .next (s.chipTo c) ∧ c.rdb (Reg.ASRC_G_STAT g) 0 = false ∧
          raises pgASRC (8 + g) s.chip c ∧
          (c.asrcSt g).k = (if 2 ^ 21 ≤ ratio.toNat ∧ ratio.toNat ≤ 2 ^ 27 then 0 else 32) ∧ (c.asrcSt g).last = (s.chip.asrcSt g).last ∧
          sameBut [Reg.ASRC_G_RATIO g, Reg.ASRC_G_STAT g, Reg.IRQ_RAW pgASRC] s.chip c))

/-- R351 to R353. -/
def Obligations.JackEventsAndClasses : Prop :=
  ∀ s : State,
    (∀ (j : Fin 2) (det : Bool), s.chip.jackOn j = true →
      ((det == s.chip.rdb Reg.JACK_CFG 20) = s.chip.jackIn j → ¬(s.chip.jackIn j = true ∧ (s.chip.jackSt j).busy = true) →
        exec (.jackDebounce j det) s = .next s) ∧
      (det = s.chip.rdb Reg.JACK_CFG 20 → s.chip.jackIn j = true → (s.chip.jackSt j).busy = true →
        ∃ c, exec (.jackDebounce j det) s = .next (s.chipTo c) ∧ c.regs = s.chip.regs ∧ c.jack.evts = s.chip.jack.evts ∧
          c.jackSt j = { s.chip.jackSt j with rounds := [], sets := 0 }) ∧
      (det = s.chip.rdb Reg.JACK_CFG 20 → s.chip.jackIn j = false → s.chip.jack.evts.length < 16 →
        ∃ c, exec (.jackDebounce j det) s = .next (s.chipTo c) ∧ c.rd (Reg.JACK_STAT j) = 1 ∧ raises pgJACK 0 s.chip c ∧
          c.jack.evts = s.chip.jack.evts ++ [{ info := word (j.val * 256)
                                               time := s.chip.tb.short - word (s.chip.insDb * 1000000) }] ∧
          (c.jackSt j).busy = true ∧ (c.jackSt j).rounds = [] ∧
          sameBut [Reg.JACK_STAT j, Reg.IRQ_RAW pgJACK] s.chip c) ∧
      (det = s.chip.rdb Reg.JACK_CFG 20 → s.chip.jackIn j = false → 16 ≤ s.chip.jack.evts.length →
        ∃ c, exec (.jackDebounce j det) s = .next (s.chipTo c) ∧ c.jack.evts = s.chip.jack.evts ∧ c.jack.ovf = true ∧
          c.rdb (Reg.IRQ_RAW pgJACK) 5 = true) ∧
      (det ≠ s.chip.rdb Reg.JACK_CFG 20 → s.chip.jackIn j = true → s.chip.rdf (Reg.JACK_STAT j) 7 4 = 0 →
        s.chip.jack.evts.length < 16 →
        ∃ c, exec (.jackDebounce j det) s = .next (s.chipTo c) ∧ c.rd (Reg.JACK_STAT j) = 0 ∧ raises pgJACK 1 s.chip c ∧
          c.jack.evts = s.chip.jack.evts ++ [{ info := word (16 + j.val * 256)
                                               time := s.chip.tb.short - word (s.chip.insDb * 1000000) }] ∧
          (c.jackSt j).busy = false)) ∧
    (∀ (j : Fin 2) (tip ring2 sleeve : BitVec 10) (x : JackChan) (cls : Nat), x = s.chip.jackSt j →
      s.chip.jackOn j = true → x.busy = true → x.sets < 8 →
      cls = (if s.chip.rdf Reg.JACK_THR0 25 16 ≤ tip.toNat then 4
        else if ring2.toNat ≤ s.chip.rdf Reg.JACK_THR0 9 0 ∧ sleeve.toNat ≤ s.chip.rdf Reg.JACK_THR0 9 0 then 1
        else if ring2.toNat ≤ s.chip.rdf Reg.JACK_THR0 9 0 ∧ s.chip.rdf Reg.JACK_THR1 9 0 ≤ sleeve.toNat ∧
          sleeve.toNat ≤ s.chip.rdf Reg.JACK_THR1 25 16 then 2
        else if sleeve.toNat ≤ s.chip.rdf Reg.JACK_THR0 9 0 ∧ s.chip.rdf Reg.JACK_THR1 9 0 ≤ ring2.toNat ∧
          ring2.toNat ≤ s.chip.rdf Reg.JACK_THR1 25 16 then 3
        else 5) →
      ∃ c, exec (.jackClassRound j tip ring2 sleeve) s = .next (s.chipTo c) ∧
        (x.rounds.length < 2 → (c.jackSt j).rounds = x.rounds ++ [cls] ∧ c.regs = s.chip.regs ∧ c.jack.evts = s.chip.jack.evts) ∧
        (x.rounds = [cls, cls] → c.rdf (Reg.JACK_STAT j) 3 1 = cls ∧ c.rdb (Reg.IRQ_RAW pgJACK) 2 = true ∧
          (c.jackSt j).busy = false ∧
          (s.chip.jack.evts.length < 16 →
            c.jack.evts = s.chip.jack.evts ++ [{ info := word (cls + 32 + j.val * 256), time := x.since }])) ∧
        (∀ a b, x.rounds = [a, b] → a ≠ cls ∨ b ≠ cls → (c.jackSt j).rounds = [] ∧ (c.jackSt j).sets = x.sets + 1 ∧
          c.regs = s.chip.regs)) ∧
    (∀ (j : Fin 2) (tip ring2 sleeve : BitVec 10), (s.chip.jackOn j = false ∨ (s.chip.jackSt j).busy = false →
        exec (.jackClassRound j tip ring2 sleeve) s = .next s) ∧
      (s.chip.jackOn j = true → (s.chip.jackSt j).busy = true → 8 ≤ (s.chip.jackSt j).sets →
        (s.chip.jackSt j).rounds.length = 2 →
        ∃ c, exec (.jackClassRound j tip ring2 sleeve) s = .next (s.chipTo c) ∧ (c.jackSt j).busy = false ∧
          1 ≤ c.rdf (Reg.JACK_STAT j) 3 1 ∧ c.rdf (Reg.JACK_STAT j) 3 1 ≤ 5)) ∧
    (∀ (j : Fin 2) (code : BitVec 10), s.chip.jackOn j = false → ∀ det,
      exec (.jackDebounce j det) s = .next s ∧ exec (.jackButtonSample j code) s = .next s ∧
        exec (.jackButtonDebounce j) s = .next s) ∧
    (∀ v : Word, ∃ c, exec (.jackReclass v) s = .next (s.chipTo c) ∧ c.regs = s.chip.regs ∧ c.jack.evts = s.chip.jack.evts ∧
      ∀ j : Fin 2, (bit v j = true → s.chip.jackOn j = true → s.chip.jackIn j = true →
          c.jackSt j = { s.chip.jackSt j with rounds := [], sets := 0, busy := true }) ∧
        (bit v j = false → c.jackSt j = s.chip.jackSt j)) ∧
    (∀ (j : Fin 2) (code : BitVec 10), s.chip.buttonsOn j = true →
      ∃ c, exec (.jackButtonSample j code) s = .next (s.chipTo c) ∧ c.rdf (Reg.JACK_STAT j) 25 16 = code.toNat ∧
        sameBut [Reg.JACK_STAT j] s.chip c ∧
        (code.toNat ≤ s.chip.rdf Reg.JACK_BTN0 9 0 → (c.jackSt j).code = 1) ∧
        (s.chip.rdf Reg.JACK_BTN1 25 16 < code.toNat → code.toNat < s.chip.rdf Reg.JACK_THR1 9 0 →
          s.chip.rdf Reg.JACK_BTN0 9 0 < code.toNat → s.chip.rdf Reg.JACK_BTN0 25 16 < code.toNat →
          s.chip.rdf Reg.JACK_BTN1 9 0 < code.toNat → c.jackSt j = s.chip.jackSt j)) ∧
    (∀ (j : Fin 2) (k : Nat), s.chip.buttonsOn j = true → k < 4 → (s.chip.jackSt j).code = k + 1 →
      s.chip.rdf (Reg.JACK_STAT j) 7 4 = 0 → s.chip.jack.evts.length < 16 →
      ∃ c, exec (.jackButtonDebounce j) s = .next (s.chipTo c) ∧ c.rdf (Reg.JACK_STAT j) 7 4 = 2 ^ k ∧
        raises pgJACK 3 s.chip c ∧
        c.jack.evts = s.chip.jack.evts ++ [{ info := word (k + 48 + j.val * 256), time := (s.chip.jackSt j).first }]) ∧
    (s.chip.jack.evts = [] → ∃ c, exec .jackEventPop s = .next (s.chipTo c) ∧ c.rdata = 0 ∧ c.regs = s.chip.regs ∧
      c.jack = s.chip.jack) ∧
    (∀ (e : JackEvent) (t : List JackEvent), s.chip.jack.evts = e :: t →
      ∃ c, exec .jackEventPop s = .next (s.chipTo c) ∧ c.jack.evts = t ∧ c.rd Reg.JACK_EVT_TIME = e.time ∧
        bit c.rdata 31 = true ∧ bit c.rdata 30 = s.chip.jack.ovf ∧ fld c.rdata 8 0 = fld e.info 8 0 ∧ c.jack.ovf = false ∧
        sameBut [Reg.JACK_EVT_TIME] s.chip c) ∧
    (∀ code : BitVec 10, s.chip.rdb Reg.JACK_RAWCFG 0 = true → s.chip.en pgJACK = true →
      ∃ c, exec (.jackRawSample code) s = .next (s.chipTo c) ∧ c = { s.chip with jack := c.jack } ∧
        c.jack.raws = if s.chip.jack.raws.length < 16 then s.chip.jack.raws ++ [code.toNat] else s.chip.jack.raws) ∧
    (s.chip.jack.raws = [] → ∃ c, exec .jackRawPop s = .next (s.chipTo c) ∧ c.rdata = 0 ∧ c.jack = s.chip.jack) ∧
    (∀ (r : Nat) (t : List Nat), s.chip.jack.raws = r :: t →
      ∃ c, exec .jackRawPop s = .next (s.chipTo c) ∧ c.jack.raws = t ∧ c.rdata = setBit (word r) 31 true ∧
        c.regs = s.chip.regs)

/-- R364, R367 to R369, R371 to R374 and R376. -/
def Obligations.AsterSelectsAndHolds : Prop :=
  ∀ (s : State) (r : Fin 12),
    (s.chip.refEn r = true → s.chip.refFed r = true → ∃ c, exec (.referenceActive r) s = .next (s.chipTo c) ∧ c.refActive r = true ∧
      sameBut [Reg.ASTER_QSTAT] s.chip c ∧ ∀ m, m < 12 → c.refQual m = s.chip.refQual m) ∧
    (s.chip.refEn r = false ∨ s.chip.refFed r = false → exec (.referenceActive r) s = .next s) ∧
    (r.val = 7 → s.chip.refEn 7 = true → exec (.refInactive r) s = .next s) ∧
    (∀ r0, steadyOn r0 s.chip → r.val ≠ r0 → (r.val = 7 → s.chip.refEn 7 = false) →
      ∃ c, exec (.refInactive r) s = .next (s.chipTo c) ∧ c.refActive r = false ∧ c.refQual r = false ∧
        c.aster.sel = some r0 ∧ (s.chip.refQual r = true → raises pgASTER 5 s.chip c) ∧
        sameBut [Reg.ASTER_QSTAT, Reg.IRQ_RAW pgASTER] s.chip c) ∧
    (s.chip.aster.recal = false → s.chip.rdb Reg.ASTER_REFSEL 8 = false → s.chip.aster.sel = some r.val →
      (∀ m, m < 12 → m ≠ r.val → s.chip.refQual m = false) →
      ∀ (i : Instr) (h : List Int), h = (s.chip.aster.history.drop (s.chip.twoIvs r)).take s.chip.hoAvg →
      (i = .refInactive r ∧ (r.val = 7 → s.chip.refEn 7 = false) ∨
        i = .dcoRail true ∧ s.chip.asterRail = false ∧ 1 ≤ s.chip.asterState ∧ s.chip.asterState ≤ 3 ∧
          s.chip.aster.build = false) →
      ∃ c, exec i s = .next (s.chipTo c) ∧ c.aster.sel = none ∧ c.rdf Reg.ASTER_STATE 11 8 = 0xF ∧ c.aster.build = false ∧
        (i = .dcoRail true → c.rdb (Reg.IRQ_RAW pgASTER) 10 = true) ∧
        c.asterState = (if s.chip.asterState = 1 ∨ h.length < 100 then 0 else 4) ∧
        (c.asterState = 4 → c.rd Reg.ASTER_HO_FREQ = c.rd Reg.ASTER_FOFS ∧
          ((c.rd Reg.ASTER_FOFS).toInt - clampInt (-200000) 200000 (meanOffset h)).natAbs ≤ 10) ∧
        c.rdb Reg.ASTER_HIST c.asterState = true ∧ c.rdb (Reg.IRQ_RAW pgASTER) c.asterState = true) ∧
    (∀ i : Instr, i = .wtrExpiry r ∨ i = .restoreNow → (∃ r0, steadyOn r0 s.chip) →
      ∃ c, exec i s = .next (s.chipTo c) ∧ c = { s.chip with aster := { s.chip.aster with wtr := c.aster.wtr } }) ∧
    (∀ r0, s.chip.rdb Reg.ASTER_REFSEL 8 = false → s.chip.aster.recal = false → s.chip.aster.build = false →
      s.chip.asterRail = false → s.chip.aster.sel = some r0 → s.chip.refQual r0 = true → s.chip.refQual r = true →
      s.chip.refRank r < s.chip.refRank r0 → s.chip.aster.wtr.any (fun e => e.1 == r.val) = true →
      (∀ m, m < 12 → m ≠ r.val → s.chip.refQual m = true → s.chip.refRank r0 ≤ s.chip.refRank m) →
      ∀ i : Instr, i = .wtrExpiry r ∨ i = .restoreNow →
      ∃ c, exec i s = .next (s.chipTo c) ∧ c.aster.sel = some r.val ∧ c.aster.build = true ∧
        c.rdb Reg.ASTER_STATE 3 = true ∧ c.rdf Reg.ASTER_STATE 11 8 = r.val ∧
        c.asterState = (if s.chip.asterState ≤ 1 then 1 else 3) ∧
        sameBut [Reg.ASTER_STATE, Reg.ASTER_HIST, Reg.IRQ_RAW pgASTER] s.chip c) ∧
    (∀ (m : AsterMeas) (k : Option Nat) (e : Int), k = m.ref.map (·.val) → e = s.chip.phaseError r m.phErr →
      steadyOn r s.chip → m.offsets = [] → (s.chip.asterState = 1 ∨ s.chip.asterState = 3) →
      s.chip.aster.build = false → s.chip.refEn 10 = false → s.chip.freeze pgASTER = false →
      s.chip.ivOf k r = true →
      (s.chip.ivFast k = true → 100 ≤ s.chip.slewRate ∧
        (s.chip.rd Reg.ASTER_FOFS).toInt.natAbs + s.chip.slewRate / 100 < 200000) →
      e.natAbs ≤ s.chip.rdf Reg.ASTER_LOCK 15 0 →
      ∃ c, exec (.asterInterval m) s = .next (s.chipTo c) ∧ c.rd Reg.ASTER_PHERR = BitVec.ofInt 32 e ∧
        (r.val ≠ 7 → r.val ≠ 10 → e = m.phErr.toInt) ∧ c.aster.sel = some r.val ∧
        ((c.rd Reg.ASTER_FOFS).toInt - (s.chip.rd Reg.ASTER_FOFS).toInt).natAbs ≤ s.chip.slewRate / 100 ∧
        (max 1 (s.chip.rdf Reg.ASTER_LOCK 23 16) ≤ s.chip.aster.locks + 1 → c.asterState = 2 ∧
          c.rdb Reg.ASTER_HIST 2 = true ∧ c.rdb (Reg.IRQ_RAW pgASTER) 2 = true) ∧
        (s.chip.aster.locks + 1 < max 1 (s.chip.rdf Reg.ASTER_LOCK 23 16) → c.asterState = s.chip.asterState ∧
          c.aster.locks = s.chip.aster.locks + 1)) ∧
    (s.chip.aster.build = false → exec .buildoutDone s = .next s) ∧
    (steadyOn r s.chip → s.chip.aster.build = true →
      ∃ c, exec .buildoutDone s = .next (s.chipTo c) ∧ c.aster.build = false ∧ c.rdb Reg.ASTER_STATE 3 = false ∧
        c.asterState = s.chip.asterState ∧ c.aster.sel = some r.val ∧ sameBut [Reg.ASTER_STATE] s.chip c)

/-- R364, R378, R379 and R383. -/
def Obligations.AsterCommandsAndFrameOutput : Prop :=
  ∀ s : State,
    (s.chip.asterState = 0 ∨ s.chip.asterState = 4 →
      ∃ c, exec .recal s = .next (s.chipTo c) ∧ c = { s.chip with aster := { s.chip.aster with recal := true } }) ∧
    (s.chip.asterState ≠ 0 → s.chip.asterState ≠ 4 →
      ∃ c, exec .recal s = .next (s.chipTo c) ∧ c = { s.chip with regs := c.regs } ∧ errs pgASTER 0x01 0 s.chip c ∧
        sameBut (errRegs pgASTER) s.chip c) ∧
    (s.chip.aster.recal = true → s.chip.aster.sel = none → (∀ m, m < 12 → s.chip.refQual m = false) →
      ∃ c, exec .recalDone s = .next (s.chipTo c) ∧ c.rdb (Reg.IRQ_RAW pgASTER) 9 = true ∧ c.asterState = s.chip.asterState ∧
        c.asterRail = decide ((c.rd Reg.ASTER_FOFS).toInt.natAbs = 200000) ∧
        sameBut [Reg.ASTER_FOFS, Reg.ASTER_STATE, Reg.IRQ_RAW pgASTER] s.chip c ∧
        c = { s.chip with
          regs := c.regs, aster := { s.chip.aster with recal := false }, freeCtr := s.chip.freeCtr + 1 }) ∧
    (s.chip.aster.recal = true → ∃ c, exec .recalDone s = .next (s.chipTo c) ∧ c.aster.recal = false ∧
      c.rdb (Reg.IRQ_RAW pgASTER) 9 = true ∧ c.tick = s.chip.tick ∧ c.tb = s.chip.tb) ∧
    (s.chip.aster.recal = false → exec .recalDone s = .next s) ∧
    (∀ b : Bool, ∃ c, exec (.apllUnlock b) s = .next (s.chipTo c) ∧
      c.rdb Reg.ASTER_STATE (if b then 25 else 24) = false ∧ c.asterState = s.chip.asterState ∧
      c.rdb Reg.ASTER_HIST 9 = true ∧ raises pgASTER 7 s.chip c ∧
      sameBut [Reg.ASTER_STATE, Reg.ASTER_HIST, Reg.IRQ_RAW pgASTER] s.chip c ∧ c = { s.chip with regs := c.regs }) ∧
    (∀ b, s.chip.asterRail = b ∨ (s.chip.following = false ∧ ¬(s.chip.asterState = 0 ∧ b = false)) →
      exec (.dcoRail b) s = .next s) ∧
    (∀ r c0, c0 = s.chip.wrb Reg.ASTER_STATE 4 false → steadyOn r c0 → s.chip.asterRail = true →
      s.chip.following = true ∨ s.chip.asterState = 0 →
      ∃ c, exec (.dcoRail false) s = .next (s.chipTo c) ∧ c.asterRail = false ∧ c.aster.sel = some r ∧
        (c.rd Reg.ASTER_FOFS).toInt.natAbs < 200000 ∧
        c.asterState = s.chip.asterState ∧ sameBut [Reg.ASTER_STATE, Reg.ASTER_FOFS] s.chip c) ∧
    (∀ t0 t : Word, t = s.chip.frameTime t0 → s.chip.aster.missed = false → 0 ≤ (s.chip.rd Reg.ASTER_FRAME_OFS).toInt →
      (s.chip.rd Reg.ASTER_FRAME_OFS).toInt ≤ 500000 →
      ∃ c, exec (.frameSourcePulse t0) s = .next (s.chipTo c) ∧ c.aster.due = some (t + s.chip.rd Reg.ASTER_FRAME_OFS) ∧
        c.rdb Reg.FRAME_STAT 0 = true ∧ c.rdb Reg.FRAME_STAT 1 = false ∧ sameBut [Reg.FRAME_STAT] s.chip c) ∧
    (s.chip.aster.due = none → exec .frameOutPulse s = .next s) ∧
    (∀ t : Word, s.chip.aster.due = some t →
      ∃ c, exec .frameOutPulse s = .next (s.chipTo c) ∧
        c = { s.chip with
          aster := { s.chip.aster with due := none, frameT := t }, clk := { s.chip.clk with frame := c.clk.frame },
          tick := { s.chip.tick with named := c.tick.named } } ∧
        (s.chip.rdb Reg.FRAME_CFG 0 = false → c.clk.frame = 0) ∧
        (s.chip.rdb Reg.FRAME_CFG 0 = true → c.clk.frame = max 1 (s.chip.rdf Reg.FRAME_CFG 15 8) * 1000) ∧
        c.tick.named = (if s.chip.tick.on = true ∧ s.chip.tickRuns = false ∧ s.chip.rdf Reg.TICK_CFG 9 8 = 2 ∧
          s.chip.tick.named = none then some s.chip.tb.short else s.chip.tick.named)) ∧
    (∃ c, exec .frameMiss s = .next (s.chipTo c) ∧ c.aster.due = none ∧ c.aster.missed = true ∧ raises pgASTER 8 s.chip c ∧
      c.rdb Reg.FRAME_STAT 0 = false ∧ sameBut [Reg.FRAME_STAT, Reg.IRQ_RAW pgASTER] s.chip c)

/-- R406, R409 to R414, R416, R418 and R419. -/
def Obligations.LanesFollowTheirSignal : Prop :=
  ∀ (s : State) (n : Fin 10),
    (s.chip.en (pgLANE n) = false → ((s.chip.rdb (Reg.LANE_CFG n) 5 = true → 4 ≤ n.val ∧ n.val ≤ 7) ∧
        s.chip.mgldRefuses n = false) →
      ∃ c, exec (.laneEnable n) s = .next (s.chipTo c) ∧ c.en (pgLANE n) = true ∧
        (s.chip.rdb (Reg.LANE_CFG n) 1 = true → c.rdb (Reg.LANE_STAT n) 6 = false) ∧
        (s.chip.rdb (Reg.LANE_CFG n) 2 = true → s.chip.rdb (Reg.LANE_STAT n) 3 = false → c.laneState n = 3) ∧
        (s.chip.rdb (Reg.LANE_CFG n) 2 = true → s.chip.rdb (Reg.LANE_STAT n) 3 = true → c.laneState n = 2) ∧
        (s.chip.rdb (Reg.LANE_CFG n) 2 = false → c.laneState n = s.chip.laneState n) ∧
        laneOnly n (Reg.CTRL (pgLANE n) :: laneRegs n) s.chip c) ∧
    (s.chip.en (pgLANE n) = false → (s.chip.rdb (Reg.LANE_CFG n) 5 = true ∧ (n.val < 4 ∨ 7 < n.val) ∨
        s.chip.mgldRefuses n = true) →
      ∃ c, exec (.laneEnable n) s = .next (s.chipTo c) ∧ c.en (pgLANE n) = false ∧ errs (pgLANE n) 0x02 0 s.chip c ∧
        laneOnly n (errRegs (pgLANE n)) s.chip c) ∧
    (s.chip.en (pgLANE n) = true → exec (.laneEnable n) s = .next s) ∧
    (2 ≤ s.chip.pstate → exec (.losAssert n) s = .next s) ∧
    (s.chip.pstate < 2 → ∃ c, exec (.losAssert n) s = .next (s.chipTo c) ∧ c.rdb (Reg.LANE_STAT n) 3 = true ∧
      (s.chip.laneState n = 5 → s.chip.fastIdle n = true → laneLoses n 1 3 6 s.chip c ∧ (c.lane n).kept = true) ∧
      (3 ≤ s.chip.laneState n → (s.chip.laneState n ≠ 5 ∨ s.chip.fastIdle n = false) → laneLoses n 2 0 0 s.chip c) ∧
      (s.chip.laneState n < 3 → c.laneState n = s.chip.laneState n ∧
        laneOnly n (Reg.LANE_STAT n :: stemRegs n) s.chip c)) ∧
    (∃ c, exec (.losClear n) s = .next (s.chipTo c) ∧ c.rdb (Reg.LANE_STAT n) 3 = false ∧
      c.laneState n = (if s.chip.laneState n = 1 ∨ s.chip.laneState n = 2 then 3 else s.chip.laneState n) ∧
      laneOnly n (Reg.LANE_STAT n :: stemRegs n) s.chip c) ∧
    (∀ f : Word, ∃ c, exec (.cdrLock n f) s = .next (s.chipTo c) ∧
      (s.chip.laneState n = 3 → f.toInt.natAbs ≤ 30000 →
        c.laneState n = 4 ∧ c.rd (Reg.LANE_FREQ n) = f ∧ (c.lane n).run = 0) ∧
      (s.chip.laneState n ≠ 3 ∨ 30000 < f.toInt.natAbs → c.laneState n = s.chip.laneState n ∧ c.lane n = s.chip.lane n) ∧
      laneOnly n ([Reg.LANE_STAT n, Reg.LANE_FREQ n] ++ stemRegs n) s.chip c) ∧
    (∃ c, exec (.cdrLoss n) s = .next (s.chipTo c) ∧ (4 ≤ s.chip.laneState n → laneLoses n 3 1 1 s.chip c) ∧
      (s.chip.laneState n < 4 → laneOnly n (stemRegs n) s.chip c)) ∧
    (∃ c, exec (.relock n) s = .next (s.chipTo c) ∧ (s.chip.laneState n = 5 → laneLoses n 4 2 3 s.chip c) ∧
      (s.chip.laneState n = 4 → c.laneState n = 4 ∧ (c.lane n).run = 0 ∧ laneOnly n (stemRegs n) s.chip c) ∧
      (s.chip.laneState n < 4 → c.lane n = s.chip.lane n ∧ laneOnly n (stemRegs n) s.chip c)) ∧
    (∀ (hdr h : BitVec 2) (payload p : BitVec 64),
      h = (if s.chip.rdb (Reg.LANE_CFG n) 4 then ~~~hdr else hdr) →
      p = (if s.chip.rdb (Reg.LANE_CFG n) 4 then ~~~payload else payload) →
      ∃ c, exec (.laneBlockReceived n hdr payload) s = .next (s.chipTo c) ∧ laneOnly n (laneRegs n) s.chip c ∧
        (s.chip.laneState n < 4 → c.lane n = s.chip.lane n ∧ c.laneState n = s.chip.laneState n) ∧
        (s.chip.laneState n = 4 → h = 0 ∨ h = 3 → c.laneState n = 4 ∧ (c.lane n).run = 0 ∧
          (c.lane n).align = ((s.chip.lane n).align + 1) % 66) ∧
        (4 ≤ s.chip.laneState n → h = 0 ∨ h = 3 → s.chip.freeze (pgLANE n) = false →
          c.rd (Reg.LANE_HDRERR n) = satInc (s.chip.rd (Reg.LANE_HDRERR n))) ∧
        (s.chip.laneState n = 4 → h = 1 ∨ h = 2 → (s.chip.lane n).run + 1 < 64 → c.laneState n = 4 ∧
          (c.lane n).run = (s.chip.lane n).run + 1) ∧
        (s.chip.laneState n = 4 → h = 1 ∨ h = 2 → 64 ≤ (s.chip.lane n).run + 1 → c.laneState n = 5 ∧ (c.lane n).win = [] ∧
          c.rd (Reg.LANE_LOCKTIME n) = word (min (s.chip.now64 - (s.chip.lane n).cdrAt) 0xFFFF) ∧
          c.rdb (Reg.IRQ_RAW (pgLANE n)) 2 = true) ∧
        (s.chip.laneState n = 5 → ∀ w, w = ((h == 0 || h == 3) :: (s.chip.lane n).win).take 64 →
          (16 ≤ (w.filter id).length → laneLoses n 4 2 3 s.chip c ∧ (c.lane n).got = (s.chip.lane n).got) ∧
          ((w.filter id).length < 16 → c.laneState n = 5 ∧ (c.lane n).win = w ∧
            (s.chip.freeze (pgLANE n) = false → c.rd (Reg.LANE_WINERR n) = word (w.filter id).length) ∧
            ∃ q, (c.lane n).got = some (h, q) ∧ ∀ i, i < 64 → q.getLsbD i = descrambled (s.chip.lane n).scr p i)))

/-- R415 to R417, R421 to R425 and R495. -/
def Obligations.LaneIdleAndIrisScans : Prop :=
  ∀ s : State,
    (∀ n : Fin 10,
      ((s.chip.autoIdle n = true ∨ s.chip.fastIdle n = false ∨ s.chip.rdb (Reg.LANE_CFG n) 1 = false) →
        ∃ c, exec (.idleEnter n) s = .next (s.chipTo c) ∧ errs (pgLANE n) 0x03 0 s.chip c ∧
          laneOnly n (errRegs (pgLANE n)) s.chip c ∧ c.lane n = s.chip.lane n) ∧
      (s.chip.autoIdle n = false → s.chip.fastIdle n = true → s.chip.rdb (Reg.LANE_CFG n) 1 = true →
        s.chip.en (pgLANE n) = true → (s.chip.lane n).fast = false →
        ∃ c, exec (.idleEnter n) s = .next (s.chipTo c) ∧
          ((s.chip.lane n).burst = true → c.lane n = { s.chip.lane n with want := true } ∧ laneOnly n [] s.chip c) ∧
          ((s.chip.lane n).burst = false → c.lane n = { s.chip.lane n with fast := true, want := false } ∧
            c.rdb (Reg.LANE_STAT n) 6 = true ∧ raises (pgLANE n) 4 s.chip c ∧ c.laneState n = s.chip.laneState n ∧
            laneOnly n [Reg.LANE_STAT n, Reg.IRQ_RAW (pgLANE n)] s.chip c)) ∧
      (s.chip.autoIdle n = true ∨ (s.chip.lane n).fast = false →
        ∃ c, exec (.idleExit n) s = .next (s.chipTo c) ∧ errs (pgLANE n) 0x03 0 s.chip c ∧
          laneOnly n (errRegs (pgLANE n)) s.chip c ∧ c.lane n = s.chip.lane n) ∧
      (s.chip.autoIdle n = false → (s.chip.lane n).fast = true →
        ∃ c, exec (.idleExit n) s = .next (s.chipTo c) ∧ c.lane n = { s.chip.lane n with fast := false, burst := true } ∧
          c.rdb (Reg.LANE_STAT n) 6 = false ∧ c.laneState n = s.chip.laneState n ∧
          laneOnly n [Reg.LANE_STAT n] s.chip c) ∧
      ((s.chip.lane n).burst = true → (s.chip.lane n).want = false →
        ∃ c, exec (.trainingBurstEnd n) s = .next (s.chipTo c) ∧ c.lane n = { s.chip.lane n with burst := false } ∧
          raises (pgLANE n) 5 s.chip c ∧ laneOnly n [Reg.IRQ_RAW (pgLANE n)] s.chip c) ∧
      ((s.chip.lane n).burst = true → (s.chip.lane n).want = true →
        ∃ c, exec (.trainingBurstEnd n) s = .next (s.chipTo c) ∧
          c.lane n = { s.chip.lane n with fast := true, burst := false, want := false } ∧
          c.rdb (Reg.IRQ_RAW (pgLANE n)) 4 = true ∧ c.rdb (Reg.IRQ_RAW (pgLANE n)) 5 = true ∧
          c.rdb (Reg.LANE_STAT n) 6 = true ∧ laneOnly n [Reg.LANE_STAT n, Reg.IRQ_RAW (pgLANE n)] s.chip c) ∧
      (s.chip.laneState n = 1 →
        ∃ c, exec (.rxIdleTimeout n) s = .next (s.chipTo c) ∧ c.lane n = { s.chip.lane n with kept := false } ∧
          laneOnly n [] s.chip c)) ∧
    (∃ c, exec .irisStart s = .next (s.chipTo c) ∧
      (s.chip.irisRuns = true → errs pgIRIS 0x01 0 s.chip c) ∧
      (s.chip.irisRuns = false → s.chip.irisInvalid = true → errs pgIRIS 0x02 0 s.chip c) ∧
      (s.chip.irisRuns = false → s.chip.irisInvalid = false → s.chip.laneState s.chip.irisLane < 4 →
        errs pgIRIS 0x04 (word s.chip.irisLane) s.chip c) ∧
      (s.chip.irisRuns = true ∨ s.chip.irisInvalid = true ∨ s.chip.laneState s.chip.irisLane < 4 →
        sameBut (errRegs pgIRIS) s.chip c ∧ c = { s.chip with regs := c.regs }) ∧
      (s.chip.irisRuns = false → s.chip.irisInvalid = false → 4 ≤ s.chip.laneState s.chip.irisLane →
        c.iris = [] ∧ c.irisRuns = true ∧ c.rd Reg.IRIS_STAT = 1 ∧ sameBut [Reg.IRIS_STAT] s.chip c ∧
          c = { s.chip with regs := c.regs, iris := [] })) ∧
    (s.chip.irisRuns = false → exec .irisAbort s = .next s) ∧
    (s.chip.irisRuns = true →
      ∃ c, exec .irisAbort s = .next (s.chipTo c) ∧ c.irisRuns = false ∧ raises pgIRIS 1 s.chip c ∧
        sameBut [Reg.IRIS_STAT, Reg.IRQ_RAW pgIRIS] s.chip c ∧ c = { s.chip with regs := c.regs }) ∧
    (∀ e : Nat, s.chip.irisRuns = false ∨ 256 ≤ s.chip.iris.length → exec (.irisPointDone e) s = .next s) ∧
    (∀ e : Nat, s.chip.irisRuns = true → s.chip.iris.length < 256 → 0 < axisCount s.chip.irisV →
      ∃ c w, exec (.irisPointDone e) s = .next (s.chipTo c) ∧ c.iris = s.chip.iris ++ [w] ∧
        fld w 16 0 = min (min e (2 ^ s.chip.rdf Reg.IRIS_CFG 13 8)) 0x1_FFFF ∧ bit w 17 = true ∧
        (∀ x y : Nat, s.chip.rdf Reg.IRIS_STAT 31 16 = x * axisCount s.chip.irisV + y → y < axisCount s.chip.irisV →
          fld w 31 26 = (BitVec.ofInt 6 (s.chip.irisPh.1 + (x * s.chip.irisPh.2.2 : Nat))).toNat ∧
          fld w 25 18 = (BitVec.ofInt 8 (s.chip.irisV.1 + (y * s.chip.irisV.2.2 : Nat))).toNat) ∧
        c.rdf Reg.IRIS_STAT 31 16 = (s.chip.rdf Reg.IRIS_STAT 31 16 + 1) % 2 ^ 16 ∧
        (s.chip.rdf Reg.IRIS_STAT 31 16 + 1 < s.chip.irisPoints →
          c.irisRuns = true ∧ c.rd (Reg.IRQ_RAW pgIRIS) = s.chip.rd (Reg.IRQ_RAW pgIRIS) ∧
            c.rdb Reg.IRIS_STAT 2 = (s.chip.iris.length == 255)) ∧
        (s.chip.irisPoints ≤ s.chip.rdf Reg.IRIS_STAT 31 16 + 1 →
          c.irisRuns = false ∧ c.rdb Reg.IRIS_STAT 1 = true ∧ raises pgIRIS 0 s.chip c) ∧
        sameBut [Reg.IRIS_STAT, Reg.IRQ_RAW pgIRIS] s.chip c ∧ c = { s.chip with regs := c.regs, iris := c.iris }) ∧
    (s.chip.iris = [] → exec .irisBufPop s = .next (s.chipTo (s.chip.ret 0))) ∧
    (∀ w t, s.chip.iris = w :: t → ∃ c, exec .irisBufPop s = .next (s.chipTo c) ∧ c.rdata = w ∧ c.iris = t ∧
      c.rdb Reg.IRIS_STAT 2 = false ∧ sameBut [Reg.IRIS_STAT] s.chip c ∧
      c = { s.chip with regs := c.regs, rdata := w, iris := t })

/-- R432, R434, R435, R437, R441, R442, R447 and R458. -/
def Obligations.EthernetRingsGatesAndPauses : Prop :=
  ∀ (s : State) (p : Fin 4),
    (∀ (tx : Bool) (k : Fin 16) (v : Word),
      (∀ w, w = (v ||| 1) &&& (if tx then 0x0017_0F01 else 0x0000_0F01) →
        (s.chip.ringEn p tx k = false → ∃ c, exec (.ringEnable p tx k v) s = .next (s.chipTo c) ∧
          c.rd (ringKey p tx k 0x08) = w ∧ c.ringEn p tx k = true ∧ c.ringHead p tx k = 0 ∧ c.ringTail p tx k = 0 ∧
          c.ringActive p tx k = true ∧
          c.ethSt p = (if tx then { s.chip.ethSt p with txq := (s.chip.ethSt p).txq.filter (fun f => f.ring != k.val) }
            else { s.chip.ethSt p with rxq := (s.chip.ethSt p).rxq.filter (fun f => f.ring != k.val) }) ∧
          ethOnly p [ringKey p tx k 0x08, ringKey p tx k 0x0C, ringKey p tx k 0x10, ringKey p tx k 0x14] s.chip c) ∧
        (s.chip.ringEn p tx k = true → s.chip.rd (ringKey p tx k 0x08) = w → exec (.ringEnable p tx k v) s = .next s) ∧
        (s.chip.ringEn p tx k = true → s.chip.rd (ringKey p tx k 0x08) ≠ w →
          ∃ c, exec (.ringEnable p tx k v) s = .next (s.chipTo c) ∧
            errs (pgETH p) 0x01 (ethInfo tx k (ringKey p tx k 0x08 % 0x1000)) s.chip c ∧
            ethOnly p (errRegs (pgETH p)) s.chip c)) ∧
      (s.chip.ringEn p tx k = true → exec (.ringDisable p tx k) s = .next s) ∧
      (s.chip.ringEn p tx k = false → (∀ f, (s.chip.ethSt p).sending = some f → f.ring ≠ k.val) →
        ∃ c, exec (.ringDisable p tx k) s = .next (s.chipTo c) ∧ c.ringActive p tx k = false ∧
          (∀ f ∈ (c.ethSt p).txq, tx = true → f.ring ≠ k.val) ∧ (∀ f ∈ (c.ethSt p).rxq, tx = false → f.ring ≠ k.val) ∧
          ethOnly p [ringKey p tx k 0x14] s.chip c) ∧
      (fld v 11 0 < s.chip.ringSize p tx k →
        ∃ c, exec (.ringTailWrite p tx k v) s = .next (s.chipTo c) ∧ c.ringTail p tx k = fld v 11 0 ∧
          (tx = false → fld v 11 0 ≠ s.chip.ringHead p tx k → c.rdb (ringKey p tx k 0x14) 1 = false) ∧
          c.ringActive p tx k = s.chip.ringActive p tx k ∧
          ethOnly p [ringKey p tx k 0x0C, ringKey p tx k 0x14] s.chip c) ∧
      (s.chip.ringSize p tx k ≤ fld v 11 0 →
        ∃ c, exec (.ringTailWrite p tx k v) s = .next (s.chipTo c) ∧
          errs (pgETH p) 0x02 (ethInfo tx k (ringKey p tx k 0x0C % 0x1000)) s.chip c ∧
          ethOnly p (errRegs (pgETH p)) s.chip c)) ∧
    (∀ lf rf : Bool, ∃ c, exec (.ethLinkChange p lf rf) s = .next (s.chipTo c) ∧
      (c.ethLink p = true ↔ s.chip.laneState p = 5 ∧ lf = false ∧ rf = false) ∧ c.rdb (Reg.ETH_STAT p) 1 = lf ∧
      c.rdb (Reg.ETH_STAT p) 2 = rf ∧
      (s.chip.ethLink p = false → c.ethLink p = true → raises (pgETH p) 0 s.chip c) ∧
      (s.chip.ethLink p = true → c.ethLink p = false → raises (pgETH p) 1 s.chip c) ∧
      (c.ethLink p = s.chip.ethLink p → c.rd (Reg.IRQ_RAW (pgETH p)) = s.chip.rd (Reg.IRQ_RAW (pgETH p))) ∧
      ethOnly p [Reg.ETH_STAT p, Reg.IRQ_RAW (pgETH p)] s.chip c) ∧
    (∀ len cycle base, len = s.chip.rdf (Reg.ETH_GCL_LEN p) 9 0 → cycle = (s.chip.rd (Reg.ETH_GCL_CYCLE p)).toNat →
      base = s.chip.rd (Reg.ETH_GCL_BASE p) →
      ((s.chip.ethSt p).armed.isSome = true → ∃ c, exec (.gclArm p) s = .next (s.chipTo c) ∧
        errs (pgETH p) 0x05 0 s.chip c ∧ ethOnly p (errRegs (pgETH p)) s.chip c ∧ c.ethSt p = s.chip.ethSt p) ∧
      ((s.chip.ethSt p).armed = none → (len < 1 ∨ 512 < len ∨ cycle < 1 ∨ 1000000000 < cycle) →
        ∃ c i, exec (.gclArm p) s = .next (s.chipTo c) ∧ errs (pgETH p) 0x02 i s.chip c ∧
          ethOnly p (errRegs (pgETH p)) s.chip c ∧ c.ethSt p = s.chip.ethSt p) ∧
      ((s.chip.ethSt p).armed = none → 1 ≤ len → len ≤ 512 → 1 ≤ cycle → cycle ≤ 1000000000 →
        ∃ c g j, exec (.gclArm p) s = .next (s.chipTo c) ∧ c.ethSt p = { s.chip.ethSt p with armed := some g } ∧
          g.len = len ∧ g.cycle = cycle ∧ g.start = base + word (j * cycle) ∧
          ((j = 0 ∧ (s.chip.now + 1000 - base).toInt ≤ 0) ∨
            (0 < j ∧ (g.start - (s.chip.now + 1000)).toNat < cycle)) ∧
          c.rdb (Reg.ETH_STAT p) 17 = true ∧ ethOnly p [Reg.ETH_STAT p] s.chip c)) ∧
    (∃ c, exec (.gclDisarm p) s = .next (s.chipTo c) ∧ c.ethSt p = { s.chip.ethSt p with armed := none } ∧
      c.rdb (Reg.ETH_STAT p) 17 = false ∧ ethOnly p [Reg.ETH_STAT p] s.chip c) ∧
    ((s.chip.ethSt p).armed = none → exec (.gclSwitch p) s = .next s) ∧
    (∀ g, (s.chip.ethSt p).armed = some g →
      ∃ c, exec (.gclSwitch p) s = .next (s.chipTo c) ∧
        c.ethSt p = { s.chip.ethSt p with armed := none, list := some g, entry := 0, entryAt := g.start } ∧
        c.gclOper p = 1 - s.chip.gclOper p ∧ c.rdb (Reg.ETH_STAT p) 17 = false ∧ raises (pgETH p) 5 s.chip c ∧
        ethOnly p [Reg.ETH_GCL_CFG p, Reg.ETH_STAT p, Reg.IRQ_RAW (pgETH p)] s.chip c) ∧
    ((s.chip.ethSt p).list = none → exec (.gateEntryAdvance p) s = .next s) ∧
    (∀ g x o, x = s.chip.ethSt p → x.list = some g → o = (x.entryAt - g.start).toNat + s.chip.gateInterval p x.entry →
      ∃ c y, exec (.gateEntryAdvance p) s = .next (s.chipTo c) ∧ y = c.ethSt p ∧
        (x.entry + 1 < g.len → o < g.cycle → y.entry = x.entry + 1 ∧ y.entryAt = g.start + word o ∧ y.list = some g) ∧
        (g.len ≤ x.entry + 1 ∨ g.cycle ≤ o → y.entry = 0 ∧ y.entryAt = g.start + word g.cycle ∧
          y.list = some { g with start := g.start + word g.cycle }) ∧
        ethOnly p [] s.chip c) ∧
    (∃ c, exec (.pauseExpiry p none) s = .next (s.chipTo c) ∧ c.rdb (Reg.ETH_STAT p) 3 = false ∧ c.pauseLeft p = 0 ∧
      ethOnly p [Reg.ETH_STAT p] s.chip c) ∧
    (∀ t : Fin 8, ∃ c, exec (.pauseExpiry p (some t)) s = .next (s.chipTo c) ∧ c.rdb (Reg.ETH_STAT p) (8 + t) = false ∧
      (∀ u, u < 32 → u ≠ 8 + t.val → c.rdb (Reg.ETH_STAT p) u = s.chip.rdb (Reg.ETH_STAT p) u) ∧
      c.ethSt p = s.chip.ethSt p ∧ ethOnly p [Reg.ETH_STAT p] s.chip c) ∧
    (∀ v : Word, (bit v 0 = false → exec (.ethStatsClr p v) s = .next s) ∧
      (bit v 0 = true → ∃ c, exec (.ethStatsClr p v) s = .next (s.chipTo c) ∧ c = { s.chip with regs := c.regs } ∧
        (∀ i, i < 9 → c.rd (Reg.ETH_TX_FRAMES p + 4 * i) = 0) ∧
        (∀ k, k < 16 → c.rd (Reg.ETH_TX_DROPS p k) = 0 ∧ c.rd (Reg.ETH_RX_DROPS p k) = 0) ∧
        ∀ a, (∀ i, i < 9 → a ≠ Reg.ETH_TX_FRAMES p + 4 * i) →
          (∀ k, k < 16 → a ≠ Reg.ETH_TX_DROPS p k ∧ a ≠ Reg.ETH_RX_DROPS p k) → c.rd a = s.chip.rd a))

/-- R434, R436, R438, R439, R443, R444, R446 to R448 and R450. -/
def Obligations.EthernetFramesMove : Prop :=
  ∀ (s : State) (p : Fin 4) (x : EthSt), x = s.chip.ethSt p → s.mem.wf = true → portFree (ethPort p) 0 s.chip →
    (∀ (k : Fin 16) (h a buf len : Nat) (ctl : Word), h = s.chip.ringHead p true k → a = s.chip.descAddr p true k h →
      buf = numAt s.mem a 5 → ctl = s.mem.word (a + 8) → len = fld ctl 13 0 →
      (s.chip.en (pgETH p) = false ∨ s.chip.ringEn p true k = false → exec (.txFrameFetch p k) s = .next s) ∧
      (s.chip.en (pgETH p) = true → s.chip.ringEn p true k = true → s.chip.idleReq (pgETH p) = false → x.txq = [] →
        x.sending = none → h < s.chip.ringSize p true k → s.chip.ringTail p true k < s.chip.ringSize p true k →
        s.chip.ringTail p true k ≠ h → inPacket a 16 →
        (len = 0 ∨ (bit ctl 16 = false ∧ bit ctl 17 = true) →
          ∃ c, exec (.txFrameFetch p k) s = .next (s.chipTo c) ∧ c.ringEn p true k = false ∧ raises (pgETH p) 6 s.chip c ∧
            errs (pgETH p) 0x04 (ethInfo true k 0) s.chip c ∧
            ethOnly p (ringKey p true k 0x08 :: Reg.MTX_TP_GRANTS 10 :: irqErrRegs (pgETH p)) s.chip c) ∧
        (0 < len → bit ctl 16 = true → bit ctl 17 = true → bit ctl 18 = false →
          len + 4 ≤ s.chip.rdf (Reg.ETH_MAXLEN p) 13 0 → inPacket buf len →
          (s.chip.ethLink p = true ∨ s.chip.rdb (Reg.ETH_CFG p) 10 = false) →
          ∃ c, exec (.txFrameFetch p k) s = .next (s.chipTo c) ∧
            c.ethSt p = { x with
              txq := [⟨k, [(h, bit ctl 19)], (List.range len).map (fun i => s.mem.get (buf + i)), none, false, false, true, 0⟩] } ∧
            ethOnly p [Reg.MTX_TP_GRANTS 10] s.chip c))) ∧
    (∀ (k : Fin 16) (f : EthTx) (t last : Nat), t = s.chip.ringTc p k → last = look 15 x.rr t →
      s.chip.lineIdle p = true → s.chip.ethLink p = true → x.strm = [] → (∀ g ∈ x.txq, g.dead = 0 ∧ g.launch = none) →
      x.head k = some f → s.chip.ringEligible p k = true →
      (∀ j, j < 16 → s.chip.ringEligible p j = true → s.chip.ringTc p j < t ∨
        (s.chip.ringTc p j = t ∧ (k.val + 15 * (last + 1)) % 16 ≤ (j + 15 * (last + 1)) % 16)) →
      ∃ c, exec (.txFrameStart p) s = .next (s.chipTo c) ∧
        c.ethSt p = { x with txq := (c.ethSt p).txq, sending := some { f with atHead := true }, rr := put x.rr t k,
                             sentAt := s.chip.now } ∧
        (c.ethSt p).txq.map (fun g => { g with atHead := false }) = (dropHead k x.txq).map (fun g => { g with atHead := false }) ∧
        ethOnly p [] s.chip c) ∧
    (x.txq = [] → x.strm = [] → exec (.txFrameStart p) s = .next s) ∧
    (∀ stamp : Word, x.sending = none → x.strmOut = none → exec (.txFrameDone p stamp) s = .next s) ∧
    (∀ k : Fin 16, x.head k = none → exec (.launchTime p k) s = .next s) ∧
    (∀ (f : EthTx) (h a : Nat) (irq : Bool) (stamp : Word), x.sending = some f → f.descs = [(h, irq)] → f.ring < 16 →
      x.txq = [] → x.waiting = [] → a = s.chip.descAddr p true f.ring h → inPacket (a + 16) 8 →
      ∃ d, exec (.txFrameDone p stamp) s = .next (s.devTo d) ∧
        numAt d.mem (a + 16) 4 = (if f.late then 0x8000_0003 else 0x8000_0001) ∧ numAt d.mem (a + 20) 4 = (stampOf x.sentAt stamp).toNat ∧
        sameOutside (a + 16) 8 s.mem d.mem ∧ d.chip.ringHead p true f.ring = (h + 1) % s.chip.ringSize p true f.ring ∧
        (irq = true → d.chip.rdb (Reg.ETH_RING_IRQ p) (16 + f.ring) = true) ∧
        (s.chip.freeze (pgETH p) = false → d.chip.rd (Reg.ETH_TX_FRAMES p) = satInc (s.chip.rd (Reg.ETH_TX_FRAMES p))) ∧
        d.chip.ethSt p = { x with sending := none, strmOut := none, waiting := [] } ∧
        ethOnly p [ringKey p true f.ring 0x10, Reg.ETH_RING_IRQ p, Reg.ETH_TX_FRAMES p, Reg.MTX_TP_GRANTS 10] s.chip d.chip) ∧
    (∀ (k : Fin 16) (f : EthTx) (l : Word), x.head k = some f → f.launch = some l → f.due = false → f.dead = 0 → s.chip.ethLink p = true →
      (s.chip.paused p (s.chip.ringTc p k) = false → s.chip.gatePermits p (s.chip.ringTc p k) f.len = true →
        (∀ g, x.sending = some g → g.launch = none) →
        ∃ c, exec (.launchTime p k) s = .next (s.chipTo c) ∧
          c.ethSt p = { x with txq := replaceHead k { f with due := true, atHead := true } x.txq } ∧ ethOnly p [] s.chip c) ∧
      (s.chip.paused p (s.chip.ringTc p k) = true → s.chip.rdb (Reg.ETH_TX_CFG p k) 20 = true →
        ∃ c, exec (.launchTime p k) s = .next (s.chipTo c) ∧ raises (pgETH p) 3 s.chip c ∧
          c.ethSt p = { x with txq := replaceHead k { f with due := true, late := true, atHead := true } x.txq } ∧
          (s.chip.freeze (pgETH p) = false → c.rd (Reg.ETH_TX_LATE p) = satInc (s.chip.rd (Reg.ETH_TX_LATE p))) ∧
          ethOnly p [Reg.ETH_TX_LATE p, Reg.IRQ_RAW (pgETH p)] s.chip c) ∧
      (∀ h irq a, s.chip.paused p (s.chip.ringTc p k) = true → s.chip.rdb (Reg.ETH_TX_CFG p k) 20 = false →
        x.txq = [f] → x.sending = none → f.descs = [(h, irq)] → a = s.chip.descAddr p true k h → inPacket (a + 16) 4 →
        ∃ d, exec (.launchTime p k) s = .next (s.devTo d) ∧ d.chip.ethSt p = { x with txq := [] } ∧
          numAt d.mem (a + 16) 4 = 0x8000_0006 ∧ sameOutside (a + 16) 4 s.mem d.mem ∧ raises (pgETH p) 3 s.chip d.chip ∧
          d.chip.ringHead p true k = (h + 1) % s.chip.ringSize p true k ∧
          ethOnly p [Reg.ETH_TX_LATE p, Reg.IRQ_RAW (pgETH p), ringKey p true k 0x10, Reg.ETH_RING_IRQ p,
            Reg.ETH_TX_DROPS p k, Reg.MTX_TP_GRANTS 10] s.chip d.chip)) ∧
    (∀ (f : List Byte) (ok : Bool) (stamp : Word), (p.val ≠ 0 ∨ s.chip.rdb Reg.ETH0_WAKE_CFG 0 = false) →
      (s.chip.en (pgETH p) = false ∨ s.chip.rdb (Reg.ETH_CFG p) 2 = false ∨ s.chip.laneState p ≠ 5 →
        exec (.ethFrameReceived p f ok stamp) s = .next s) ∧
      (s.chip.pstate < 2 → s.chip.laneState p = 5 → s.chip.en (pgETH p) = true → s.chip.rdb (Reg.ETH_CFG p) 2 = true →
        (∀ key, (f.length < 64 ∧ key = Reg.ETH_RX_RUNT p) ∨
            (64 ≤ f.length ∧ f.length ≤ s.chip.rdf (Reg.ETH_MAXLEN p) 13 0 ∧
              ((ok = false ∧ s.chip.rdb (Reg.ETH_CFG p) 7 = false ∧ key = Reg.ETH_RX_FCSERR p) ∨
                (ok = true ∧ x.rxBytes + f.length ≤ 32768 ∧ beAt f 12 2 ≠ 0x8808 ∧ s.chip.ethAccepts p f = false ∧
                  key = Reg.ETH_RX_ADDRDROP p))) →
          ∃ c, exec (.ethFrameReceived p f ok stamp) s = .next (s.chipTo c) ∧ raises (pgETH p) 2 s.chip c ∧
            (s.chip.freeze (pgETH p) = false → c.rd key = satInc (s.chip.rd key)) ∧ c.ethSt p = x ∧
            ethOnly p [key, Reg.IRQ_RAW (pgETH p)] s.chip c) ∧
        (64 ≤ f.length → f.length ≤ s.chip.rdf (Reg.ETH_MAXLEN p) 13 0 → ok = true → x.rxBytes + f.length ≤ 32768 →
          (beAt f 12 2 = 0x8808 → beAt f 14 2 = 1 → s.chip.rdb (Reg.ETH_CFG p) 8 = true → x.sending = none →
            x.strmOut = none →
            ∃ c, exec (.ethFrameReceived p f ok stamp) s = .next (s.chipTo c) ∧ c.pauseLeft p = beAt f 16 2 ∧
              c.rdb (Reg.ETH_STAT p) 3 = (beAt f 16 2 != 0) ∧ raises (pgETH p) 4 s.chip c ∧
              (s.chip.freeze (pgETH p) = false → c.rd (Reg.ETH_RX_CTRL p) = satInc (s.chip.rd (Reg.ETH_RX_CTRL p))) ∧
              ethOnly p [Reg.ETH_STAT p, Reg.ETH_RX_CTRL p, Reg.IRQ_RAW (pgETH p)] s.chip c) ∧
          (∀ k, k = s.chip.rxRing p f → beAt f 12 2 ≠ 0x8808 → s.chip.ethAccepts p f = true →
            s.chip.claimFrom p f 256 0 = none →
            (s.chip.ringEn p false k = false → ∃ c, exec (.ethFrameReceived p f ok stamp) s = .next (s.chipTo c) ∧
              raises (pgETH p) 2 s.chip c ∧ c.rdb (Reg.ETH_RING_IRQ p) k = true ∧ c.ethSt p = x ∧
              (s.chip.freeze (pgETH p) = false → c.rd (Reg.ETH_RX_DROPS p k) = satInc (s.chip.rd (Reg.ETH_RX_DROPS p k))) ∧
              ethOnly p [Reg.ETH_RX_DROPS p k, Reg.ETH_RING_IRQ p, Reg.IRQ_RAW (pgETH p)] s.chip c) ∧
            (s.chip.ringEn p false k = true → ∃ c e, exec (.ethFrameReceived p f ok stamp) s = .next (s.chipTo c) ∧
              c.ethSt p = { x with rxq := x.rxq ++ [e] } ∧ e.ring = k ∧ e.stamp = stamp ∧
              e.bytes = (if s.chip.rdb (Reg.ETH_CFG p) 6 then f.take (f.length - 4) else f) ∧ fld e.flags 22 0 = 0 ∧
              bit e.flags 23 = (beAt f 12 2 == 0x8100) ∧
              (beAt f 12 2 = 0x8100 → fld e.flags 26 24 = beAt f 14 1 / 32) ∧ ethOnly p [] s.chip c))))) ∧
    (∀ (f : List Byte) (stamp : Word), s.chip.pstate = 0 → s.chip.pwr.entry = none → s.chip.laneState 0 = 5 →
      s.chip.en (pgETH 0) = false →
      s.chip.ethAccepts 0 f = true → s.chip.wakeFound f ≠ 0 →
      ∃ c, exec (.ethFrameReceived 0 f true stamp) s = .next (s.chipTo c) ∧
        c.rd Reg.ETH0_WAKE_STAT = s.chip.rd Reg.ETH0_WAKE_STAT ||| s.chip.wakeFound f ∧ raises (pgETH 0) 7 s.chip c ∧
        ethOnly 0 [Reg.ETH0_WAKE_STAT, Reg.IRQ_RAW (pgETH 0)] s.chip c) ∧
    (x.rxq = [] → exec (.rxFramePlace p) s = .next s) ∧
    (∀ (f : EthRx) (t : List EthRx) (h a buf : Nat) (ctl : Word), x.rxq = f :: t → s.chip.idleReq (pgETH p) = false →
      f.ring < 16 → h = s.chip.ringHead p false f.ring → a = s.chip.descAddr p false f.ring h → buf = numAt s.mem a 5 →
      ctl = s.mem.word (a + 8) → h < s.chip.ringSize p false f.ring →
      s.chip.ringTail p false f.ring < s.chip.ringSize p false f.ring →
      (s.chip.ringEn p false f.ring = false ∨ s.chip.ringTail p false f.ring = h →
        ∃ c, exec (.rxFramePlace p) s = .next (s.chipTo c) ∧ c.ethSt p = { x with rxq := t } ∧ raises (pgETH p) 2 s.chip c ∧
          c.rdb (Reg.ETH_RING_IRQ p) f.ring = true ∧
          (s.chip.ringEn p false f.ring = true → c.rdb (ringKey p false f.ring 0x14) 1 = true) ∧
          (s.chip.freeze (pgETH p) = false →
            c.rd (Reg.ETH_RX_DROPS p f.ring) = satInc (s.chip.rd (Reg.ETH_RX_DROPS p f.ring))) ∧
          ethOnly p [Reg.ETH_RX_DROPS p f.ring, Reg.ETH_RING_IRQ p, ringKey p false f.ring 0x14, Reg.IRQ_RAW (pgETH p)]
            s.chip c) ∧
      (s.chip.ringEn p false f.ring = true → s.chip.ringTail p false f.ring ≠ h → inPacket a 24 →
        f.bytes.length ≤ fld ctl 13 0 → inPacket buf f.bytes.length → apart buf f.bytes.length a 24 →
        ∃ d, exec (.rxFramePlace p) s = .next (s.devTo d) ∧
          (∀ i, i < f.bytes.length → d.mem.get (buf + i) = byteAt f.bytes i) ∧
          numAt d.mem (a + 16) 4 = (f.flags ||| word f.bytes.length ||| 0x8003_0000).toNat ∧
          numAt d.mem (a + 20) 4 = f.stamp.toNat ∧
          (∀ i, (i < buf ∨ buf + f.bytes.length ≤ i) → (i < a + 16 ∨ a + 24 ≤ i) → d.mem.get i = s.mem.get i) ∧
          d.chip.ringHead p false f.ring = (h + 1) % s.chip.ringSize p false f.ring ∧
          (bit ctl 19 = true → d.chip.rdb (Reg.ETH_RING_IRQ p) f.ring = true) ∧
          (s.chip.freeze (pgETH p) = false → d.chip.rd (Reg.ETH_RX_FRAMES p) = satInc (s.chip.rd (Reg.ETH_RX_FRAMES p))) ∧
          d.chip.ethSt p = { x with rxq := t } ∧
          ethOnly p [ringKey p false f.ring 0x10, Reg.ETH_RING_IRQ p, Reg.ETH_RX_FRAMES p, Reg.MTX_TP_GRANTS 10]
            s.chip d.chip))

/-- R451 to R455, R459 and R460. -/
def Obligations.ControlBusFramesAndManagement : Prop :=
  ∀ (s : State) (x : Cb0St), x = s.chip.cb0 →
    (∀ (f : List Byte) (ok rxer : Bool) (stamp : Word),
      (s.chip.en pgCB0 = false ∨ s.chip.rdb Reg.CB0_CFG 1 = false →
        exec (.cb0FrameReceived f ok rxer stamp) s = .next s) ∧
      (s.chip.en pgCB0 = true → s.chip.rdb Reg.CB0_CFG 1 = true →
        (f.length < 64 ∨ 1522 < f.length ∨ ok = false ∨ rxer = true ∨ s.chip.cb0Accepts f = false ∨
            512 < x.rx.length + 2 + (f.length - 1) / 4 →
          ∃ c, exec (.cb0FrameReceived f ok rxer stamp) s = .next (s.chipTo c) ∧ raises pgCB0 2 s.chip c ∧
            (s.chip.freeze pgCB0 = false → c.rd Reg.CB0_RX_DROP = satInc (s.chip.rd Reg.CB0_RX_DROP)) ∧
            sameBut [Reg.CB0_RX_DROP, Reg.IRQ_RAW pgCB0] s.chip c ∧ c = { s.chip with regs := c.regs }) ∧
        (64 ≤ f.length → f.length ≤ 1522 → ok = true → rxer = false → s.chip.cb0Accepts f = true →
          x.rx.length + 2 + (f.length - 1) / 4 ≤ 512 →
          ∃ c r, exec (.cb0FrameReceived f ok rxer stamp) s = .next (s.chipTo c) ∧ c.cb0 = { x with rx := x.rx ++ r } ∧
            r.length = 2 + (f.length - 1) / 4 ∧ (∀ i e, r[i]? = some e → (e.2 = true ↔ i + 1 = r.length)) ∧
            (∃ e, r[0]? = some e ∧ fld e.1 10 0 = f.length - 4 ∧ bit e.1 31 = true) ∧ (∃ e, r[1]? = some (stamp, e)) ∧
            (∀ i, i < f.length - 4 → ∃ e, r[2 + i / 4]? = some e ∧ byteAt (wordBytes e.1) (i % 4) = byteAt f i) ∧
            raises pgCB0 0 s.chip c ∧
            (s.chip.freeze pgCB0 = false → c.rd Reg.CB0_RX_FRAMES = satInc (s.chip.rd Reg.CB0_RX_FRAMES)) ∧
            sameBut [Reg.CB0_RX_FRAMES, Reg.IRQ_RAW pgCB0] s.chip c ∧
            c = { s.chip with regs := c.regs, cb0 := c.cb0 }))) ∧
    (x.rx = [] → ∃ c, exec .cb0RxPop s = .next (s.chipTo c) ∧ c.rdata = 0 ∧ raises pgCB0 6 s.chip c ∧
      sameBut [Reg.IRQ_RAW pgCB0] s.chip c ∧ c = { s.chip with regs := c.regs, rdata := 0 }) ∧
    (∀ e t, x.rx = e :: t →
      exec .cb0RxPop s = .next (s.chipTo { s.chip with cb0 := { x with rx := t }, rdata := e.1 })) ∧
    (∀ v : Word,
      (s.chip.cb0Halted = true → exec (.cb0TxPush v) s = .next s) ∧
      (s.chip.cb0Halted = false →
        (512 ≤ x.tx.length ∨ (x.need = 0 ∧ (fld v 10 0 < 14 ∨ 1518 < fld v 10 0)) →
          ∃ c, exec (.cb0TxPush v) s = .next (s.chipTo c) ∧ c.cb0 = { x with tx := [], need := 0 } ∧ c.cb0Halted = true ∧
            raises pgCB0 6 s.chip c ∧ sameBut [Reg.CB0_STAT, Reg.IRQ_RAW pgCB0] s.chip c ∧
            c = { s.chip with regs := c.regs, cb0 := c.cb0 }) ∧
        (x.tx.length < 512 → x.need = 0 → 14 ≤ fld v 10 0 → fld v 10 0 ≤ 1518 →
          exec (.cb0TxPush v) s = .next (s.chipTo
            { s.chip with cb0 := { x with tx := x.tx ++ [v], need := (fld v 10 0 + 3) / 4 } })) ∧
        (x.tx.length < 512 → 0 < x.need →
          exec (.cb0TxPush v) s = .next (s.chipTo
            { s.chip with cb0 := { x with tx := x.tx ++ [v], need := x.need - 1 } }))) ∧
      (∃ c, exec (.cb0Txflush v) s = .next (s.chipTo c) ∧ c.cb0Halted = (s.chip.cb0Halted && !bit v 0) ∧
        sameBut [Reg.CB0_STAT] s.chip c ∧ c = { s.chip with regs := c.regs }) ∧
      (bit v 0 = false → exec (.cb0StatsClr v) s = .next s) ∧
      (bit v 0 = true → ∃ c, exec (.cb0StatsClr v) s = .next (s.chipTo c) ∧ c = { s.chip with regs := c.regs } ∧
        (∀ i, i < 6 → c.rd (Reg.CB0_TX_FRAMES + 4 * i) = 0) ∧
        ∀ k, (∀ i, i < 6 → k ≠ Reg.CB0_TX_FRAMES + 4 * i) → c.rd k = s.chip.rd k) ∧
      (s.chip.rdb Reg.CB0_MDIO_STAT 0 = true → exec (.mdioAccess v) s = .next s) ∧
      (s.chip.rdb Reg.CB0_MDIO_STAT 0 = false → ∃ c, exec (.mdioAccess v) s = .next (s.chipTo c) ∧
        c.rdb Reg.CB0_MDIO_STAT 0 = true ∧ c.rdf Reg.CB0_MDIO_CMD 10 0 = fld v 10 0 ∧
        c.rdf Reg.CB0_MDIO_CMD 31 16 = fld v 31 16 ∧ c.rdf Reg.CB0_MDIO_STAT 31 16 = s.chip.rdf Reg.CB0_MDIO_STAT 31 16 ∧
        sameBut [Reg.CB0_MDIO_CMD, Reg.CB0_MDIO_STAT] s.chip c ∧ c = { s.chip with regs := c.regs })) ∧
    (∀ data : BitVec 16, s.chip.rdb Reg.CB0_MDIO_STAT 0 = true →
      ∃ c, exec (.mdioDone data) s = .next (s.chipTo c) ∧ c.rdb Reg.CB0_MDIO_STAT 0 = false ∧
        c.rdf Reg.CB0_MDIO_STAT 31 16 =
          (if s.chip.rdb Reg.CB0_MDIO_CMD 10 then s.chip.rdf Reg.CB0_MDIO_STAT 31 16 else data.toNat) ∧
        sameBut [Reg.CB0_MDIO_STAT] s.chip c ∧ c = { s.chip with regs := c.regs }) ∧
    (s.chip.en pgCB0 = true → s.chip.rdb Reg.CB0_CFG 0 = true → s.chip.idleReq pgCB0 = false → x.onLine = false →
      x.backoff = none →
      (∀ f, x.frame = some f → exec .cb0TransmitStart s = .next (s.chipTo
        { s.chip with cb0 := { x with onLine := true, tries := x.tries + 1 } })) ∧
      (∀ h t n, x.frame = none → x.tx = h :: t → n = fld h 10 0 →
        (t.length < (n + 3) / 4 → exec .cb0TransmitStart s = .next s) ∧
        ((n + 3) / 4 ≤ t.length → ∃ f, exec .cb0TransmitStart s = .next (s.chipTo { s.chip with
            cb0 := { x with tx := t.drop ((n + 3) / 4), frame := some f, tries := 1, onLine := true } }) ∧
          f.length = max 60 n ∧ (∀ i, n ≤ i → byteAt f i = 0) ∧
          ∀ i w, i < n → t[i / 4]? = some w → byteAt f i = byteAt (wordBytes w) (i % 4)))) ∧
    (∀ stamp : Word, x.onLine = true → ∃ c, exec (.cb0TxDone stamp) s = .next (s.chipTo c) ∧
      c.cb0 = { x with frame := none, onLine := false, tries := 0, backoff := none } ∧ c.rd Reg.CB0_TXTIME = stamp ∧
      raises pgCB0 1 s.chip c ∧
      (s.chip.freeze pgCB0 = false → c.rd Reg.CB0_TX_FRAMES = satInc (s.chip.rd Reg.CB0_TX_FRAMES)) ∧
      sameBut [Reg.CB0_TXTIME, Reg.CB0_TX_FRAMES, Reg.IRQ_RAW pgCB0] s.chip c ∧
      c = { s.chip with regs := c.regs, cb0 := c.cb0 }) ∧
    (∀ bits r : Nat, x.onLine = true → ∃ c, exec (.cb0Collision bits r) s = .next (s.chipTo c) ∧
      (s.chip.freeze pgCB0 = false → c.rd Reg.CB0_COLL = satInc (s.chip.rd Reg.CB0_COLL)) ∧
      (512 < bits ∨ 16 ≤ x.tries →
        c.cb0 = { x with frame := none, onLine := false, tries := 0, backoff := none } ∧
        raises pgCB0 (if 512 < bits then 4 else 3) s.chip c ∧
        (s.chip.freeze pgCB0 = false → ∀ k, k = (if 512 < bits then Reg.CB0_LATE_COLL else Reg.CB0_EXCESS_COLL) →
          c.rd k = satInc (s.chip.rd k))) ∧
      (bits ≤ 512 → x.tries < 16 →
        c.cb0 = { x with onLine := false, backoff := some (r % 2 ^ min x.tries 10) } ∧
        c.rd (Reg.IRQ_RAW pgCB0) = s.chip.rd (Reg.IRQ_RAW pgCB0)) ∧
      sameBut [Reg.CB0_COLL, Reg.CB0_LATE_COLL, Reg.CB0_EXCESS_COLL, Reg.IRQ_RAW pgCB0] s.chip c ∧
      c = { s.chip with regs := c.regs, cb0 := c.cb0 }) ∧
    (∀ n, x.backoff = some n → exec .cb0BackoffExpiry s = .next (s.chipTo { s.chip with cb0 :=
      { x with backoff := none, onLine := true, tries := x.tries + 1 } })) ∧
    (∀ (stamp : Word) (bits r : Nat), x.onLine = false →
      exec (.cb0TxDone stamp) s = .next s ∧ exec (.cb0Collision bits r) s = .next s) ∧
    (x.backoff = none → exec .cb0BackoffExpiry s = .next s) ∧
    (∀ data : BitVec 16, s.chip.rdb Reg.CB0_MDIO_STAT 0 = false → exec (.mdioDone data) s = .next s) ∧
    (s.chip.en pgCB0 = false ∨ s.chip.rdb Reg.CB0_CFG 0 = false ∨ s.chip.idleReq pgCB0 = true ∨ x.onLine = true ∨
        x.backoff.isSome = true ∨ (x.frame = none ∧ x.tx = []) →
      exec .cb0TransmitStart s = .next s) ∧
    (∀ up b : Bool, b = (up && s.chip.en pgCB0 && s.chip.rdb Reg.CB0_CFG 3) →
      (s.chip.rdb Reg.CB0_STAT 0 = b → exec (.plcaStatusChange up) s = .next s) ∧
      (s.chip.rdb Reg.CB0_STAT 0 ≠ b → ∃ c, exec (.plcaStatusChange up) s = .next (s.chipTo c) ∧
        c.rdb Reg.CB0_STAT 0 = b ∧ c.cb0Halted = s.chip.cb0Halted ∧ raises pgCB0 5 s.chip c ∧
        sameBut [Reg.CB0_STAT, Reg.IRQ_RAW pgCB0] s.chip c ∧ c = { s.chip with regs := c.regs }))

/-- R461, R462, R466, R471 to R473 and R476 to R478. -/
def Obligations.StreamsEnableSendAndMerge : Prop :=
  ∀ s : State,
    (∀ (tx : Bool) (v w : Word) (t o nch rate : Nat), t = s.chip.rdf (if tx then Reg.STRM_TXSEL else Reg.STRM_RXSEL) 7 0 →
      o = strmCfg tx → w = v &&& (if tx then 0x003F_0FFF else 0x7F3F_7FFF) → nch = fld v 21 16 + 1 →
      rate = s.chip.rdf Reg.TICK_CFG 2 0 →
      (s.chip.sb t o 0 = true → bit v 0 = true → s.chip.srd t o = w → exec (.streamEnable tx v) s = .next s) ∧
      (s.chip.sb t o 0 = true → bit v 0 = true → s.chip.srd t o ≠ w →
        ∃ c, exec (.streamEnable tx v) s = .next (s.chipTo c) ∧ errs pgSTRM 0x01 (strmInfo tx t) s.chip c ∧
          sameBut (errRegs pgSTRM) s.chip c ∧ c = { s.chip with regs := c.regs }) ∧
      (s.chip.sb t o 0 = true → bit v 0 = false →
        ∃ c, exec (.streamEnable tx v) s = .next (s.chipTo c) ∧ c.sb t o 0 = false ∧
          (∀ p, p = (if tx then 0x094 else 0x138) → c.srd t p = s.chip.srd t p &&& 0xFFFF_0000 ∧
            strmOnly t [o, p] (errRegs pgSTRM) s.chip c) ∧
          (tx = true → c.strmTx t = strmTxReset) ∧ (setBit w 0 true = s.chip.srd t o → c.regs = s.chip.regs) ∧
          (setBit w 0 true ≠ s.chip.srd t o → errs pgSTRM 0x01 (strmInfo tx t) s.chip c) ∧
          c = { s.chip with regs := c.regs, strm := c.strm }) ∧
      (s.chip.sb t o 0 = false → bit v 0 = false →
        ∃ c, exec (.streamEnable tx v) s = .next (s.chipTo c) ∧ c.srd t o = w ∧ strmOnly t [o] [] s.chip c ∧
          c = { s.chip with strm := c.strm }) ∧
      (s.chip.sb t o 0 = false → bit v 0 = true →
        (2048 < s.chip.strmBase tx t + nch ∨ (bit v 4 = false ∧ bit v 5 = false) ∨
          (tx = false ∧ 0x6240_0000 < s.chip.strmBufAt t + nch * 2 ^ (fld v 14 12 + 6) * 4) ∨
          (tx = true ∧ ∃ b, bit v (4 + b2n b) = true ∧
            (1514 < s.chip.tmplLen t b + nch * (if bit v 3 then 3 else 2) * sppOf (fld v 2 1) rate ∨
              tmplUdp (s.dev.template t b) = none)) →
          ∃ c, exec (.streamEnable tx v) s = .next (s.chipTo c) ∧ c.srd t o = setBit w 0 false ∧
            errs pgSTRM 0x02 (strmInfo tx t) s.chip c ∧ strmOnly t [o] (errRegs pgSTRM) s.chip c ∧
            c = { s.chip with regs := c.regs, strm := c.strm }) ∧
        (s.chip.strmBase tx t + nch ≤ 2048 → (bit v 4 = true ∨ bit v 5 = true) →
          (tx = false → s.chip.strmBufAt t + nch * 2 ^ (fld v 14 12 + 6) * 4 ≤ 0x6240_0000) →
          (tx = true → ∀ b, bit v (4 + b2n b) = true →
            s.chip.tmplLen t b + nch * (if bit v 3 then 3 else 2) * sppOf (fld v 2 1) rate ≤ 1514 ∧
              (tmplUdp (s.dev.template t b)).isSome = true) →
          ∃ c, exec (.streamEnable tx v) s = .next (s.chipTo c) ∧ c.srd t o = w ∧
            (tx = true → c.strmTx t = { strmTxReset with rate := rate } ∧ c.strmRx t = s.chip.strmRx t ∧ c.srd t 0x094 = 0 ∧
              strmOnly t [o, 0x094] [] s.chip c) ∧
            (tx = false → c.strmRx t = { strmRxReset with rate := rate } ∧ c.strmTx t = s.chip.strmTx t ∧ c.srd t 0x138 = 0 ∧
              strmOnly t [o, 0x138] [] s.chip c) ∧
            c = { s.chip with strm := c.strm }))) ∧
    (∀ st : Fin 256,
      ((s.chip.strmTx st).ready = [] ∨ s.chip.strmOn true st = false ∨
          (s.chip.strmTx st).rate ≠ s.chip.rdf Reg.TICK_CFG 2 0 → exec (.streamPacketSend st) s = .next s) ∧
      (∀ (e : BitVec 64) (ws : List Word) (r : List (BitVec 64 × List Word)) (seq : Nat), (s.chip.strmTx st).ready = (e, ws) :: r →
        s.chip.strmOn true st = true → (s.chip.strmTx st).rate = s.chip.rdf Reg.TICK_CFG 2 0 →
        seq = e.toNat / s.chip.strmSpp true st (s.chip.strmTx st).rate % 65536 →
        ∃ c, exec (.streamPacketSend st) s = .next (s.chipTo c) ∧ c.strmTx st = { s.chip.strmTx st with ready := r } ∧
          c.sf st 0x094 31 16 = seq ∧ c.sb st 0x094 0 = true ∧ c.srd st 0x098 = word (e.toNat % 2 ^ 32) ∧
          (∀ b, (c.ethSt (s.chip.strmPort true st b)).strm = (s.chip.ethSt (s.chip.strmPort true st b)).strm ++
            if s.chip.strmPlane true st b = true ∧ s.chip.ethLink (s.chip.strmPort true st b) = true then
              [(s.chip.sf st 0x080 10 8, buildPacket (s.dev.template st b) seq (e.toNat % 2 ^ 32)
                (ws.flatMap (sampleBytes (s.chip.strmB true st))))] else []) ∧
          (∀ p, { c.ethSt p with strm := (s.chip.ethSt p).strm } = s.chip.ethSt p) ∧
          (∀ p, (∀ b, p ≠ s.chip.strmPort true st b) → c.ethSt p = s.chip.ethSt p) ∧
          strmOnly st [0x094, 0x098] [] s.chip c ∧ c = { s.chip with strm := c.strm, eth := c.eth }) ∧
      (∀ b : Bool, (s.chip.sb st 0x138 (1 + b2n b) = false → exec (.planeDown st b) s = .next s) ∧
        (s.chip.sb st 0x138 (1 + b2n b) = true → ∃ c, exec (.planeDown st b) s = .next (s.chipTo c) ∧
          c.sb st 0x138 (1 + b2n b) = false ∧ raises pgSTRM 2 s.chip c ∧
          strmOnly st [0x138] [Reg.IRQ_RAW pgSTRM] s.chip c ∧ c = { s.chip with regs := c.regs, strm := c.strm })) ∧
      (∀ (p : Fin 4) (f g l : List Byte) (stamp : Word) (b : Bool) (u : Nat) (q h : BitVec 16) (x : StrmRx),
        x = s.chip.strmRx st → x.hseq = some h → g = f.take (f.length - 4) → udpAt g = some u →
        q = BitVec.ofNat 16 (beAt g (u + 10) 2) → s.chip.rtpPayload st g u = some l →
        (p.val ≠ 0 ∨ s.chip.rdb Reg.ETH0_WAKE_CFG 0 = false) → s.chip.pstate < 2 → s.chip.laneState p = 5 → s.chip.en (pgETH p) = true →
        s.chip.rdb (Reg.ETH_CFG p) 2 = true → 64 ≤ f.length → f.length ≤ s.chip.rdf (Reg.ETH_MAXLEN p) 13 0 →
        (s.chip.ethSt p).rxBytes + f.length ≤ 32768 → beAt f 12 2 ≠ 0x8808 → s.chip.ethAccepts p f = true →
        s.chip.claimFrom p f 256 0 = some (st.val, b) → s.chip.freeze pgSTRM = false →
        ∃ d, exec (.ethFrameReceived p f true stamp) s = .next (s.devTo d) ∧ d.chip.eth = s.chip.eth ∧
          d.chip.srd st (0x140 + 4 * b2n b) = satInc (s.chip.srd st (0x140 + 4 * b2n b)) ∧
          d.chip.sb st 0x138 (1 + b2n b) = true ∧
          (0 < (q - h).toInt → (d.chip.strmRx st).hseq = some q ∧ d.chip.srd st 0x13C = q.setWidth 32 ∧
            q ∈ (d.chip.strmRx st).seen) ∧
          ((q - h).toInt ≤ 0 → -1024 < (q - h).toInt → q ∉ x.seen → (d.chip.strmRx st).hseq = some h ∧
            q ∈ (d.chip.strmRx st).seen) ∧
          ((q - h).toInt ≤ 0 → -1024 < (q - h).toInt → q ∈ x.seen → d.chip.strmRx st = x ∧ d.mem = s.mem ∧
            d.chip.srd st 0x148 = satInc (s.chip.srd st 0x148)) ∧
          ((q - h).toInt ≤ -1024 → d.chip.strmRx st = x ∧ d.mem = s.mem ∧
            d.chip.srd st 0x150 = satInc (s.chip.srd st 0x150)))) ∧
    (∀ v : Word, ∃ c, exec (.strmStatsClr v) s = .next (s.chipTo c) ∧ c = { s.chip with strm := c.strm } ∧
      (bit v 0 = true → c.srd (s.chip.rdf Reg.STRM_TXSEL 7 0) 0x0A0 = 0 ∧ c.srd (s.chip.rdf Reg.STRM_TXSEL 7 0) 0x0A4 = 0) ∧
      (bit v 1 = true → ∀ i, i < 8 → c.srd (s.chip.rdf Reg.STRM_RXSEL 7 0) (0x140 + 4 * i) = 0) ∧
      ∀ i o, o < 0x1000 →
        (bit v 0 = true → i = s.chip.rdf Reg.STRM_TXSEL 7 0 → o ≠ 0x0A0 ∧ o ≠ 0x0A4) →
        (bit v 1 = true → i = s.chip.rdf Reg.STRM_RXSEL 7 0 → ∀ j, j < 8 → o ≠ 0x140 + 4 * j) → c.srd i o = s.chip.srd i o)

/-- R481 to R484, R486, R488, R492, R495, R496, R498, R499 and R501. -/
def Obligations.StemLinksSendAndReceiveFrames : Prop :=
  ∀ (s : State) (n : Fin 4) (x : StemSt), x = s.chip.stemSt n →
    (s.chip.en (pgSTM n) = true → exec (.stemEnable n) s = .next s) ∧
    (∀ o, s.chip.en (pgSTM n) = false → s.chip.stemBad n = some o →
      ∃ c, exec (.stemEnable n) s = .next (s.chipTo c) ∧ errs (pgSTM n) 0x02 (word o) s.chip c ∧
        stemOnly n (errRegs (pgSTM n)) s.chip c ∧ c.stemSt n = x) ∧
    (s.chip.en (pgSTM n) = false → s.chip.stemBad n = none → s.chip.stemLink n = 0 →
      ∃ c, exec (.stemEnable n) s = .next (s.chipTo c) ∧ c.en (pgSTM n) = true ∧
        c.stemSt n = { stemReset with rate := s.chip.rdf Reg.TICK_CFG 2 0, nlog := s.chip.rdf Reg.TICK_CFG 6 4,
                                      restart := true, ctx := x.ctx, crx := x.crx, ovf := x.ovf } ∧
        c.stemLink n = (if s.chip.stemLaneUp n then 1 else 0) ∧ c.rdb (Reg.STM_STAT n) 2 = false ∧ raises (pgSTM n) 6 s.chip c ∧
        (s.chip.freeze (pgSTM n) = false → c.rd (Reg.STM_RX_RESYNCS n) = satInc (s.chip.rd (Reg.STM_RX_RESYNCS n))) ∧
        stemOnly n [Reg.CTRL (pgSTM n), Reg.STM_STAT n, Reg.STM_RX_RESYNCS n, Reg.IRQ_RAW (pgSTM n)] s.chip c) ∧
    (x.full = [] → exec (.stemFrameSend n) s = .next s) ∧
    (∀ t ws r, x.full = (t, ws) :: r → s.chip.idleReq (pgSTM n) = false → s.chip.en (pgSTM n) = true →
      s.chip.stemCfg n 1 = true → s.chip.tickRuns = true → s.chip.stemMismatch n = false → x.rate < 8 → x.nlog < 8 →
      ∃ c f, exec (.stemFrameSend n) s = .next (s.chipTo c) ∧
        c.stemSt n = { x with full := r, sent := some f, restart := false, ctx := x.ctx.drop 1 } ∧
        stemFTick f = t ∧ stemFNch f = s.chip.stemTxCh n ∧ stemFFld f 44 42 = x.nlog ∧ stemFFld f 47 45 = x.rate ∧
        stemFFld f 48 48 = b2n (s.chip.stemCfg n 3) ∧ stemFFld f 49 49 = b2n (s.chip.stemCfg n 0) ∧
        stemFFld f 50 50 = b2n (!x.ctx.isEmpty) ∧ stemFFld f 51 51 = b2n x.restart ∧
        (x.ctx = [] → f.control = List.replicate 16 0) ∧ (∀ m l, x.ctx = m :: l → f.control = m.flatMap wordBytes) ∧
        f.payload = stemPayload (s.chip.stemCfg n 3) ws ∧ f.blocks = f.payload.length / 8 ∧
        f.crc = stemCrc f.header f.control f.payload ∧ c.rd (Reg.STM_TX_LASTTICK n) = t ∧
        (s.chip.freeze (pgSTM n) = false → c.rd (Reg.STM_TX_FRAMES n) = satInc (s.chip.rd (Reg.STM_TX_FRAMES n))) ∧
        (s.chip.stemIdles n f.blocks = true → s.chip.en (pgLANE (4 + n)) = true → s.chip.rdb (Reg.LANE_CFG (4 + n)) 1 = true →
          (c.lane (4 + n)).fast = true ∧ c.rdb (Reg.LANE_STAT (4 + n)) 6 = true) ∧
        (s.chip.stemCfg n 4 = false → c.lanes = s.chip.lanes) ∧
        stemOnly n [Reg.STM_TX_FRAMES n, Reg.STM_TX_LASTTICK n, Reg.LANE_STAT (4 + n), Reg.IRQ_RAW (pgLANE (4 + n))]
          s.chip c) ∧
    (s.chip.autoIdle (4 + n) = true → (s.chip.lane (4 + n)).fast = true →
      ∃ c, exec (.stemIdleBurst n) s = .next (s.chipTo c) ∧
        c.lane (4 + n) = { s.chip.lane (4 + n) with fast := false, burst := true } ∧
        c.rdb (Reg.LANE_STAT (4 + n)) 6 = false ∧ stemOnly n [Reg.LANE_STAT (4 + n)] s.chip c ∧ c.stemSt n = x) ∧
    (s.chip.autoIdle (4 + n) = false ∨ (s.chip.lane (4 + n)).fast = false → exec (.stemIdleBurst n) s = .next s) ∧
    (∀ v : Word,
      (bit v 0 = false → exec (.ctxSend n v) s = .next s ∧ exec (.stmStatsClr n v) s = .next s) ∧
      (bit v 0 = true → 8 ≤ x.ctx.length → ∃ c, exec (.ctxSend n v) s = .next (s.chipTo c) ∧
        errs (pgSTM n) 0x03 0 s.chip c ∧ stemOnly n (errRegs (pgSTM n)) s.chip c ∧ c.stemSt n = x) ∧
      (bit v 0 = true → x.ctx.length < 8 → ∃ c, exec (.ctxSend n v) s = .next (s.chipTo c) ∧
        c.stemSt n = { x with ctx := x.ctx ++ [[s.chip.rd (Reg.STM_CTX n 0), s.chip.rd (Reg.STM_CTX n 1),
          s.chip.rd (Reg.STM_CTX n 2), s.chip.rd (Reg.STM_CTX n 3)]] } ∧ stemOnly n [] s.chip c) ∧
      (bit v 0 = true → ∃ c, exec (.stmStatsClr n v) s = .next (s.chipTo c) ∧ c = { s.chip with regs := c.regs } ∧
        (∀ i, i < 11 → c.rd (Reg.STM_TX_FRAMES n + 4 * i) = 0) ∧
        ∀ k, (∀ i, i < 11 → k ≠ Reg.STM_TX_FRAMES n + 4 * i) → c.rd k = s.chip.rd k)) ∧
    (x.crx = [] → exec (.crxPop n) s = .next (s.chipTo (s.chip.ret 0))) ∧
    (∀ a0 a1 a2 a3 t r, x.crx = ([a0, a1, a2, a3], t) :: r → r.length < 8 →
      ∃ c, exec (.crxPop n) s = .next (s.chipTo c) ∧ bit c.rdata 31 = true ∧ bit c.rdata 30 = x.ovf ∧ fld c.rdata 29 0 = r.length ∧
        c.rd (Reg.STM_CRX n 0) = a0 ∧ c.rd (Reg.STM_CRX n 1) = a1 ∧ c.rd (Reg.STM_CRX n 2) = a2 ∧
        c.rd (Reg.STM_CRX n 3) = a3 ∧ c.rd (Reg.STM_CRX_TICK n) = t ∧ c.stemSt n = { x with crx := r, ovf := false } ∧
        sameBut [Reg.STM_CRX n 0, Reg.STM_CRX n 1, Reg.STM_CRX n 2, Reg.STM_CRX n 3, Reg.STM_CRX_TICK n] s.chip c ∧
        (∀ m, m ≠ n.val → c.stemSt m = s.chip.stemSt m) ∧
        c = { s.chip with regs := c.regs, stem := c.stem, rdata := c.rdata }) ∧
    (s.chip.stemLink n ≠ 2 → exec (.stemLinkWait n) s = .next s) ∧
    (s.chip.stemLink n = 2 → ∃ c, exec (.stemLinkWait n) s = .next (s.chipTo c) ∧ c.stemLink n = 1 ∧
      raises (pgSTM n) 1 s.chip c ∧ stemOnly n [Reg.STM_STAT n, Reg.IRQ_RAW (pgSTM n)] s.chip c ∧ c.stemSt n = x) ∧
    (∀ f : StemFrame,
      (s.chip.en (pgSTM n) = false ∨ s.chip.stemCfg n 2 = false ∨ (s.chip.laneState (4 + n) ≠ 5 ∧ f.broken = false) →
        exec (.stemFrameReceived n f) s = .next s) ∧
      (s.chip.en (pgSTM n) = true → s.chip.stemCfg n 2 = true → s.chip.laneState (4 + n) = 5 →
        (∀ k b, (stemFWhole f = false ∧ k = Reg.STM_RX_FRAMEERR n ∧ b = 3) ∨
            (stemFWhole f = true ∧ stemCrc f.header f.control f.payload ≠ f.crc ∧ k = Reg.STM_RX_CRCERR n ∧ b = 2) ∨
            (stemFWhole f = true ∧ stemCrc f.header f.control f.payload = f.crc ∧
              (stemFFld f 47 45 ≠ x.rate ∨ stemFFld f 44 42 ≠ x.nlog) ∧ k = Reg.STM_RX_FMTERR n ∧ b = 10) →
          ∃ c, exec (.stemFrameReceived n f) s = .next (s.chipTo c) ∧ raises (pgSTM n) b s.chip c ∧
            (s.chip.freeze (pgSTM n) = false → c.rd k = satInc (s.chip.rd k)) ∧ c.stemSt n = x ∧
            stemOnly n [k, Reg.IRQ_RAW (pgSTM n)] s.chip c) ∧
        (∀ base, stemFWhole f = true → stemCrc f.header f.control f.payload = f.crc → stemFFld f 47 45 = x.rate →
          stemFFld f 44 42 = x.nlog → stemFFld f 51 51 = 0 → stemFFld f 50 50 = 0 → s.chip.stemLink n = 2 → x.ofs = none →
          (∀ u, x.last = some u → before u (stemFTick f) = true) →
          (∀ u, x.gapFrom = some u → stemFTick f = u + 1) → s.mem.wf = true →
          base = s.chip.stemBuf n + (stemFTick f).toNat % s.chip.stemRxf n * (s.chip.stemN n * s.chip.stemRxCh n * 4) →
          ∃ d, exec (.stemFrameReceived n f) s = .next (s.devTo d) ∧
            (∀ k c, k < s.chip.stemN n → c < s.chip.stemRxCh n → numAt d.mem (base + 4 * (k * s.chip.stemRxCh n + c)) 4 =
              (if c < stemFNch f then stemFWord f (k * stemFNch f + c) else 0).toNat) ∧
            sameOutside base (s.chip.stemN n * s.chip.stemRxCh n * 4) s.mem d.mem ∧
            (d.chip.stemSt n).last = some (stemFTick f) ∧ (d.chip.stemSt n).gapFrom = some (stemFTick f) ∧ (stemFTick f, f.start) ∈ (d.chip.stemSt n).frames ∧
            (d.chip.stemSt n).first = some (x.first.getD (stemFTick f)) ∧ (d.chip.stemSt n).drops = 0 ∧
            d.chip.rd (Reg.STM_RX_LASTTICK n) = stemFTick f ∧
            d.chip.rdb (Reg.STM_STAT n) 3 = (stemFFld f 49 49 == 1) ∧ d.chip.rdf (Reg.STM_STAT n) 17 8 = stemFNch f ∧
            d.chip.rdb (Reg.STM_STAT n) 5 = (stemFNch f != s.chip.stemRxCh n) ∧
            (s.chip.freeze (pgSTM n) = false → d.chip.rd (Reg.STM_RX_FRAMES n) = satInc (s.chip.rd (Reg.STM_RX_FRAMES n))) ∧
            stemOnly n [Reg.STM_RX_FRAMES n, Reg.STM_RX_LASTTICK n, Reg.STM_STAT n, Reg.IRQ_RAW (pgSTM n)] s.chip d.chip)))

/-- R506, R508, R512 to R516, R518, R520 to R522 and R530. -/
def Obligations.SpeakerChannelsChangeState : Prop :=
  ∀ (s : State) (n : Fin 16) (x : SpkSt) (st : Nat), x = s.chip.spkSt n → st = s.chip.spkState n →
    (∀ on : Bool, ∃ c, exec (.spkEnable n on) s = .next (s.chipTo c) ∧ c.en (pgSPK n) = on ∧
      c.spkState n = (if on then (if st = 0 then 1 else st) else 0) ∧
      (c.spkState n ≠ st → c.rdb (Reg.IRQ_RAW (pgSPK n)) 6 = true) ∧
      spkOnly n [Reg.CTRL (pgSPK n), Reg.SPK_STAT n, Reg.IRQ_RAW (pgSPK n)] s.chip c) ∧
    (∀ (low play : Bool) (i : Instr), ((i = .spkPlay n low ∧ play = true) ∨ (i = .spkDiag n low ∧ play = false)) →
      ∃ c, exec i s = .next (s.chipTo c) ∧ c.fltLow n = low ∧
        (low = true → s.chip.fltLow n = false → c.rdb (Reg.IRQ_RAW (pgSPK n)) 5 = true ∧
          (playingState st = true → spkTrips n 3 s.chip c) ∧ (st = 2 → c.spkSt n = { x with fault := true } ∧ c.spkState n = 2)) ∧
        ((low = true → s.chip.fltLow n = true ∨ (playingState st = false ∧ st ≠ 2)) →
        (∀ code info, (play = true ∧ st = 2 ∧ code = 0x07 ∧ info = 0) ∨ (play = true ∧ st = 7 ∧ code = 0x06 ∧ info = 0) ∨
            (play = false ∧ 3 ≤ st ∧ st ≤ 6 ∧ code = 0x03 ∧ info = 0) ∨
            ((st = 1 ∨ (play = false ∧ st = 7)) ∧ s.chip.idleReq (pgSPK n) = false ∧
              ((s.chip.spkHeld n = true ∧ code = 0x05 ∧ info = 0) ∨
                (s.chip.spkHeld n = false ∧ low = true ∧ code = 0x08 ∧ info = 0) ∨
                (s.chip.spkHeld n = false ∧ low = false ∧ ∃ k, s.chip.spkInvalid n play = some k ∧ code = 0x02 ∧
                  info = k % 0x1000) ∨
                (s.chip.spkHeld n = false ∧ low = false ∧ s.chip.spkInvalid n play = none ∧ st = 1 ∧
                  s.chip.spkFreq n = none ∧ code = 0x04 ∧ info = 0))) →
          errs (pgSPK n) code (word info) s.chip c ∧ c.spkState n = st ∧ c.spkSt n = x ∧
            spkOnly n (Reg.SPK_STAT n :: irqErrRegs (pgSPK n)) s.chip c) ∧
        ((play = true ∧ (st = 0 ∨ (3 ≤ st ∧ st ≤ 6))) ∨ (play = false ∧ (st = 0 ∨ st = 2)) ∨
            (s.chip.idleReq (pgSPK n) = true ∧ (st = 1 ∨ (play = false ∧ st = 7))) → c.spkState n = st ∧
          c.spkSt n = x ∧ spkOnly n [Reg.SPK_STAT n, Reg.IRQ_RAW (pgSPK n)] s.chip c) ∧
        (s.chip.idleReq (pgSPK n) = false → s.chip.spkHeld n = false → low = false → s.chip.spkInvalid n play = none → (st = 1 ∨ (play = false ∧ st = 7)) →
          ∀ f, (st = 1 → s.chip.spkFreq n = some f) →
            spkEnters n (if play then 3 else 2) c ∧ (st = 1 → c.rdf (Reg.SPK_STAT n) 26 16 = f) ∧
            (st = 1 → s.chip.rdb (Reg.SPK_CFG n) 16 = false → f = s.chip.rdf (Reg.SPK_CFG n) 10 0) ∧
            (st = 1 → s.chip.rdb (Reg.SPK_CFG n) 16 = true → saNearest n f s.chip) ∧
            (play = false → (c.spkSt n).back = st ∧ (c.spkSt n).phase = 0) ∧
            spkOnly n [Reg.SPK_STAT n, Reg.IRQ_RAW (pgSPK n)] s.chip c))) ∧
    (∃ c, exec (.spkMute n) s = .next (s.chipTo c) ∧
      (st = 3 ∨ st = 4 → spkEnters n 5 c ∧ (c.spkSt n).rampV = s.chip.spkRamp n ∧ (c.spkSt n).rampAt = s.chip.now) ∧
      (st = 2 → spkEnters n 1 c ∧ c.rdf (Reg.SPK_DIAG_RES n) 2 0 = 6 ∧ c.rdb (Reg.IRQ_RAW (pgSPK n)) 2 = true) ∧
      (st = 6 → spkEnters n 1 c ∧ c.spkRetries n = 0) ∧ (st ≠ 2 → st ≠ 3 → st ≠ 4 → st ≠ 6 → c = s.chip) ∧
      spkOnly n [Reg.SPK_STAT n, Reg.SPK_DIAG_RES n, Reg.IRQ_RAW (pgSPK n)] s.chip c) ∧
    (st ≠ 7 → exec (.spkClear n) s = .next s) ∧
    (st = 7 → ∃ c, exec (.spkClear n) s = .next (s.chipTo c) ∧ spkEnters n 1 c ∧ c.spkRetries n = 0 ∧
      spkOnly n [Reg.SPK_STAT n, Reg.IRQ_RAW (pgSPK n)] s.chip c) ∧
    (st = 3 → x.switch = false → ∃ c, exec (.softStartSwitching n) s = .next (s.chipTo c) ∧
      c.spkSt n = { x with switch := true, m := 0, rampAt := s.chip.now, rampV := 0 } ∧ spkOnly n [] s.chip c) ∧
    (st = 3 → x.switch = true → ∃ c, exec (.softStartDone n) s = .next (s.chipTo c) ∧ spkEnters n 4 c ∧ c.spkSt n = x ∧
      spkOnly n [Reg.SPK_STAT n, Reg.IRQ_RAW (pgSPK n)] s.chip c) ∧
    (st = 5 → ∃ c, exec (.softStopDone n) s = .next (s.chipTo c) ∧ spkEnters n 1 c ∧ (c.spkSt n).switch = false ∧
      spkOnly n [Reg.SPK_STAT n, Reg.IRQ_RAW (pgSPK n)] s.chip c) ∧
    (∃ c, exec (.comparatorTrip n) s = .next (s.chipTo c) ∧ (playingState st = true → spkTrips n 1 s.chip c) ∧
      (st = 2 → c.spkSt n = { x with trip := true } ∧ spkOnly n [] s.chip c) ∧
      (playingState st = false → st ≠ 2 → c = s.chip) ∧
      spkOnly n [Reg.SPK_STAT n, Reg.SPK_SHORTS n, Reg.IRQ_RAW (pgSPK n), Reg.IRQ_RAW pgSPKC] s.chip c) ∧
    (∃ c, exec (.stageFault n) s = .next (s.chipTo c) ∧ c.fltLow n = true ∧ c.rdb (Reg.IRQ_RAW (pgSPK n)) 5 = true ∧
      (playingState st = true → spkTrips n 3 s.chip c) ∧ (st = 2 → c.spkSt n = { x with fault := true }) ∧
      (playingState st = false → c.spkState n = st) ∧
      spkOnly n [Reg.SPK_STAT n, Reg.SPK_SHORTS n, Reg.IRQ_RAW (pgSPK n), Reg.IRQ_RAW pgSPKC] s.chip c) ∧
    (∀ low : Bool, (low = true → s.chip.fltLow n = false → playingState st = true →
        ∃ c, exec (.shortRetry n low) s = .next (s.chipTo c) ∧ spkTrips n 3 s.chip c) ∧
      ((low = true → s.chip.fltLow n = true ∨ playingState st = false) → ∃ c, exec (.shortRetry n low) s = .next (s.chipTo c) ∧ c.fltLow n = low ∧
      (st = 6 → low = false → s.chip.spkRetries n < 3 → spkEnters n 3 c ∧ c.spkRetries n = s.chip.spkRetries n + 1) ∧
      (st ≠ 6 ∨ low = true → c.spkState n = st ∧ c.spkRetries n = s.chip.spkRetries n) ∧
      spkOnly n [Reg.SPK_STAT n, Reg.IRQ_RAW (pgSPK n)] s.chip c)) ∧
    (st ≠ 3 ∨ x.switch = true → exec (.softStartSwitching n) s = .next s) ∧
    (st ≠ 3 ∨ x.switch = false → exec (.softStartDone n) s = .next s) ∧
    (st ≠ 5 → exec (.softStopDone n) s = .next s) ∧
    (∀ v i : BitVec 32, playingState st = false ∨ x.switch = false → exec (.loopPeriod n v i) s = .next s) ∧
    (∃ c, exec (.retryReset n) s = .next (s.chipTo c) ∧ (st = 4 → c.spkRetries n = 0) ∧ c.spkState n = st ∧
      (st ≠ 4 → c = s.chip) ∧ spkOnly n [Reg.SPK_STAT n] s.chip c) ∧
    (∀ v i : BitVec 32, playingState st = true → x.switch = true →
      ∀ isOver low, isOver = (s.chip.rdf (Reg.SPK_ILIM n) 15 0 != 0 &&
          decide (s.chip.rdf (Reg.SPK_ILIM n) 15 0 * 10 < i.toInt.natAbs)) →
        low = (decide (500 ≤ i.toInt.natAbs) &&
          decide (10 * v.toInt.natAbs < s.chip.rdf (Reg.SPK_DIAG_LIM n) 7 0 * i.toInt.natAbs)) →
        ∃ c, exec (.loopPeriod n v i) s = .next (s.chipTo c) ∧
          (low = true → x.low = 63 → spkTrips n 2 s.chip c) ∧
          (low = false ∨ x.low ≠ 63 → c.spkState n = st ∧ (c.spkSt n).low = (if low then x.low + 1 else 0) ∧
            c.rdb (Reg.SPK_STAT n) 9 = isOver ∧ (c.spkSt n).clean = (if isOver then 64 else x.clean - 1) ∧
            (isOver = true → (c.spkSt n).m.natAbs ≤ x.m.natAbs - 1) ∧
            (isOver = false → (c.spkSt n).m.natAbs ≤ s.chip.rdf (Reg.SPK_MOD n) 7 0 * 2 ^ 23)) ∧
          (isOver = true → x.clean = 0 → c.rdb (Reg.IRQ_RAW (pgSPK n)) 3 = true ∧
            (s.chip.freeze (pgSPK n) = false → c.rd (Reg.SPK_CLIPS n) = satInc (s.chip.rd (Reg.SPK_CLIPS n)))) ∧
          (isOver = false ∨ x.clean ≠ 0 → c.rd (Reg.SPK_CLIPS n) = s.chip.rd (Reg.SPK_CLIPS n)) ∧
          spkOnly n [Reg.SPK_STAT n, Reg.SPK_VDC n, Reg.SPK_IPEAK n, Reg.SPK_CLIPS n, Reg.SPK_SHORTS n,
            Reg.IRQ_RAW (pgSPK n), Reg.IRQ_RAW pgSPKC] s.chip c) ∧
    (∀ f : DiagFinding, st = 2 → x.back = 1 ∨ x.back = 7 →
      ∃ c, exec (.diagPhase n f) s = .next (s.chipTo c) ∧ c.fltLow n = f.fltLow ∧
        (x.phase < 4 → s.chip.diagFinding n f = none → c.spkState n = 2 ∧
          c.spkSt n = { x with phase := x.phase + 1, trip := false, fault := false }) ∧
        (∀ code, (x.phase = 4 ∧ s.chip.diagFinding n f = none ∧ code = 1) ∨
            (∃ b, s.chip.diagFinding n f = some (code, b)) →
          spkEnters n x.back c ∧ c.rdf (Reg.SPK_DIAG_RES n) 2 0 = code ∧ c.rdb (Reg.IRQ_RAW (pgSPK n)) 2 = true ∧
            (x.phase = 4 → c.rdf (Reg.SPK_DIAG_RES n) 31 16 = min 0xFFFF f.r10m)) ∧
        (∀ code d, s.chip.diagFinding n f = some (code, some d) → c.rdb (Reg.SPK_DIAG_RES n) 3 = d) ∧
        spkOnly n [Reg.SPK_STAT n, Reg.SPK_DIAG_RES n, Reg.IRQ_RAW (pgSPK n), Reg.IRQ_RAW pgSPKC] s.chip c) ∧
    (∀ v : Word, (bit v 0 = false → exec (.spkStatsClr n v) s = .next s) ∧
      (bit v 0 = true → ∃ c, exec (.spkStatsClr n v) s = .next (s.chipTo c) ∧ c.rd (Reg.SPK_SHORTS n) = 0 ∧
        c.rd (Reg.SPK_CLIPS n) = 0 ∧ sameBut [Reg.SPK_SHORTS n, Reg.SPK_CLIPS n] s.chip c ∧
        c = { s.chip with regs := c.regs }))

/-- R535 to R538, R545, R547, R548, R552 to R554, R559 and R612. What a reset source does is another statement's
matter; so is what Marigold does of FORCE_QUIET_IN on a unit that drives TAKEOVER_OUT. -/
def Obligations.FoxgloveStatesFollowCausesAndCommands : Prop :=
  ∀ (s : State) (st : Nat), st = s.chip.fgState →
    (∀ (v : Word) (low : Bool) (i : Instr) (b : Nat) (x : Chip),
      (i = .release v low ∧ b = 0 ∧ x = { s.chip with fg := { s.chip.fg with safeLow := !low } }) ∨
        (i = .resume v low ∧ b = 1 ∧ x = { s.chip with fg := { s.chip.fg with safeLow := !low } }) ∨
        (i = .swquiet v ∧ b = 2 ∧ x = s.chip) ∨ (i = .totestSet v ∧ b = 3 ∧ x = s.chip) ∨
        (i = .totestClear v ∧ b = 4 ∧ x = s.chip) →
      (fld v 31 16 ≠ 0xF0C5 → ∃ c, exec i s = .next (s.chipTo c) ∧ errs pgFG 0x02 0 x c ∧ sameBut (errRegs pgFG) x c ∧
        c = { x with regs := c.regs }) ∧
      (fld v 31 16 = 0xF0C5 → bit v b = false → exec i s = .next (s.chipTo x))) ∧
    (∀ (v : Word) (safeN : Bool), fld v 31 16 = 0xF0C5 → bit v 0 = true →
      ∃ c, exec (.release v safeN) s = .next (s.chipTo c) ∧
        (∀ info, (st = 3 ∧ info = 2) ∨ (st ≠ 0 ∧ st ≠ 3 ∧ info = 3) ∨ (st = 0 ∧ s.chip.sealed = false ∧ info = 1) ∨
            (st = 0 ∧ s.chip.sealed = true ∧ s.chip.rdb Reg.GUARD_STAT 1 = false ∧ info = 4) →
          errs pgFG 0x03 (word info) s.chip c ∧ raises pgFG 4 s.chip c ∧ c.rdb Reg.FG_HIST 4 = true ∧ c.fgState = st ∧
            sameBut (Reg.FG_HIST :: irqErrRegs pgFG) s.chip c ∧
            c = { s.chip with regs := c.regs, fg := { s.chip.fg with safeLow := !safeN } }) ∧
        (st = 0 → s.chip.sealed = true → s.chip.rdb Reg.GUARD_STAT 1 = true →
          fgActs 1 (fun i => s.chip.fgCause i && !(decide (i = 1) && safeN)) { s.chip.fg with safeLow := !safeN } []
            s.chip c)) ∧
    (∀ (v : Word) (safeN : Bool), fld v 31 16 = 0xF0C5 → bit v 1 = true →
      ∃ c, exec (.resume v safeN) s = .next (s.chipTo c) ∧ (c.fgSoft = false → c.fg.soft = false) ∧
        fgActs st (fun i => s.chip.fgCause i && !decide (i = 4) && !(decide (i = 1) && safeN))
          { s.chip.fg with safeLow := !safeN } [] s.chip c) ∧
    (∀ v : Word, fld v 31 16 = 0xF0C5 →
      (bit v 2 = true → ∃ c, exec (.swquiet v) s = .next (s.chipTo c) ∧
        fgActs st (fun i => s.chip.fgCause i || decide (i = 4)) s.chip.fg [] s.chip c) ∧
      (bit v 3 = true → st = 0 → ∃ c, exec (.totestSet v) s = .next (s.chipTo c) ∧ c.takeoverOut = true ∧
        fgActs 0 s.chip.fgCause { s.chip.fg with totest := true } [] s.chip c) ∧
      (bit v 3 = true → st ≠ 0 → ∃ c, exec (.totestSet v) s = .next (s.chipTo c) ∧ errs pgFG 0x03 3 s.chip c ∧
        sameBut (errRegs pgFG) s.chip c ∧ c = { s.chip with regs := c.regs }) ∧
      (bit v 4 = true → ∃ c, exec (.totestClear v) s = .next (s.chipTo c) ∧ c.fg.totest = false ∧
        fgActs st s.chip.fgCause { s.chip.fg with totest := false } [] s.chip c)) ∧
    (∀ gap : Nat, s.chip.windowOpen = true → s.chip.ledger.ok = true ∨ s.chip.ledger.advanced = true →
      ∃ c, exec (.tickWatchdogFeed gap) s = .next (s.chipTo c) ∧ c.fg.fed = true ∧ c.fg.fedAny = true ∧
        (s.chip.freeze pgFG = false → s.chip.fg.fedAny = true → c.rdf Reg.FG_FEEDGAP 15 0 =
          max (s.chip.rdf Reg.FG_FEEDGAP 15 0) (min gap 0xFFFF)) ∧
        (s.chip.fg.fed = true ∧ gap ≤ min 2000 (max 20 (s.chip.rdf Reg.FG_WDOG 10 0)) →
          fgActs st (fun i => s.chip.fgCause i && !decide (i = 0)) { s.chip.fg with fed := true, fedAny := true }
            [Reg.FG_FEEDGAP] s.chip c) ∧
        (s.chip.fg.fed = false ∨ min 2000 (max 20 (s.chip.rdf Reg.FG_WDOG 10 0)) < gap →
          sameBut [Reg.FG_FEEDGAP] s.chip c ∧
            c = { s.chip with regs := c.regs, fg := { s.chip.fg with fed := true, fedAny := true } })) ∧
    (s.chip.fgCause 0 = true →
      exec .wdogExpiry s = .next (s.chipTo { s.chip with fg := { s.chip.fg with fed := false } })) ∧
    (s.chip.fgCause 0 = false → ∃ c, exec .wdogExpiry s = .next (s.chipTo c) ∧
      (s.chip.freeze pgFG = false → c.rd Reg.FG_WDOG_TRIPS = satInc (s.chip.rd Reg.FG_WDOG_TRIPS)) ∧
      fgActs st (fun i => s.chip.fgCause i || decide (i = 0)) { s.chip.fg with fed := false } [Reg.FG_WDOG_TRIPS] s.chip c) ∧
    (∃ c, exec .safeAssert s = .next (s.chipTo c) ∧
      fgActs st (fun i => s.chip.fgCause i || decide (i = 1)) { s.chip.fg with safeLow := true } []
        (s.chip.hubAssert 232) c) ∧
    (∃ c, exec .fqiAssert s = .next (s.chipTo c) ∧ c.fgCause 2 = true ∧
      (s.chip.fg.fqiAt ≠ none ∨ s.chip.mgldRole ≠ 1 ∨ s.chip.fg.takeAt = none →
        fgActs st (fun i => s.chip.fgCause i || decide (i = 2))
          { s.chip.fg with fqiAt := some (s.chip.fg.fqiAt.getD s.chip.now64) } [] (s.chip.hubAssert 233) c)) ∧
    (∃ c, exec .fqiClear s = .next (s.chipTo c) ∧
      fgActs st (fun i => s.chip.fgCause i && !decide (i = 2)) { s.chip.fg with fqiAt := none } [] s.chip c) ∧
    (s.chip.paired = true → s.chip.roleActive = false → exec .standbyClear s = .next s) ∧
    (s.chip.paired = false ∨ s.chip.roleActive = true → ∃ c, exec .standbyClear s = .next (s.chipTo c) ∧
      fgActs st (fun i => s.chip.fgCause i && !decide (i = 3)) s.chip.fg [] s.chip c) ∧
    (∃ c, exec .keepaliveLoss s = .next (s.chipTo c) ∧ (∀ g, c.fgPin g = true) ∧
      fgActs st s.chip.fgCause { s.chip.fg with alive := false } [] s.chip c) ∧
    (s.chip.rdb Reg.GUARD_STAT 1 = true → s.chip.fg.copyA ≠ s.chip.sealedWords ∨ s.chip.fg.copyB ≠ s.chip.sealedWords →
      ∃ d, exec .copyCompare s = .next (s.devTo d) ∧ fgFaults 1 [] s d) ∧
    (s.chip.rdb Reg.GUARD_STAT 1 = false ∨ (s.chip.fg.copyA = s.chip.sealedWords ∧ s.chip.fg.copyB = s.chip.sealedWords) →
      exec .copyCompare s = .next s) ∧
    (∀ osc : Bool, ∃ d, exec (.fgSupplyFault osc) s = .next (s.devTo d) ∧ fgFaults (if osc then 2 else 3) [] s d) ∧
    (∀ g : BitVec 16, ∃ d, exec (.xchkTimeout g) s = .next (s.devTo d) ∧ fgFaults 0 [] s d ∧
      ((s.chip.fgState = 3 ∨ s.chip.fuseDone = true ∧ s.chip.resetMap 4 = 0) →
        d.chip.rdf Reg.FG_FAULT 31 16 = g.toNat)) ∧
    (∀ v : Word, (bit v 0 = false → exec (.fgStatsClr v) s = .next s) ∧
      (bit v 0 = true → ∃ c, exec (.fgStatsClr v) s = .next (s.chipTo c) ∧ c.rd Reg.FG_OVERRUNS = 0 ∧
        c.rd Reg.FG_WDOG_TRIPS = 0 ∧ c.rd Reg.FG_FEEDGAP = 0 ∧
        sameBut [Reg.FG_OVERRUNS, Reg.FG_WDOG_TRIPS, Reg.FG_FEEDGAP] s.chip c ∧ c = { s.chip with regs := c.regs }))

/-- R538, R539, R541, R543, R544, R550 and R551. -/
def Obligations.GuardsSealTripAndClear : Prop :=
  ∀ (s : State) (st : Nat), st = s.chip.fgState →
    (∀ v : Word,
      (fld v 31 16 ≠ 0x5EA1 → ∃ c, exec (.guardSeal v) s = .next (s.chipTo c) ∧ errs pgGUARD 0x02 0x040 s.chip c ∧
        sameBut (errRegs pgGUARD) s.chip c ∧ c = { s.chip with regs := c.regs }) ∧
      (fld v 31 16 = 0x5EA1 → bit v 0 = false ∨ s.chip.sealed = true → exec (.guardSeal v) s = .next s) ∧
      (fld v 31 16 = 0x5EA1 → bit v 0 = true → s.chip.sealed = false →
        ∃ c, exec (.guardSeal v) s = .next (s.chipTo c) ∧ c.sealed = true ∧ c.rdb Reg.GUARD_STAT 2 = true ∧
          c.rdb Reg.GUARD_STAT 1 = s.chip.rdb Reg.GUARD_STAT 1 ∧ raises pgGUARD 2 s.chip c ∧
          sameBut [Reg.GUARD_STAT, Reg.IRQ_RAW pgGUARD] s.chip c ∧ c = { s.chip with regs := c.regs })) ∧
    (s.chip.rdb Reg.GUARD_STAT 2 = false → exec .sealCopyDone s = .next s) ∧
    (s.chip.rdb Reg.GUARD_STAT 2 = true → ∃ c, exec .sealCopyDone s = .next (s.chipTo c) ∧
      c.fg = { s.chip.fg with copyA := s.chip.sealedWords, copyB := s.chip.sealedWords } ∧
      c.rdb Reg.GUARD_STAT 2 = false ∧ c.rdb Reg.GUARD_STAT 1 = true ∧ c.sealed = s.chip.sealed ∧
      c.rd Reg.GUARD_CRC = crc32 (s.chip.sealedWords.flatMap wordBytes) ∧
      sameBut [Reg.GUARD_STAT, Reg.GUARD_CRC] s.chip c ∧ c = { s.chip with regs := c.regs, fg := c.fg }) ∧
    (∀ (g : Fin 536) (x : GuardSt), x = s.chip.guard g →
      (x.win = none ∨ s.chip.fgBoth = true ∨ s.chip.tripped g = true → exec (.dcWindow g) s = .next s) ∧
      (∀ sum n run isOver y, s.chip.fgBoth = false → s.chip.tripped g = false → x.win = some (sum, n) → (isOver = true ↔ s.chip.dcThr g * 2 ^ 19 * n < sum.natAbs) →
        run = (if isOver then x.dcRun + 1 else 0) → y = { x with win := none, mean := Int.tdiv sum n, dcRun := run } →
        ∃ c, exec (.dcWindow g) s = .next (s.chipTo c) ∧
          (run ≤ s.chip.rdf (Reg.GUARD_G g) 26 24 → c = s.chip.setGuard g y) ∧
          (s.chip.rdf (Reg.GUARD_G g) 26 24 < run → guardTrips g 2 (s.chip.setGuard g y) c))) ∧
    (∀ (n : Fin 16) (x : GuardSt), x = s.chip.guard (520 + n) →
      (∀ mean : BitVec 32,
        (s.chip.fgBoth = true ∨ s.chip.tripped (520 + n) = true → exec (.dutyWindow n mean) s = .next s) ∧
        (∀ run, s.chip.fgBoth = false → s.chip.tripped (520 + n) = false →
          run = (if s.chip.dcThr (520 + n) * 2 ^ 19 < mean.toInt.natAbs then x.duty + 1 else 0) →
          ∃ c, exec (.dutyWindow n mean) s = .next (s.chipTo c) ∧
            (run < 2 → c = s.chip.setGuard (520 + n) { x with duty := run }) ∧
            (2 ≤ run → guardTrips (520 + n) 4 (s.chip.setGuard (520 + n) { x with duty := run }) c))) ∧
      (∃ c, exec (.gateTrip n) s = .next (s.chipTo c) ∧ guardTrips (520 + n) 5 s.chip c) ∧
      (∀ b : Bool, ∃ c, exec (.overlapDetect n b) s = .next (s.chipTo c) ∧ guardTrips (520 + n) 5 s.chip c)) ∧
    (∃ c, exec (.pinPathTimer none) s = .next (s.chipTo c) ∧
      fgActs st s.chip.fgCause { s.chip.fg with soft := s.chip.fg.soft || s.chip.fgSoft } [] s.chip c ∧
      (s.chip.fgSoft = true → ∀ g, c.fgPin g = true)) ∧
    (∀ g : Fin 536, ∃ c, exec (.pinPathTimer (some g)) s = .next (s.chipTo c) ∧
      (s.chip.softTrip g = false → c.fg.guards = s.chip.fg.guards) ∧
      (s.chip.softTrip g = true → (∀ i, i ≠ g.val → c.guard i = s.chip.guard i) ∧ (c.guard g).timed = true ∧
        ((c.guard g).pin = true ↔
          (s.chip.guard g).pin = true ∨ 520 ≤ g.val ∨ (s.chip.guard g).out ≠ 0)) ∧
      fgActs st s.chip.fgCause { s.chip.fg with guards := c.fg.guards } [] s.chip c) ∧
    (∀ (w : Fin 17) (v : Word), ∃ c, exec (.tripClear w v) s = .next (s.chipTo c) ∧
      (∀ i, i < 536 →
        (i / 32 = w.val ∧ bit v (i % 32) = true ∧ s.chip.tripped i = true ∧ s.chip.lockedOut i = false →
          c.tripped i = false ∧ c.guard i = { s.chip.guard i with
            sum := 0, cnt := 0, win := none, dcRun := 0, last := 0, run := 0, duty := 0, timed := false, pin := false }) ∧
        (i / 32 ≠ w.val ∨ bit v (i % 32) = false ∨ s.chip.tripped i = false ∨ s.chip.lockedOut i = true →
          c.tripped i = s.chip.tripped i ∧ c.guard i = s.chip.guard i)) ∧
      fgActs st s.chip.fgCause { s.chip.fg with guards := c.fg.guards } [Reg.GUARD_TRIP w] s.chip c)

/-- R563, R566 to R568, R571, R575, R579 to R581, R583, R584 and R586. -/
def Obligations.MarigoldRolesAndRecords : Prop :=
  ∀ (s : State) (x : MgldSt) (role : Nat), x = s.chip.mgld → role = s.chip.mgldRole →
    (∀ high : Bool, (s.chip.en pgMGLD = true → exec (.mgldEnable high) s = .next s) ∧
      (∀ r ok, s.chip.en pgMGLD = false → r = s.chip.rdf (Reg.LANE_CFG 8) 0 0 →
        (ok ↔ r = s.chip.rdf (Reg.LANE_CFG 9) 0 0 ∧ s.chip.rdf (Reg.LANE_CFG 8) 2 1 = 3 ∧
          s.chip.rdf (Reg.LANE_CFG 9) 2 1 = 3 ∧ s.chip.recordFits r 2 = true ∧ s.chip.windowsOk = true) →
        ∃ c, exec (.mgldEnable high) s = .next (s.chipTo c) ∧
          (¬ok → errs pgMGLD 0x02 (word (Reg.CTRL pgMGLD % 0x1000)) s.chip c ∧ sameBut (errRegs pgMGLD) s.chip c ∧
            c = { s.chip with regs := c.regs }) ∧
          (ok → ∃ b, b.en pgMGLD = true ∧ b.rd Reg.MGLD_BUDGET = word (8 * s.chip.recordLimit r 2) ∧
            b.rdb Reg.MGLD_ROLE 8 = high ∧ b.mgldRole = role ∧
            sameBut [Reg.CTRL pgMGLD, Reg.MGLD_BUDGET, Reg.MGLD_ROLE] s.chip b ∧
            b = { s.chip with regs := b.regs, mgld := { mgldReset with rate := r, edge := x.edge } } ∧
            mgldTurns (if high then 1 else 3) b c))) ∧
    (∀ (v : Word) (i : Instr) (b r : Nat), (i = .takeover v ∧ b = 0 ∧ r = 2) ∨ (i = .handover v ∧ b = 1 ∧ r = 1) ∨
        (i = .join v ∧ b = 2 ∧ r = 4) →
      (fld v 31 16 = 0x6D67 → bit v b = false → exec i s = .next s) ∧
      (∀ code, (fld v 31 16 ≠ 0x6D67 ∧ code = 4) ∨ (fld v 31 16 = 0x6D67 ∧ bit v b = true ∧ role ≠ r ∧ code = 3) →
        ∃ c, exec i s = .next (s.chipTo c) ∧ errs pgMGLD code 0 s.chip c ∧ sameBut (errRegs pgMGLD) s.chip c ∧
          c = { s.chip with regs := c.regs }) ∧
      (fld v 31 16 = 0x6D67 → bit v b = true → role = r → ∃ c, exec i s = .next (s.chipTo c) ∧
        (r = 2 → mgldTakes s.chip c) ∧ (r = 1 → c = { s.chip with mgld := { x with hand := true } }) ∧
        (r = 4 → mgldTurns 3 s.chip c))) ∧
    (∀ (tick : Word) (epoch : BitVec 16) (flags : Byte),
      (s.chip.en pgMGLD = false → exec (.markerReceived tick epoch flags) s = .next s) ∧
      (∀ lock, s.chip.en pgMGLD = true → lock = (s.chip.tickRuns && tick == s.chip.tick.count.setWidth 32 &&
          decide ((s.chip.now - x.edge).toNat ≤ 1000)) →
        ∃ c, exec (.markerReceived tick epoch flags) s = .next (s.chipTo c) ∧ c.rd Reg.MGLD_PEER_TICK = tick ∧
          c.rd Reg.MGLD_PEER_SHORT = s.chip.now ∧
          (role = 1 → c.mgldRole = 1 ∧ c.rdb Reg.MGLD_ROLE 12 = true ∧ c.rdb (Reg.IRQ_RAW pgMGLD) 6 = true ∧
            sameBut [Reg.MGLD_PEER_TICK, Reg.MGLD_PEER_SHORT, Reg.MGLD_ROLE, Reg.IRQ_RAW pgMGLD] s.chip c ∧
            c = { s.chip with regs := c.regs }) ∧
          (role = 0 ∨ 4 ≤ role → sameBut [Reg.MGLD_PEER_TICK, Reg.MGLD_PEER_SHORT] s.chip c ∧
            c = { s.chip with regs := c.regs }) ∧
          (role = 2 → epoch.toNat ≠ s.chip.mgldEpoch →
            (s.chip.freeze pgMGLD = false → c.rd Reg.MGLD_RX_EPOCHERR = satInc (s.chip.rd Reg.MGLD_RX_EPOCHERR)) ∧
            sameBut [Reg.MGLD_PEER_TICK, Reg.MGLD_PEER_SHORT, Reg.MGLD_RX_EPOCHERR] s.chip c ∧
            c = { s.chip with regs := c.regs }) ∧
          (role = 3 → c.mgldRole = 3 ∧ c.mgldEpoch = epoch.toNat ∧ c.rdb Reg.MGLD_ROLE 10 = lock ∧
            c.mgld = { x with lock := lock, marker := some tick, beat := true } ∧
            sameBut [Reg.MGLD_PEER_TICK, Reg.MGLD_PEER_SHORT, Reg.MGLD_EPOCH, Reg.MGLD_ROLE] s.chip c ∧
            c = { s.chip with regs := c.regs, mgld := c.mgld }) ∧
          (role = 2 → epoch.toNat = s.chip.mgldEpoch → ∃ b, b.mgldRole = 2 ∧ b.rdf Reg.MGLD_ROLE 19 16 = 0 ∧
            b.rdb Reg.MGLD_ROLE 10 = lock ∧
            sameBut [Reg.MGLD_PEER_TICK, Reg.MGLD_PEER_SHORT, Reg.MGLD_ROLE] s.chip b ∧
            b = { s.chip with regs := b.regs, mgld := { x with lock := lock, marker := some tick, beat := true } } ∧
            (flags.getLsbD 2 = true → mgldTakes { b with mgld := { b.mgld with finish := some tick } } c) ∧
            (flags.getLsbD 2 = false → lock = true → c = b) ∧
            (flags.getLsbD 2 = false → lock = false → ∃ b2, mgldTurns 3 b b2 ∧ raises pgMGLD 5 b2 c ∧
              sameBut [Reg.IRQ_RAW pgMGLD] b2 c ∧ c = { b2 with regs := c.regs })))) ∧
    (∀ (tick : Word) (epoch : BitVec 16) (flags : Byte), exec (.statusReceived tick epoch flags) s = .next (s.chipTo
      (if role = 1 then { s.chip with mgld := { x with peer := flags, seenAt := some s.chip.tick.count } } else s.chip))) ∧
    (∃ c b, exec .heartbeatDeadline s = .next (s.chipTo c) ∧ b = { s.chip with mgld := { x with beat := false } } ∧
      (x.beat = true ∨ s.chip.tickRuns = false ∨ (role ≠ 2 ∧ role ≠ 3) → c = b) ∧
      (x.beat = false → s.chip.tickRuns = true →
        (role = 3 → raises pgMGLD 2 b c ∧ sameBut [Reg.IRQ_RAW pgMGLD] b c ∧ c = { b with regs := c.regs }) ∧
        (role = 2 → ∃ e n, n = min 15 (s.chip.rdf Reg.MGLD_ROLE 19 16 + 1) ∧ e.rdf Reg.MGLD_ROLE 19 16 = n ∧
          raises pgMGLD 2 b e ∧ e.mgldRole = 2 ∧ sameBut [Reg.MGLD_ROLE, Reg.IRQ_RAW pgMGLD] b e ∧
          e = { b with regs := e.regs } ∧ (2 ≤ n ∧ s.chip.rdb Reg.MGLD_CFG 16 = true → mgldTakes e c) ∧
          (n < 2 ∨ s.chip.rdb Reg.MGLD_CFG 16 = false → c = e)))) ∧
    (∀ t, role = 1 → s.chip.fg.fqiAt = none → s.chip.fg.takeAt = some t → ∃ b c, exec .fqiAssert s = .next (s.chipTo c) ∧
      fgActs s.chip.fgState (fun i => s.chip.fgCause i || decide (i = 2))
        { s.chip.fg with fqiAt := some s.chip.now64 } [] (s.chip.hubAssert 233) b ∧
      (10000 ≤ s.chip.now64 - t → mgldTurns 4 b c) ∧
      (s.chip.now64 - t < 10000 → c.mgldRole = 1 ∧ c.rdb Reg.MGLD_ROLE 12 = true ∧
        c.rdb (Reg.IRQ_RAW pgMGLD) 6 = true ∧ sameBut [Reg.MGLD_ROLE, Reg.IRQ_RAW pgMGLD] b c ∧
        c = { b with regs := c.regs })) ∧
    (∀ (i : Fin 32) (w : Word) (d1 : Dev) (g : MgldSt), mirrorTakes i (some w) g s d1 → x.begun = none →
      s.chip.en pgMGLD = true → role = 1 ∨ s.chip.mgldReceives = true →
      ∃ d, exec (.mirrorInputForward i) s = .next (s.devTo d) ∧
        (0 < look 0 x.owe i → d = { d1.pushed (s.chip.pairOut i) 8 0 w with chip := { (d1.pushed (s.chip.pairOut i) 8 0 w).chip
          with mgld := { g with owe := put x.owe i (look 0 x.owe i - 1) } } }) ∧
        (look 0 x.owe i = 0 → 0 < look 0 x.skip i → d = { d1 with chip := { d1.chip
          with mgld := { g with skip := put x.skip i (look 0 x.skip i - 1) } } }) ∧
        (∀ d2, look 0 x.owe i = 0 → look 0 x.skip i = 0 →
          d2 = (if role = 1 ∧ x.isOver = false then d1.pushed (s.chip.pairOut i) 8 0 w else d1) →
          d = { d2 with chip := { d2.chip with mgld := { g with fwd := put x.fwd i (look [] x.fwd i ++ [w]) } } })) ∧
    (∀ (i : Fin 32) (d1 : Dev) (g : MgldSt), mirrorTakes i none g s d1 → x.begun = none → s.chip.en pgMGLD = true →
      role = 1 ∨ s.chip.mgldReceives = true →
      exec (.mirrorInputForward i) s = .next (s.devTo { d1 with chip := { d1.chip with mgld := g } })) ∧
    (∀ (i : Fin 32) m, x.begun = some m → ∃ d, exec (.mirrorInputForward i) s = .next (s.devTo d) ∧
      (d.chip.mgld.begun = some m ∨ (d.chip.mgld.begun = none ∧
        ∃ r, d.chip.mgld.sent = some r ∧ r.tick = m.1 ∧ r.epoch = m.2.1 ∧ r.flags = m.2.2))) ∧
    (∀ i : Fin 32, x.begun = none → s.chip.npair ≤ i.val ∨ s.chip.en pgMGLD = false ∨
      (role ≠ 1 ∧ s.chip.mgldReceives = false) → exec (.mirrorInputForward i) s = .next s) ∧
    (s.chip.en pgMGLD = false ∨ s.chip.tickRuns = false →
      exec .stagingExchange s = .next s ∧ exec .mirrorSnapshot s = .next s) ∧
    (s.chip.en pgMGLD = true → s.chip.tickRuns = true →
      exec .stagingExchange s = .next (s.chipTo { s.chip with mgld := { x with stream := 1 - x.stream } }) ∧
      (role ≠ 1 → x.state = none ∨ s.chip.ledger.ok = false → exec .mirrorSnapshot s = .next s) ∧
      (∀ n a p, s.chip.nwin = 1 → n = s.chip.winBytes 0 → a = s.chip.winBase 0 → banksOn s.chip → 0 < n → n ≤ 1024 →
        inBanks a n → inBanks p n → s.mem.wf = true →
        (role = 1 → x.state = none → p = s.chip.bufPiece (1 - x.stream) 0 → ∃ m,
          exec .mirrorSnapshot s = .next (s.devTo { s.dev with mem := m }) ∧ sameOutside p n s.mem m ∧
            ∀ j, j < n → m.get (p + j) = s.mem.get (a + j)) ∧
        (role ≠ 1 → x.state = some n → s.chip.ledger.ok = true → p = s.chip.bufPiece 2 0 → ∃ m,
          exec .mirrorSnapshot s = .next (s.devTo { mem := m, chip := { s.chip with mgld := { x with copied := true } } }) ∧
            sameOutside a n s.mem m ∧ ∀ j, j < n → m.get (a + j) = s.mem.get (p + j)))) ∧
    (x.recTick = none ∨ s.chip.en pgMGLD = false ∨ s.chip.tickRuns = false ∨ role ≠ 1 ∨ s.chip.idleReq pgMGLD = true →
      exec .recordSend s = .next s) ∧
    (∀ t one nostate st data m, x.recTick = some t → s.chip.en pgMGLD = true → s.chip.tickRuns = true → role = 1 →
      s.chip.idleReq pgMGLD = false → banksOn s.chip → one = !s.chip.bothLanes x.peer.toNat →
      nostate = (!x.recOk || (one && !s.chip.recordFits x.rate 1)) →
      st = (if nostate then [] else (s.dev.stageRead x.stream s.chip.stateBytes).1) →
      data = recordData (x.inputs.getD s.chip.recordInputs) x.jrec st →
      m = (t.setWidth 32, BitVec.ofNat 16 s.chip.mgldEpoch, BitVec.ofNat 8 (b2n x.jrecOvf + 2 * b2n nostate + 4 * b2n x.hand)) →
      ∃ c, exec .recordSend s = .next (s.chipTo c) ∧ c.rdb Reg.MGLD_ROLE 11 = one ∧
        (one = true → s.chip.rdb Reg.MGLD_ROLE 11 = false → c.rdb (Reg.IRQ_RAW pgMGLD) 9 = true) ∧
        c.mgld.recTick = none ∧ c.mgld.hand = false ∧
        (s.chip.inputsReady = false → c.mgld.begun = some m ∧ c.mgld.sent = x.sent ∧ c.mgld.jrec = x.jrec ∧
          (x.hand = false → c.mgldRole = 1 ∧ sameBut [Reg.MGLD_ROLE, Reg.IRQ_RAW pgMGLD] s.chip c ∧
            c = { s.chip with regs := c.regs, mgld := { x with recTick := none, begun := some m } })) ∧
        (s.chip.inputsReady = true → c.mgld.begun = none ∧ c.mgld.jrec = [] ∧ c.mgld.inputs = none ∧
          c.mgld.sent = some ⟨m.1, m.2.1, m.2.2, data, crc32 data, data.length / 8⟩ ∧
          c.rd Reg.MGLD_REC_LEN = word (recordBytes data.length % 2 ^ 24) ∧
          (s.chip.freeze pgMGLD = false →
            c.rd Reg.MGLD_REC_MAX = word (max (recordBytes data.length) (s.chip.rd Reg.MGLD_REC_MAX).toNat)) ∧
          (x.hand = false → c.mgldRole = 1 ∧
            sameBut [Reg.MGLD_ROLE, Reg.MGLD_REC_LEN, Reg.MGLD_REC_MAX, Reg.IRQ_RAW pgMGLD] s.chip c ∧
            c = { s.chip with regs := c.regs, mgld := c.mgld })) ∧
        (x.hand = true → ∃ b, mgldTurns 4 b c)) ∧
    (∀ (r : MirrorRecord) (now : Word), now = s.chip.tick.count.setWidth 32 →
      (s.chip.en pgMGLD = false ∨ s.chip.idleReq pgMGLD = true ∨
          (s.chip.mgldReceives = false ∧ (role ≠ 1 ∨ x.finish ≠ some r.tick)) →
        exec (.recordReceived r) s = .next s) ∧
      (s.chip.en pgMGLD = true → s.chip.idleReq pgMGLD = false →
        s.chip.mgldReceives = true ∨ (role = 1 ∧ x.finish = some r.tick) → r.crc ≠ crc32 r.data ∨ r.blocks ≠ r.data.length / 8 ∨ r.data.length % 8 ≠ 0 →
        ∃ c, exec (.recordReceived r) s = .next (s.chipTo c) ∧ raises pgMGLD 4 s.chip c ∧
          (s.chip.freeze pgMGLD = false → c.rd Reg.MGLD_RX_CRCERR = satInc (s.chip.rd Reg.MGLD_RX_CRCERR)) ∧
          sameBut [Reg.MGLD_RX_CRCERR, Reg.IRQ_RAW pgMGLD] s.chip c ∧ c = { s.chip with regs := c.regs }) ∧
      (recordSound r s.chip → s.chip.tickRuns = true → before r.tick now = true ∨ (r.tick = now ∧ s.chip.windowOpen = true) →
        ∃ c, exec (.recordReceived r) s = .next (s.chipTo c) ∧
          (s.chip.freeze pgMGLD = false → c.rd Reg.MGLD_RX_LATE = satInc (s.chip.rd Reg.MGLD_RX_LATE)) ∧
          sameBut [Reg.MGLD_RX_LATE] s.chip c ∧ c = { s.chip with regs := c.regs }) ∧
      (recordSound r s.chip → s.chip.tickRuns = true → before r.tick now = false →
        r.tick ≠ now ∨ (s.chip.windowOpen = false ∧ x.applied = true) → exec (.recordReceived r) s = .next s) ∧
      (∀ d1 ws js st, recordSound r s.chip → s.chip.tickRuns = true → r.tick = now → before r.tick now = false →
        s.chip.windowOpen = false → x.applied = false → recordParts r.data = (ws, js, st) →
        d1 = js.foldl Dev.replay ((fresh s.dev).recordPush ws) →
        (d1.chip.stall = true → exec (.recordReceived r) s = .next s) ∧ (d1.chip.stall = false → ∃ d, exec (.recordReceived r) s = .next (s.devTo d) ∧ d.chip.mgld.applied = true ∧ d.chip.mgld.inputs = some ws ∧
          d.chip.mgld.state = (if r.flags.getLsbD 1 then none else some st.length) ∧
          (r.flags.getLsbD 0 = true → d.chip.rdb (Reg.IRQ_RAW pgMGLD) 7 = true) ∧
          d.chip.rd Reg.MGLD_REC_LEN = word (recordBytes r.data.length % 2 ^ 24) ∧
          (r.flags.getLsbD 1 = true → d.mem = d1.mem) ∧ (r.flags.getLsbD 1 = false → d.mem = (d1.stageWrite 2 st).mem) ∧
          (ws = [] → js = [] → d1 = fresh s.dev ∧
            (r.flags.getLsbD 1 = true → sameBut [Reg.MGLD_REC_LEN, Reg.MGLD_REC_MAX, Reg.IRQ_RAW pgMGLD] s.chip d.chip ∧
              d.chip = { s.chip with regs := d.chip.regs, mgld := d.chip.mgld }))))) ∧
    (∀ v : Word, (bit v 0 = false → exec (.mgldStatsClr v) s = .next s) ∧
      (∀ ks, ks = [Reg.MGLD_REC_MAX, Reg.MGLD_UNMIRRORED_TICKS, Reg.MGLD_RX_CRCERR, Reg.MGLD_RX_LATE, Reg.MGLD_RX_EPOCHERR,
          Reg.MGLD_JOVF_COUNT, Reg.MGLD_REPLAY_ERR, Reg.MGLD_FAILOVERS] → bit v 0 = true →
        ∃ c, exec (.mgldStatsClr v) s = .next (s.chipTo c) ∧ (∀ k ∈ ks, c.rd k = 0) ∧ sameBut ks s.chip c ∧
          c = { s.chip with regs := c.regs }))

/-- R595, R598 to R607 and R610. That the training of the pause on leaving self-refresh passes is a free value (log 54: the
model's choice of form). -/
def Obligations.DramControllersInitRefreshPauseAndSleep : Prop :=
  ∀ (s : State) (k : Fin 2) (st : Nat) (x : DramSt) (STAT : Nat), st = s.chip.dramState k → x = s.chip.dramSt k →
    STAT = Reg.DRAM_STAT k →
    (∀ i, (i = .dramInit k ∧ st ≠ 0 ∧ st ≠ 4 ∧ st ≠ 5) ∨
        (i = .dramResume k ∧ ¬(st = 4 ∧ (x.cause = 3 ∨ x.cause = 4) ∧ x.resume = false)) ∨
        ((i = .retrain k ∨ i = .rtArm k) ∧ s.chip.dramLive k = false) →
      ∃ c, exec i s = .next (s.chipTo c) ∧ errs (pgDRAM k) 0x05 0 s.chip c ∧ dramOnly k (errRegs (pgDRAM k)) s.chip c) ∧
    (st = 0 ∨ st = 4 ∨ st = 5 → ∀ bad zero, (bad ↔ s.chip.rdf (Reg.DRAM_CFG k) 1 0 = 3 ∨ s.chip.rdf (Reg.DRAM_CFG k) 5 4 = 3) →
      (zero ↔ s.chip.rdf (Reg.DRAM_TIM1 k) 12 0 = 0) →
      (∀ info : Word, (bad ∧ info = 0x040) ∨ (¬bad ∧ zero ∧ info = 0x048) →
        ∃ c, exec (.dramInit k) s = .next (s.chipTo c) ∧ errs (pgDRAM k) 0x02 info s.chip c ∧
          dramOnly k (errRegs (pgDRAM k)) s.chip c) ∧
      (¬bad → ¬zero → ∃ d, exec (.dramInit k) s = .next (s.devTo d) ∧ d.chip.dramState k = 1 ∧
        d.chip.dramSt k = { dramReset with rot := x.rot } ∧ dramOnly k [STAT] { s.chip with freeCtr := d.chip.freeCtr } d.chip ∧
        (s.mem.wf = true → sameOutside (dramBase k) 0x1_0000_0000 s.mem d.mem ∧
          ∀ a, dramBase k ≤ a → a < dramBase k + 0x1_0000_0000 → d.mem.get a = Config.undefByte s.chip.freeCtr a))) ∧
    (st = 4 → x.cause = 3 ∨ x.cause = 4 → x.resume = false → ∃ c, exec (.dramResume k) s = .next (s.chipTo c) ∧
      c.dramSt k = { x with resume := true } ∧ dramOnly k [] s.chip c) ∧
    (∀ ok : Bool, (st = 1 ∨ (st = 4 ∧ x.resume = true) → ∃ c, exec (.dramInitDone k ok) s = .next (s.chipTo c) ∧
        c.rdb (Reg.IRQ_RAW (pgDRAM k)) 0 = true ∧ (st = 1 → ok = false → c.dramState k = 5 ∧
          c.rdb (Reg.IRQ_RAW (pgDRAM k)) 1 = true ∧ c.dramSt k = x) ∧
        (ok = true ∨ st = 4 → c.dramState k = 2 ∧ c.postponed k = 0 ∧ c.rdb (Reg.DRAM_TEMP k) 16 = false ∧
          c.dramSt k = { dramReset with rot := x.rot }) ∧
        dramOnly k [STAT, Reg.DRAM_TEMP k, Reg.IRQ_RAW (pgDRAM k)] s.chip c) ∧
      (st ≠ 1 → st ≠ 4 ∨ x.resume = false → exec (.dramInitDone k ok) s = .next s)) ∧
    (s.chip.dramLive k = true → (∃ c, exec (.retrain k) s = .next (s.chipTo c) ∧ c.rdb STAT 15 = true ∧
        (∀ b, b ≠ 15 → c.rdb STAT b = s.chip.rdb STAT b) ∧ c.dramSt k = x ∧ dramOnly k [STAT] s.chip c) ∧
      ∃ c, exec (.rtArm k) s = .next (s.chipTo c) ∧ c.rdb STAT 15 = true ∧ c.rdb STAT 14 = false ∧ c.rdf STAT 13 12 = 0 ∧
        c.rdf STAT 11 0 = s.chip.rdf STAT 11 0 ∧ c.dramSt k = x ∧ dramOnly k [STAT] s.chip c) ∧
    (∀ f : DramSt → DramSt, (∀ y : DramSt, f y = if s.chip.rdb (Reg.DRAM_CFG k) 8 then
          { y with rot := (y.rot + 1) % 8, rows := drop (fun b => b % 8 == y.rot) y.rows } else { y with rows := [] }) →
      (s.chip.dramLive k = false → exec (.refreshDue k) s = .next s) ∧
      (∀ wait, s.chip.dramLive k = true → (wait ↔ s.chip.dramWaits k = true) →
        ∃ c, exec (.refreshDue k) s = .next (s.chipTo c) ∧ dramOnly k [STAT] s.chip c ∧ c.rdf STAT 7 0 = s.chip.rdf STAT 7 0 ∧
          (∀ later, (later ↔ wait ∧ s.chip.dramHot k = false ∧ s.chip.dramCrit k = false ∧
              s.chip.postponed k < min 8 (s.chip.rdf (Reg.DRAM_CFG k) 19 16)) →
            (later → c.postponed k = s.chip.postponed k + 1 ∧ c.dramSt k = x) ∧
            (¬later → wait ∨ s.chip.postponed k = 0 → c.postponed k = s.chip.postponed k ∧ c.dramSt k = f x) ∧
            (¬wait → s.chip.postponed k ≠ 0 → c.postponed k = s.chip.postponed k - 1 ∧ c.dramSt k = f (f x)))) ∧
      (st ≠ 2 → exec (.dramService k) s = .next s) ∧
      (st = 2 → s.chip.dramWaits k = false → ∃ c, exec (.dramService k) s = .next (s.chipTo c) ∧
        dramOnly k [STAT] s.chip c ∧ (s.chip.postponed k = 0 → c.postponed k = 0 ∧ c.dramSt k = x) ∧
        (s.chip.postponed k ≠ 0 → c.postponed k = s.chip.postponed k - 1 ∧ c.dramSt k = f x)) ∧
      (∀ p, st = 2 → dramNext k s.chip p → exec (.dramService k) s = .next (s.devTo
        (((s.chipTo (s.chip.openRows k p)).dev.servePart p).chipOp (fun c => c.refreshRepay k))))) ∧
    (∀ (op : BitVec 5) (band : Fin 4),
      (st = 2 → ∃ c, exec (.mr4Read k op band) s = .next (s.chipTo c) ∧ mr4Acts k op.toNat band s.chip c ∧
        c.dramState k = 2 ∧ dramOnly k [Reg.DRAM_TEMP k, STAT, Reg.DRAM_PAYOFFS k, Reg.IRQ_RAW (pgDRAM k)] s.chip c) ∧
      (st = 3 → ∃ c, exec (.mr4Read k op band) s = .next (s.chipTo c) ∧ c.dramSt k = { x with mr4 := some (op, band.val) } ∧
        dramOnly k [] s.chip c) ∧
      (st ≠ 2 → st ≠ 3 → exec (.mr4Read k op band) s = .next s)) ∧
    (∀ on, (on ↔ st = 2 ∧ s.chip.rdf (Reg.DRAM_RT_CFG k) 7 0 ≠ 0 ∧ s.chip.rdb STAT 14 = false) →
      (¬on → exec (.pauseDue k) s = .next s) ∧
      (on → ∃ c, exec (.pauseDue k) s = .next (s.chipTo c) ∧ c.rdb STAT 15 = true ∧
        (∀ b, b ≠ 15 → c.rdb STAT b = s.chip.rdb STAT b) ∧ c.dramSt k = x ∧ dramOnly k [STAT] s.chip c)) ∧
    (∀ place slots, (place ↔ st = 2 ∧ s.chip.rdb STAT 15 = true ∧ s.chip.dramCrit k = false) →
      (slots ↔ s.chip.tickRuns = true ∧ s.chip.rdb Reg.TICK_DRAM_SLOT k = true) →
      (∀ now, (now ↔ place ∧ (slots → x.slot = true) ∧ (¬slots → s.chip.dramWaits k = false)) →
        (¬now → exec (.pauseStart k) s = .next s) ∧
        (now → ∃ c, exec (.pauseStart k) s = .next (s.chipTo c) ∧ pauseBegins k s.chip c ∧
          dramOnly k [STAT, Reg.DRAM_RT_LAST k, Reg.DRAM_PAUSES k] s.chip c)) ∧
      (¬place ∨ (slots ∧ s.chip.windowOpen = true) → exec (.pauseGrace k) s = .next s) ∧
      (place → ¬(slots ∧ s.chip.windowOpen = true) → ∃ c, exec (.pauseGrace k) s = .next (s.chipTo c) ∧
        pauseBegins k s.chip c ∧ (slots → c.rdb (Reg.IRQ_RAW (pgDRAM k)) 7 = true ∧
          (s.chip.freeze (pgDRAM k) = false → c.rd (Reg.DRAM_PAUSE_OUT k) = satInc (s.chip.rd (Reg.DRAM_PAUSE_OUT k)))) ∧
        (¬slots → ∀ r ∈ [Reg.DRAM_PAUSE_OUT k, Reg.IRQ_RAW (pgDRAM k)], c.rd r = s.chip.rd r) ∧
        dramOnly k [STAT, Reg.DRAM_RT_LAST k, Reg.DRAM_PAUSES k, Reg.DRAM_PAUSE_OUT k, Reg.IRQ_RAW (pgDRAM k)] s.chip c)) ∧
    (∀ ok : Bool, (st ≠ 3 → exec (.pauseEnd k ok) s = .next s) ∧
      (st = 3 → ∃ b c, exec (.pauseEnd k ok) s = .next (s.chipTo c) ∧ trained k ok s.chip b ∧ b.dramState k = 2 ∧
        b.dramSt k = { x with mr4 := none } ∧ dramOnly k [STAT, Reg.DRAM_TRAIN_FAILS k, Reg.IRQ_RAW (pgDRAM k)] s.chip b ∧
        (x.mr4 = none → c = b) ∧ (∀ op band, x.mr4 = some (op, band) → mr4Acts k op.toNat band b c ∧ c.dramState k = 2 ∧
          dramOnly k [Reg.DRAM_TEMP k, STAT, Reg.DRAM_PAYOFFS k, Reg.IRQ_RAW (pgDRAM k)] b c))) ∧
    (s.chip.dramLive k = false ∨ x.want = 0 ∨ (x.want = 2 ∧ ∃ m, m < 10 ∧ m ≠ 4 ∧ m ≠ 5 ∧ s.chip.draining m = true) →
      exec (.selfrefEntry k) s = .next s) ∧
    (∀ d, s.chip.dramLive k = true → x.want ≠ 0 →
      x.want ≠ 2 ∨ (∀ m, m < 10 → m ≠ 4 → m ≠ 5 → s.chip.draining m = false) →
      d = (s.chip.mtx.acc.filter (fun p => p.target == 8 + k.val)).foldl (fun d p => d.servePart p) s.dev →
      ∃ c, exec (.selfrefEntry k) s = .next (s.devTo { d with chip := c }) ∧ c.dramState k = 4 ∧ c.postponed k = 0 ∧
        c.rdb STAT 15 = false ∧ (∃ rot, c.dramSt k = { dramReset with rot := rot, cause := x.want }) ∧
        dramOnly k [STAT] d.chip c) ∧
    (st = 4 → x.go = true → ∃ c, exec (.selfrefExit k) s = .next (s.chipTo c) ∧ c.dramState k = 2 ∧
      c.rdb (Reg.DRAM_TEMP k) 16 = false ∧ c.rd (Reg.DRAM_RT_LAST k) = s.chip.now ∧
      (s.chip.freeze (pgDRAM k) = false → c.rd (Reg.DRAM_PAUSES k) = satInc (s.chip.rd (Reg.DRAM_PAUSES k))) ∧
      trained k (decide (s.chip.freeNow 1 = 1)) s.chip c ∧ c.dramSt k = { dramReset with rot := x.rot } ∧
      dramOnly k [STAT, Reg.DRAM_TEMP k, Reg.DRAM_RT_LAST k, Reg.DRAM_PAUSES k, Reg.DRAM_TRAIN_FAILS k,
        Reg.IRQ_RAW (pgDRAM k)] s.chip.freeNext c) ∧
    (st ≠ 4 ∨ x.go = false → exec (.selfrefExit k) s = .next s) ∧
    (∀ v : Word, (bit v 0 = false → exec (.dramStatsClr k v) s = .next s) ∧
      (∀ ks, ks = [Reg.DRAM_PAUSES k, Reg.DRAM_PAUSE_OUT k, Reg.DRAM_TRAIN_FAILS k, Reg.DRAM_PAYOFFS k] → bit v 0 = true →
        ∃ c, exec (.dramStatsClr k v) s = .next (s.chipTo c) ∧ (∀ r ∈ ks, c.rd r = 0) ∧ sameBut ks s.chip c ∧
          c = { s.chip with regs := c.regs }))

/-- R612, R613, R615 to R618, R620, R625 to R628, R638 and R652. -/
def Obligations.ResetsAndPowerStatesProceed : Prop :=
  ∀ (s : State) (x : PwrSt), x = s.chip.pwr →
    (∀ src, 1 ≤ src → src ≤ 9 → src ≠ 8 → s.chip.resetLevel src 0 =
      (if s.chip.fuseDone = false then 0
        else if s.chip.resetMap src = 0 then (if src = 1 then 0 else if src = 4 then 3 else if src = 7 then 2 else 1)
        else if src = 6 ∧ 3 ≤ s.chip.resetMap src then 1 else s.chip.resetMap src - 1)) ∧
    (∀ (i : Instr) (src : Nat) (holds : Bool),
      (i = .resetPin true ∧ src = 1 ∧ holds = true ∧ s.chip.pstate < 2 ∧ x.entry.any (2 ≤ ·) = false) ∨
        (i = .peerResetIn ∧ src = 5 ∧ holds = false ∧ s.chip.en pgMGLD = true) ∨
        (i = .thermalTrip ∧ src = 6 ∧ holds = true) ∨
        (i = .jtagSysrst ∧ src = 9 ∧ holds = false ∧ s.chip.rdb Reg.FUSE_BOOT 1 = false) →
      ∃ d, exec i s = .next (s.devTo d) ∧ resetActs src (s.chip.resetLevel src 0) holds s d) ∧
    (∀ i : Instr, (i = .peerResetIn ∧ s.chip.en pgMGLD = false) ∨ (i = .jtagSysrst ∧ s.chip.rdb Reg.FUSE_BOOT 1 = true) ∨
        (∃ n : Fin 2, i = .stewardWdogExpiry n ∧
          (s.chip.rdb (Reg.ST_WDOG_CFG n) 31 = false ∨ s.chip.coreState (32 + n) = 4)) →
      exec i s = .next s) ∧
    (∀ n : Fin 2, ∃ c, exec (.stewardWdogKick n 0x5AFE) s = .next (s.chipTo c) ∧
      wdogHolds n (s.chip.rdf (Reg.ST_WDOG_CFG n) 23 0) s.chip c ∧ sameBut [Reg.ST_WDOG_LEFT n] s.chip c) ∧
    (∀ (n : Fin 2) (i : Instr),
      (i = .stewardWdogExpiry n ∧ s.chip.rdb (Reg.ST_WDOG_CFG n) 31 = true ∧ s.chip.coreState (32 + n) ≠ 4) ∨
        (∃ v : Word, i = .stewardWdogKick n v ∧ v ≠ 0x5AFE) →
      ∃ b d, exec i s = .next (s.devTo d) ∧ wdogHolds n 0 s.chip b ∧ raises (pgST n) 5 s.chip b ∧
        sameBut [Reg.ST_WDOG_LEFT n, Reg.IRQ_RAW (pgST n)] s.chip b ∧
        resetActs (2 + n) (s.chip.resetLevel (2 + n) 0) false (s.chipTo b) d) ∧
    (∃ b d c, exec .enginePllLoss s = .next (s.devTo { d with chip := c }) ∧ raises pgCLKPWR 1 s.chip b ∧
      b.rdf Reg.CLKPWR_PLL 15 8 = min 255 (s.chip.rdf Reg.CLKPWR_PLL 15 8 + 1) ∧
      sameBut [Reg.CLKPWR_PLL, Reg.IRQ_RAW pgCLKPWR] s.chip b ∧ b = { s.chip with regs := b.regs } ∧
      resetActs 7 (s.chip.resetLevel 7 0) true (s.chipTo b) d ∧ c.rdb Reg.CLKPWR_PLL 0 = false ∧
      sameBut [Reg.CLKPWR_PLL] d.chip c ∧ c = { d.chip with regs := c.regs }) ∧
    (∀ (v : Word) (l m : Nat), l = fld v 1 0 → m = s.chip.resetMap 8 →
      (∀ code, (fld v 31 16 ≠ 0x5E75 ∧ code = 1) ∨ (fld v 31 16 = 0x5E75 ∧ l ≠ 0 ∧ (m = 4 ∨ (m ≠ 0 ∧ l < m)) ∧ code = 2) →
        ∃ c, exec (.softwareReset v) s = .next (s.chipTo c) ∧ errs pgRST code 0 s.chip c ∧
          sameBut (errRegs pgRST) s.chip c ∧ c = { s.chip with regs := c.regs }) ∧
      (fld v 31 16 = 0x5E75 → l = 0 → exec (.softwareReset v) s = .next s) ∧
      (fld v 31 16 = 0x5E75 → l ≠ 0 → m = 0 ∨ (m ≠ 4 ∧ m ≤ l) → ∃ d, exec (.softwareReset v) s = .next (s.devTo d) ∧
        resetActs 8 (if s.chip.fuseDone then l - 1 else 0) false s d)) ∧
    (∀ v : Word,
      (fld v 31 16 ≠ 0x5E75 → ∃ c, exec (.peerResetPulse v) s = .next (s.chipTo c) ∧ errs pgRST 1 0 s.chip c ∧
        sameBut (errRegs pgRST) s.chip c ∧ c = { s.chip with regs := c.regs }) ∧
      (fld v 31 16 = 0x5E75 → exec (.peerResetPulse v) s = .next (s.chipTo
        { s.chip with pwr := { x with peerAt := if bit v 0 then some s.chip.now else x.peerAt } }))) ∧
    (∀ (sel : BitVec 3) (i : Instr), i = .resetSequenceStep sel →
      (x.seq = 0 ∨ 7 ≤ x.seq → exec i s = .next s) ∧
      (x.seq = 1 ∨ x.seq = 5 → exec i s = .next (s.chipTo { s.chip with pwr := { x with seq := x.seq + 1 } })) ∧
      (x.seq = 2 ∨ x.seq = 4 → ∃ c, exec i s = .next (s.chipTo c) ∧ (x.seq = 2 → c.fuseLoading = true) ∧
        (x.seq = 4 → c.rdf Reg.CLKPWR_PLL 2 0 = 7) ∧
        sameBut [if x.seq = 2 then Reg.FUSE_STAT else Reg.CLKPWR_PLL] s.chip c ∧
        c = { s.chip with regs := c.regs, pwr := { x with seq := x.seq + 1 } }) ∧
      (x.seq = 3 → s.chip.fuseFault = true ∨ s.chip.heldAt 0 = true → exec i s = .next s) ∧
      (x.seq = 3 → s.chip.fuseFault = false → s.chip.heldAt 0 = false →
        (s.chip.fuseBad = none → ∃ c, exec i s = .next (s.chipTo c) ∧ c.rdf Reg.FUSE_STAT 2 0 = 1 ∧
          c.rd Reg.FUSE_RESET_MAP = s.chip.fuseAt false 0 ∧ c.rd Reg.FUSE_BOOT = s.chip.fuseAt false 1 &&& 0xFF03 ∧
          c.rd Reg.FUSE_MAC_LO = s.chip.fuseAt false 2 ∧ c.rd Reg.FUSE_MAC_HI = s.chip.fuseAt false 3 &&& 0xFFFF ∧
          (∀ w, w < 8 → c.rd (Reg.FUSE_KEY w) = s.chip.fuseAt false (4 + w)) ∧
          sameBut ([Reg.FUSE_STAT, Reg.FUSE_RESET_MAP, Reg.FUSE_BOOT, Reg.FUSE_MAC_LO, Reg.FUSE_MAC_HI] ++
            (List.range 8).map Reg.FUSE_KEY) s.chip c ∧
          c = { s.chip with regs := c.regs, pwr := { x with seq := 4 } }) ∧
        (∀ w, s.chip.fuseBad = some w → ∃ b d, exec i s = .next (s.devTo d) ∧ b.rdf Reg.FUSE_STAT 2 0 = 4 ∧
          b.rdf Reg.FUSE_STAT 31 16 = w % 2 ^ 16 ∧ sameBut [Reg.FUSE_STAT] s.chip b ∧ b = { s.chip with regs := b.regs } ∧
          resetActs 10 0 true (s.chipTo b) d)) ∧
      (x.seq = 6 → ∃ b c, exec i s = .next (s.chipTo c) ∧ b.rdf Reg.SYS_BOOT 2 0 = sel.toNat ∧
        b.rdf Reg.SYS_BOOT 31 3 = s.chip.rdf Reg.SYS_BOOT 31 3 ∧ sameBut [Reg.SYS_BOOT] s.chip b ∧
        b = { s.chip with regs := b.regs } ∧ sequenceEnds b c)) ∧
    (∀ (src : Fin 13) (i : Instr), i = .resetRelease src ∨ (src = 1 ∧ i = .resetPin false) →
      (src = 10 ∨ x.held.contains src.val = false → exec i s = .next s) ∧
      (src ≠ 10 → x.held.contains src.val = true → ∃ b c, exec i s = .next (s.chipTo c) ∧
        b = { s.chip with regs := b.regs, pwr := { x with held := x.held.filter (· != src.val) } } ∧
        (src = 7 → b.rdb Reg.CLKPWR_PLL 0 = true ∧ sameBut [Reg.CLKPWR_PLL] s.chip b) ∧
        (src ≠ 7 → b.regs = s.chip.regs) ∧ (x.seq = 7 → sequenceEnds b c) ∧
        (∀ go, (go ↔ x.seq = 0 ∧ x.level < 2 ∧ x.waiting = none ∧ b.heldAt x.level = false) →
          (go → c = { b with pwr := { b.pwr with seq := if x.level = 0 then 1 else 4 } }) ∧
          (x.seq ≠ 7 → ¬go → c = b)))) ∧
    (∀ go, (go ↔ x.level = 2 ∧ s.chip.heldAt 2 = false ∧
        (∀ m ∈ [0, 1, 2, 3, 6, 7, 8, 9], s.chip.draining m = false) ∧ (∀ k, k < 2 → (s.chip.dramSt k).want ≠ 2) ∧
        s.chip.rdb Reg.CLKPWR_PLL 0 = true) →
      (¬go → exec .engineResetRelease s = .next s) ∧
      (go → ∃ c, exec .engineResetRelease s = .next (s.chipTo c) ∧ (∀ k, k < 2 → c.dramSt k =
          if (s.chip.dramSt k).cause = 2 ∧ s.chip.dramState k = 4 then { s.chip.dramSt k with go := true }
          else s.chip.dramSt k) ∧
        c = { s.chip with dram := c.dram, pwr := { x with level := 3 } })) ∧
    (∃ d, exec .por s = .next (s.devTo d) ∧ d.chip = { chipReset with
        freeCtr := s.chip.freeCtr + 1
        rdata := s.chip.rdata
        fg := { fgReset with safeLow := s.chip.fg.safeLow, fqiAt := s.chip.fg.fqiAt }
        pwr := { pwrReset with seq := 0, waiting := some 0, blown := x.blown, held := x.held.filter (· != 10) } } ∧
      (s.mem.wf = true → ∀ a, a < 0x3_0000_0000 → d.mem.get a = Config.undefByte s.chip.freeCtr a)) ∧
    (∀ (v : Word) (r : Nat), r = fld v 1 0 →
      (∀ code, (2 ≤ r ∧ fld v 31 16 ≠ 0x9A17 ∧ code = 1) ∨
          ((r < 2 ∨ fld v 31 16 = 0x9A17) ∧ s.chip.rdb Reg.CLKPWR_PSTAT 2 = true ∧ code = 2) →
        ∃ c, exec (.powerStateRequest v) s = .next (s.chipTo c) ∧ errs pgCLKPWR code 0 s.chip c ∧
          sameBut (errRegs pgCLKPWR) s.chip c ∧ c = { s.chip with regs := c.regs }) ∧
      (r < 2 ∨ fld v 31 16 = 0x9A17 → s.chip.rdb Reg.CLKPWR_PSTAT 2 = false →
        ∃ c, exec (.powerStateRequest v) s = .next (s.chipTo c) ∧ c.rd Reg.CLKPWR_PSTATE = word r ∧
          (r = s.chip.pstate → raises pgCLKPWR 0 s.chip c ∧
            sameBut [Reg.CLKPWR_PSTATE, Reg.IRQ_RAW pgCLKPWR] s.chip c ∧ c = { s.chip with regs := c.regs }) ∧
          (r ≠ s.chip.pstate → c.rdb Reg.CLKPWR_PSTAT 2 = true ∧ c.pstate = s.chip.pstate ∧
            c.pwr = { x with entry := some r } ∧
            (r = 0 → (∀ k, k < 2 → (s.chip.dramSt k).cause = 1 → s.chip.dramState k = 4 → (c.dramSt k).go = true) ∧
              sameBut [Reg.CLKPWR_PSTATE, Reg.CLKPWR_PSTAT] s.chip c ∧
              c = { s.chip with regs := c.regs, dram := c.dram, pwr := c.pwr }) ∧
            (r ≠ 0 → c.en pgTICK = false ∧ ∀ k, k < 2 → s.chip.dramLive k = true → (c.dramSt k).want = 1)))) ∧
    (∀ quiet, (quiet ↔ s.chip.tick.on = false ∧ ∀ k, k < 2 → (s.chip.dramSt k).want = 0) →
      (∀ r, r < 2 → x.entry = some r →
        (∀ done, (done ↔ (r = 0 ∧ ∀ k, k < 2 → ¬(s.chip.dramState k = 4 ∧ (s.chip.dramSt k).go = true)) ∨
            (r = 1 ∧ quiet)) →
          (¬done → exec .pstateDone s = .next s) ∧
          (done → ∃ c, exec .pstateDone s = .next (s.chipTo c) ∧ c.pstate = r ∧ c.rdb Reg.CLKPWR_PSTAT 2 = false ∧
            raises pgCLKPWR 0 s.chip c ∧ (∀ m, m < 32 → ∀ stops, (stops ↔ r = 1 ∧ (s.chip.coreState m = 1 ∨ s.chip.coreState m = 3)) →
              (stops → c.coreState m = 0 ∧ (c.core m).flight = [] ∧ (c.core m).hold = .none) ∧
              (¬stops → c.core m = s.chip.core m ∧ c.coreState m = s.chip.coreState m)) ∧
            sameBut ([Reg.CLKPWR_PSTAT, Reg.IRQ_RAW pgCLKPWR] ++ if r = 1 then (List.range 32).map stateKey else []) s.chip c ∧
            (r = 0 → c = { s.chip with regs := c.regs, pwr := { x with entry := none } }) ∧
            c = { s.chip with regs := c.regs, cores := c.cores, qf := c.qf, pwr := { x with entry := none } }))) ∧
      (∀ r, r = 2 ∨ r = 3 → x.entry = some r →
        (¬quiet → exec .pstateDone s = .next s) ∧
        (quiet → ∃ d, exec .pstateDone s = .next (s.devTo d) ∧ d.chip.pstate = r ∧
          d.chip.rdb Reg.CLKPWR_PSTAT 2 = false ∧ d.chip.pwr.entry = none ∧ d.chip.pwr.latched = [] ∧
          (x.latched = [] → d.chip.pwr.main = false ∧ d.chip.pwr.isl = decide (r ≠ 3)) ∧
          (x.latched ≠ [] → d.chip.pwr.main = true ∧ d.chip.pwr.isl = true ∧ d.chip.pwr.waiting =
            some (if 1 ∈ x.latched then 1 else if r = 3 then 12 else 11)) ∧
          (rising s.chip.regs = true → d.chip.sealed = false ∧
            d.chip.fgState = if r = 2 ∧ s.chip.fgState = 3 then 3 else 0)))) ∧
    (x.entry = none → exec .pstateDone s = .next s) ∧
    (∃ c, exec .wakePin s = .next (s.chipTo c) ∧
      wakes 0 (if s.chip.pstate = 3 ∨ x.entry = some 3 then 12 else 11) s.chip c) ∧
    (2 ≤ s.chip.pstate ∨ x.entry.any (2 ≤ ·) = true → ∃ b, exec (.resetPin true) s = .next (s.chipTo
        { b with pwr := { b.pwr with held := 1 :: b.pwr.held.filter (· != 1) } }) ∧ wakes 2 1 s.chip b) ∧
    (x.waiting = none → exec .pwrgoodRise s = .next s ∧ exec .pwrgoodTimeout s = .next s) ∧
    (x.waiting = some 0 → exec .pwrgoodRise s = .next (s.chipTo
      { s.chip with pwr := { x with waiting := none, seq := if s.chip.heldAt 0 then 0 else 1 } })) ∧
    (∀ src, x.waiting = some src → src ≠ 0 → ∃ d, exec .pwrgoodRise s = .next (s.devTo d) ∧
      resetActs src (if src = 11 then 1 else 0) (src ≠ 11 && x.held.contains src) s d) ∧
    (x.waiting ≠ none → ∃ d, exec .pwrgoodTimeout s = .next (s.devTo d) ∧
      d.chip.pwr = { x with main := true, isl := true } ∧ (rising s.chip.regs = true → d.chip.fgState = 0)) ∧
    (∀ t : BitVec 16, ∃ c, exec (.tempReading t) s = .next (s.chipTo c) ∧ c.rd Reg.SYS_TEMP = t.setWidth 32 ∧
      (∀ up, (up ↔ fldS (s.chip.rd Reg.SYS_TEMP) 15 0 < fldS (s.chip.rd Reg.SYS_TEMP_WARN) 15 0 ∧
          fldS (s.chip.rd Reg.SYS_TEMP_WARN) 15 0 ≤ t.toInt) →
        (up → raises pgSYS 0 s.chip c) ∧ (¬up → c.rd (Reg.IRQ_RAW pgSYS) = s.chip.rd (Reg.IRQ_RAW pgSYS))) ∧
      sameBut [Reg.SYS_TEMP, Reg.IRQ_RAW pgSYS] s.chip c ∧ c = { s.chip with regs := c.regs })

/-- R44, R285, R319, R621, R629, R631 to R635, R637 and R639. Which bits an attempt that fails blew is a free value, as
is what a read of an empty BOOTQ FIFO returns (log 89 and 95: the model's choice of form). -/
def Obligations.FusesBootHostPortAndFlashProceed : Prop :=
  ∀ (s : State) (x : PwrSt), x = s.chip.pwr →
    (∀ v : Word,
      (fld v 31 16 ≠ 0xF05E → ∃ c, exec (.fuseProgram v) s = .next (s.chipTo c) ∧ errs pgFUSE 0x01 0 s.chip c ∧
        sameBut (errRegs pgFUSE) s.chip c ∧ c = { s.chip with regs := c.regs }) ∧
      (fld v 31 16 = 0xF05E → bit v 0 = false → exec (.fuseProgram v) s = .next s) ∧
      (fld v 31 16 = 0xF05E → bit v 0 = true → ∃ c, exec (.fuseProgram v) s = .next (s.chipTo c) ∧
        c.rdb Reg.FUSE_PGM_STAT 0 = true ∧ sameBut [Reg.FUSE_PGM_STAT] s.chip c ∧ c = { s.chip with regs := c.regs })) ∧
    (∀ (ok : Bool) (w : Nat) (v : Word), w = s.chip.rdf Reg.FUSE_PGM_ADDR 3 0 → v = s.chip.rd Reg.FUSE_PGM_DATA →
      (s.chip.rdb Reg.FUSE_PGM_STAT 0 = false → exec (.fuseProgramDone ok) s = .next s) ∧
      (s.chip.rdb Reg.FUSE_PGM_STAT 0 = true → ∃ c, exec (.fuseProgramDone ok) s = .next (s.chipTo c) ∧
        c.rdf Reg.FUSE_PGM_STAT 1 0 = (if ok then 0 else 2) ∧ raises pgFUSE 0 s.chip c ∧
        sameBut [Reg.FUSE_PGM_STAT, Reg.IRQ_RAW pgFUSE] s.chip c ∧
        (∀ j, j ≠ w → j ≠ 16 + w → look 0 c.pwr.blown j = look 0 x.blown j) ∧ (12 ≤ w → c.pwr = x) ∧
        (w < 12 → ∀ j, j = w ∨ j = 16 + w → (ok = true → look 0 c.pwr.blown j = look 0 x.blown j ||| v) ∧
          ∃ u, look 0 c.pwr.blown j = look 0 x.blown j ||| (v &&& u)) ∧
        c = { s.chip with regs := c.regs, freeCtr := c.freeCtr, pwr := { x with blown := c.pwr.blown } })) ∧
    (∀ flash, x.boot.waits = false ∨ (s.chip.bootSel = 1 ∧ x.mboxIn = []) → exec (.bootLoad flash) s = .next s) ∧
    (∀ flash w t, x.boot.waits = true → s.chip.bootSel = 1 → x.mboxIn = w :: t → w ≠ 1 →
      exec (.bootLoad flash) s = .next (s.chipTo { s.chip with pwr := { x with mboxIn := t } })) ∧
    (∀ flash placed l d0, x.boot.waits = true →
      (s.chip.bootSel = 0 ∧ placed = false ∧ l = flash ∧ d0 = s.dev) ∨
        (s.chip.bootSel = 1 ∧ placed = true ∧ l = s.mem.bytes headerArea 352 ∧
          ∃ t, x.mboxIn = 1 :: t ∧ d0 = { s.dev with chip := { s.chip with pwr := { x with mboxIn := t } } }) ∨
        (2 ≤ s.chip.bootSel ∧ placed = false ∧ l = x.boot.image ∧ d0 = s.dev) →
      (l.length < 32 + 16 * imgSegs l ∨ (imgCheck l = 0 ∧ placed = false ∧ l.length < imgWord l 0x0C) →
        exec (.bootLoad flash) s = .next (s.devTo d0)) ∧
      (∀ e d1, 32 + 16 * imgSegs l ≤ l.length → imgCheck l ≠ 0 ∨ placed = true ∨ imgWord l 0x0C ≤ l.length →
        (e, d1) = Dev.imgRun placed l
          { d0 with mem := if placed then d0.mem else d0.mem.setBytes headerArea (l.take (imgHeader l)) } →
        ∃ d, exec (.bootLoad flash) s = .next (s.devTo d) ∧ d.chip.rdf Reg.SYS_BOOT 15 8 = e % 256 ∧
          (imgCheck l ≠ 0 → e = imgCheck l) ∧
          (e ≠ 0 → d.mem = d1.mem ∧ sameBut [Reg.SYS_BOOT] d1.chip d.chip ∧
            d.chip = { d1.chip with regs := d.chip.regs, pwr := { d1.chip.pwr with boot := d.chip.pwr.boot } } ∧
            (s.chip.bootSel ≠ 0 → d.chip.pwr.boot = { bootReset with waits := true }) ∧
            (s.chip.bootSel = 0 → x.boot.copy2 = true → d.chip.pwr.boot = { bootReset with copy2 := true }) ∧
            (s.chip.bootSel = 0 → x.boot.copy2 = false → d.chip.rdb Reg.SYS_BOOT 3 = true ∧
              d.chip.pwr.boot = { bootReset with waits := true, copy2 := true })) ∧
          (e = 0 → d.chip.rdb Reg.SYS_BOOT 4 = imgSigned l ∧ d.chip.rd Reg.SYS_CTRL = 1 ∧ d.chip.rd (Reg.ST_CFG 0) = 0 ∧
            d.chip.rd (Reg.ST_WDOG_CFG 0) = 0 ∧ d.chip.coreState 32 = 1 ∧ (d.chip.core 32).pc = 0 ∧
            (d.chip.core 32).status = 1 ∧ d.chip.cur.boot = false ∧
            d.chip.pwr.boot = { bootReset with copy2 := x.boot.copy2 } ∧
            sameBut [Reg.SYS_BOOT, Reg.SYS_CTRL, Reg.ST_CFG 0, Reg.ST_WDOG_CFG 0, stateKey 32] d1.chip d.chip ∧
            (d1.mem.wf = true → ∀ a, (a < 0x4200_0000 ∨ 0x4204_0000 ≤ a) → (a < headerArea ∨ headerArea + 0x1_0000 ≤ a) →
              d.mem.get a = d1.mem.get a)))) ∧
    (∀ (k : BootChunk) (size : Nat), size = (if s.chip.bootSel = 2 then 4096 else 1024) →
      ∀ takes : Bool, (takes = true ↔ x.boot.waits = true ∧ (s.chip.bootSel = 2 ∨ s.chip.bootSel = 3) ∧ k.good = true ∧
          k.index = word x.boot.next ∧ k.bytes.length = size) →
        exec (.bootChunk k) s = .next (s.chipTo { s.chip with pwr := { x with boot := { x.boot with
          chunks := if takes then put x.boot.chunks x.boot.next k.bytes else x.boot.chunks
          next := if takes then x.boot.next + 1 else x.boot.next } } })) ∧
    (∀ on, (on ↔ x.boot.waits = true ∧ (s.chip.bootSel = 2 ∨ s.chip.bootSel = 3)) →
      (¬on → exec .bootAck s = .next s) ∧ (on → exec .bootAck s = .next (s.chipTo { s.chip with
        rdata := word x.boot.next
        pwr := { x with boot := { x.boot with acks := x.boot.acks + 1 } } }))) ∧
    (x.boot.waits = false → exec .bootSourceTimeout s = .next s) ∧
    (x.boot.waits = true → ∃ c, exec .bootSourceTimeout s = .next (s.chipTo c) ∧ c.rdf Reg.SYS_BOOT 15 8 = 0x06 ∧
      (s.chip.bootSel ≠ 0 ∨ x.boot.copy2 = false → c.pwr.boot.waits = true) ∧
      (s.chip.bootSel = 0 → x.boot.copy2 = true → c.pwr.boot.waits = false) ∧
      (s.chip.bootSel = 0 → x.boot.copy2 = false → c.rdb Reg.SYS_BOOT 3 = true) ∧ sameBut [Reg.SYS_BOOT] s.chip c ∧
      c = { s.chip with regs := c.regs, pwr := { x with boot := c.pwr.boot } }) ∧
    (s.chip.en pgHOST = false → ∀ i, (∃ a ws, i = .hostWriteWords a ws) ∨ (∃ a n, i = .hostReadWords a n) ∨
      i = .hostReadStatus ∨ (∃ ws, i = .hostMboxPush ws) ∨ (∃ n, i = .hostMboxPop n) → exec i s = .next s) ∧
    (s.chip.en pgHOST = true → ∀ (a : Word) (p : Nat), p = s.chip.rdf Reg.HOST_CFG 7 0 * 2 ^ 32 + a.toNat →
      exec (.hostWriteWords a []) s = .next s ∧
      exec (.hostReadWords a 0) s = .next (s.chipTo { s.chip with rwords := [] }) ∧
      (∀ w t, s.chip.mustWait 13 0 true [p] = true → exec (.hostWriteWords a (w :: t)) s = .next s) ∧
      (∀ n, s.chip.mustWait 13 0 false [p] = true → exec (.hostReadWords a (n + 1)) s = .next s) ∧
      (∀ w t s1, s.chip.mustWait 13 0 true [p] = false → exec (.hostWriteWords a [w]) s = .next s1 →
        s1.chip.en pgHOST = true → exec (.hostWriteWords a (w :: t)) s = exec (.hostWriteWords (a + 4) t) s1 ∨
          (exec (.hostWriteWords (a + 4) t) s1 = .next s1 ∧ exec (.hostWriteWords a (w :: t)) s = .next s)) ∧
      (s.chip.mustWait 13 0 true [p] = false → s.chip.mustWait 13 0 false [p] = false → p % 4 ≠ 0 → ∃ c, (∀ w, ∃ c', exec (.hostWriteWords a [w]) s = .next (s.chipTo c') ∧ c'.rd Reg.HOST_ERR_ADDR = a ∧
            c'.pwr = { x with hostErr := true } ∧ samePagesBut [pgMTX, pgHOST, pgBANK] s.chip c') ∧
          exec (.hostReadWords a 1) s = .next (s.chipTo c) ∧ c.rd Reg.HOST_ERR_ADDR = a ∧ c.rwords = [0xE7, 0] ∧
          c.rdata = 0 ∧ c.pwr = { x with hostErr := true } ∧ samePagesBut [pgMTX, pgHOST, pgBANK] s.chip c) ∧
      (∀ w r d1, s.chip.mustWait 13 0 true [p] = false → p % 4 = 0 → (r, d1) = (fresh s.dev).busWrite 13 p 4 ((List.range 4).zip (wordBytes w)) →
        ∃ d, exec (.hostWriteWords a [w]) s = .next (s.devTo d) ∧ d.mem = d1.mem ∧
          samePagesBut [pgMTX, pgHOST, pgMGLD, pgBANK] d1.chip d.chip ∧ d.chip.cores = d1.chip.cores ∧
          (r ≠ 0 → d.chip.rd Reg.HOST_ERR_ADDR = a ∧ d.chip.pwr = { d1.chip.pwr with hostErr := true }) ∧
          (r = 0 → d.chip.pwr = d1.chip.pwr)) ∧
      (∀ r l d1, s.chip.mustWait 13 0 false [p] = false → p % 4 = 0 →
        (r, l, d1) = Dev.busRead 13 p 4 { s.dev with chip := { s.chip with rwords := [], stall := false } } →
        ∃ d, exec (.hostReadWords a 1) s = .next (s.devTo d) ∧ d.mem = d1.mem ∧
          samePagesBut [pgMTX, pgHOST, pgBANK] d1.chip d.chip ∧ d.chip.cores = d1.chip.cores ∧
          (r ≠ 0 → d.chip.rd Reg.HOST_ERR_ADDR = a ∧ d.chip.rwords = d1.chip.rwords ++ [0xE7, 0] ∧
            d.chip.pwr = { d1.chip.pwr with hostErr := true }) ∧
          (r = 0 → d.chip.rdata = word (bytesNat l) ∧ d.chip.rwords = d1.chip.rwords ++ [0xA5, word (bytesNat l)] ∧
            d.chip.pwr = d1.chip.pwr)) ∧
      (inBanks p 4 → p % 4 = 0 → banksOn s.chip → s.mem.wf = true →
        (∀ w, s.chip.mustWait 13 0 true [p] = false → s.chip.mgldRole ≠ 1 → ∃ d, exec (.hostWriteWords a [w]) s = .next (s.devTo d) ∧ d.mem.word p = w ∧
          sameOutside p 4 s.mem d.mem ∧ samePagesBut [pgMTX, pgBANK] s.chip d.chip ∧
          d.chip = { s.chip with
            regs := d.chip.regs, freeCtr := d.chip.freeCtr, mtx := { s.chip.mtx with last := d.chip.mtx.last } }) ∧
        (s.chip.mustWait 13 0 false [p] = false → ∃ c, exec (.hostReadWords a 1) s = .next (s.chipTo c) ∧
          c.rwords = [0xA5, s.mem.word p] ∧ c.rdata = s.mem.word p ∧ samePagesBut [pgMTX, pgBANK] s.chip c ∧
          c = { s.chip with
            regs := c.regs, freeCtr := c.freeCtr, mtx := { s.chip.mtx with last := c.mtx.last }
            rdata := c.rdata, rwords := c.rwords }))) ∧
    (s.chip.en pgHOST = true → exec .hostReadStatus s = .next (s.chipTo { s.chip with
        rdata := word (2 * b2n x.hostErr + 4 * b2n (decide (16 ≤ x.mboxIn.length)) + 8 * b2n (!x.mboxOut.isEmpty))
        pwr := { x with hostErr := false } }) ∧
      exec (.hostMboxPush []) s = .next s ∧
      (∀ w t, ∃ c, exec (.hostMboxPush [w]) s = .next (s.chipTo c) ∧
        exec (.hostMboxPush (w :: t)) s = exec (.hostMboxPush t) (s.chipTo c) ∧
        (16 ≤ x.mboxIn.length → c = { s.chip with pwr := { x with hostErr := true } }) ∧
        (x.mboxIn.length < 16 → raises pgHOST 0 s.chip c ∧ sameBut [Reg.IRQ_RAW pgHOST] s.chip c ∧
          c = { s.chip with regs := c.regs, pwr := { x with mboxIn := x.mboxIn ++ [w] } })) ∧
      (∀ n : Nat, ∃ c, exec (.hostMboxPop n) s = .next (s.chipTo c) ∧ c.pwr = { x with mboxOut := x.mboxOut.drop n } ∧
        c.rwords = (x.mboxOut.take n).flatMap (fun w => [0xA5, w]) ++
          (List.replicate (n - x.mboxOut.length) [0x5A, 0]).flatten ∧
        (x.mboxOut ≠ [] → x.mboxOut.length ≤ n → c.rdb (Reg.IRQ_RAW pgHOST) 1 = true) ∧
        sameBut [Reg.IRQ_RAW pgHOST] s.chip c ∧
        c = { s.chip with regs := c.regs, rdata := c.rdata, rwords := c.rwords, pwr := c.pwr })) ∧
    (exec .mboxInRead s = .next (s.chipTo { s.chip with
        rdata := x.mboxIn.headD 0
        pwr := { x with mboxIn := x.mboxIn.tail } })) ∧
    (∀ v : Word, ∃ c, exec (.mboxOutWrite v) s = .next (s.chipTo c) ∧
      (16 ≤ x.mboxOut.length → raises pgHOST 2 s.chip c ∧ sameBut [Reg.IRQ_RAW pgHOST] s.chip c ∧
        c = { s.chip with regs := c.regs }) ∧
      (x.mboxOut.length < 16 → c = { s.chip with pwr := { x with mboxOut := x.mboxOut ++ [v] } })) ∧
    (∀ v : Word, ∃ c, exec (.bootqXfer v) s = .next (s.chipTo c) ∧ c = { s.chip with regs := c.regs } ∧
      (bit v 16 = true → s.chip.rdb Reg.BOOTQ_STAT 0 = true → errs pgBOOTQ 0x01 0 s.chip c ∧
        sameBut (errRegs pgBOOTQ) s.chip c) ∧
      (bit v 16 = false ∨ s.chip.rdb Reg.BOOTQ_STAT 0 = false → c.rd Reg.BOOTQ_XFER = v &&& 0xFFFF ∧
        (bit v 16 = false → sameBut [Reg.BOOTQ_XFER] s.chip c) ∧
        (bit v 16 = true → fld v 11 10 = 3 → errs pgBOOTQ 0x02 0 s.chip c ∧
          sameBut (Reg.BOOTQ_XFER :: errRegs pgBOOTQ) s.chip c) ∧
        (bit v 16 = true → fld v 11 10 ≠ 3 → c.rdb Reg.BOOTQ_STAT 0 = s.chip.en pgBOOTQ ∧
          sameBut [Reg.BOOTQ_XFER, Reg.BOOTQ_STAT] s.chip c))) ∧
    (∀ (data : List Word) (n : Nat) (write ends : Prop), n = (s.chip.rdf Reg.BOOTQ_LEN 23 0 + 3) / 4 →
      (write ↔ s.chip.rdb Reg.BOOTQ_XFER 9 = true) →
      (ends ↔ s.chip.rdb Reg.BOOTQ_STAT 0 = true ∧ (write → n ≤ x.bootq.length)) →
      (¬ends → exec (.bootqXferDone data) s = .next s) ∧
      (ends → ∃ c, exec (.bootqXferDone data) s = .next (s.chipTo c) ∧ c.rdb Reg.BOOTQ_STAT 0 = false ∧
        raises pgBOOTQ 0 s.chip c ∧ sameBut [Reg.BOOTQ_STAT, Reg.IRQ_RAW pgBOOTQ] s.chip c ∧
        (write → c.pwr = { x with bootq := x.bootq.drop n }) ∧
        (¬write → c.pwr = { x with bootq := x.bootq ++ (data ++ List.replicate n 0).take n }) ∧
        c = { s.chip with regs := c.regs, pwr := c.pwr })) ∧
    (x.bootq ≠ [] → exec .bootqDataRead s = .next (s.chipTo { s.chip with
        rdata := x.bootq.headD 0
        pwr := { x with bootq := x.bootq.tail } })) ∧
    (x.bootq = [] → ∃ v, exec .bootqDataRead s = .next (s.chipTo { s.chip with
        rdata := v
        freeCtr := s.chip.freeCtr + 1 })) ∧
    (∀ v : Word, (x.bootq.length < 64 ∨ (s.chip.rdb Reg.BOOTQ_STAT 0 = true ∧ s.chip.rdb Reg.BOOTQ_XFER 9 = true) →
        exec (.bootqDataWrite v) s = .next (s.chipTo { s.chip with pwr := { x with bootq := x.bootq ++ [v] } })) ∧
      (64 ≤ x.bootq.length → s.chip.rdb Reg.BOOTQ_STAT 0 = false ∨ s.chip.rdb Reg.BOOTQ_XFER 9 = false →
        ∃ l, l.length = 64 ∧ exec (.bootqDataWrite v) s = .next (s.chipTo { s.chip with
          freeCtr := s.chip.freeCtr + 64
          pwr := { x with bootq := l } })))

/-- The invariant of the model's memory over every command and the idle step, and that no command stops. -/
def Obligations.StepAnswersAndKeepsMemoryCanonical : Prop :=
  (∀ (i : Instr) (s : State), s.mem.wf = true → ∃ t, exec i s = .next t ∧ t.mem.wf = true ∧ t.pending = s.pending) ∧
    ∀ s : State, s.mem.wf = true → ∃ t, step s = .next t ∧ t.mem.wf = true ∧ t.pending = s.pending.tail
end

