-- ==== Sys2Proof/Laws/Bits.lean ====
section
/-! SUPPORT. Fields of words: what a field reads after a field write. -/

namespace Sys2Proof.Machine

theorem fld_lt (w : Word) (hi lo : Nat) : fld w hi lo < 2 ^ (hi + 1 - lo) := Nat.mod_lt _ (Nat.two_pow_pos _)

/-- Bit `i` of the word whose bits [hi:lo] were written. -/
theorem getLsbD_setFld (w : Word) (hi lo v i : Nat) (h : hi < 32) :
    (setFld w hi lo v).getLsbD i = if lo ≤ i ∧ i ≤ hi then v.testBit (i - lo) else w.getLsbD i := by
  by_cases h32 : i < 32
  · simp only [setFld, word, BitVec.getLsbD_or, BitVec.getLsbD_and, BitVec.getLsbD_not, BitVec.getLsbD_ofNat, h32,
      decide_true, Bool.true_and, Nat.testBit_shiftLeft, Nat.testBit_two_pow_sub_one]
    by_cases h1 : lo ≤ i
    · by_cases h2 : i ≤ hi
      · have h3 : i - lo < hi + 1 - lo := by omega
        simp [h1, h2, h3]
      · have h3 : ¬ i - lo < hi + 1 - lo := by omega
        simp [h2, h3]
    · simp [h1]
  · rw [BitVec.getLsbD_of_ge _ _ (by omega), BitVec.getLsbD_of_ge _ _ (by omega), if_neg (by omega)]

/-- A field of a word by its bits. -/
theorem testBit_fld (w : Word) (hi lo i : Nat) :
    (fld w hi lo).testBit i = (decide (i < hi + 1 - lo) && w.getLsbD (lo + i)) := by
  rw [fld, Nat.testBit_mod_two_pow, Nat.testBit_shiftRight, BitVec.testBit_toNat]

theorem fld_setFld_same (w : Word) (hi lo v : Nat) (h : hi < 32) :
    fld (setFld w hi lo v) hi lo = v % 2 ^ (hi + 1 - lo) := by
  refine Nat.eq_of_testBit_eq fun i => ?_
  rw [testBit_fld, getLsbD_setFld _ _ _ _ _ h, Nat.testBit_mod_two_pow]
  by_cases h1 : i < hi + 1 - lo
  · rw [if_pos (by omega)]; simp
  · simp [h1]

/-- A field that shares no bit with the written one stays. -/
theorem fld_setFld_ne (w : Word) (hi lo v hi' lo' : Nat) (h : hi < 32) (hd : hi < lo' ∨ hi' < lo) :
    fld (setFld w hi lo v) hi' lo' = fld w hi' lo' := by
  refine Nat.eq_of_testBit_eq fun i => ?_
  rw [testBit_fld, testBit_fld, getLsbD_setFld _ _ _ _ _ h]
  by_cases h1 : i < hi' + 1 - lo'
  · rw [if_neg (by omega)]
  · simp [h1]

theorem bit_setBit (w : Word) (i j : Nat) (b : Bool) (h : i < 32) :
    bit (setBit w i b) j = if j = i then b else bit w j := by
  unfold bit setBit
  rw [getLsbD_setFld _ _ _ _ _ h]
  by_cases hj : j = i
  · subst hj; cases b <;> simp
  · rw [if_neg (by omega), if_neg hj]

@[simp] theorem bit_setBit_same (w : Word) (i : Nat) (b : Bool) (h : i < 32) : bit (setBit w i b) i = b := by
  rw [bit_setBit _ _ _ _ h, if_pos rfl]

theorem bit_setBit_ne (w : Word) (i j : Nat) (b : Bool) (h : i < 32) (hj : j ≠ i) :
    bit (setBit w i b) j = bit w j := by
  rw [bit_setBit _ _ _ _ h, if_neg hj]

theorem bit_setFld (w : Word) (hi lo v j : Nat) (h : hi < 32) (hj : j < lo ∨ hi < j) :
    bit (setFld w hi lo v) j = bit w j := by
  unfold bit
  rw [getLsbD_setFld _ _ _ _ _ h, if_neg (by omega)]

end Sys2Proof.Machine
end

