-- ==== Sys2Proof/Laws/Table.lean ====
section
/-! SUPPORT. Sparse tables and registers: a read after a write. -/

namespace Sys2Proof.Machine

@[simp] theorem look_nil {α : Type} (d : α) (k : Nat) : look d [] k = d := rfl

@[simp] theorem look_put_same {α : Type} (d : α) (t : Tbl α) (k : Nat) (v : α) : look d (put t k v) k = v := by
  induction t with
  | nil => simp [put, look]
  | cons e t ih =>
    obtain ⟨j, u⟩ := e
    unfold put
    split
    · simp [look]
    · split
      · simp [look]
      · simp only [look]
        rw [if_neg ‹_›, if_neg ‹_›]
        exact ih

theorem look_put_ne {α : Type} (d : α) (t : Tbl α) {k i : Nat} (v : α) (h : i ≠ k) :
    look d (put t k v) i = look d t i := by
  induction t with
  | nil => simp [put, look, h]
  | cons e t ih =>
    obtain ⟨j, u⟩ := e
    unfold put
    split
    · subst_vars; simp [look, h]
    · split
      · simp only [look, if_neg h]
        split
        · rw [if_neg (by omega), if_pos (by omega)]
        · rfl
      · simp only [look]
        rw [ih]

theorem look_put {α : Type} (d : α) (t : Tbl α) (k i : Nat) (v : α) :
    look d (put t k v) i = if i = k then v else look d t i := by
  split
  · subst_vars; simp
  · exact look_put_ne d t v ‹_›

/-- An index below the first one of a rising table is not listed. -/
theorem look_below {α : Type} (d : α) (t : Tbl α) (i : Nat) (h : ∀ e ∈ t, i < e.1) : look d t i = d := by
  cases t with
  | nil => rfl
  | cons e t =>
    have h1 := h e (by simp)
    simp only [look]
    rw [if_neg (by omega), if_pos h1]

theorem rising_tail {α : Type} {e : Nat × α} {t : Tbl α} (h : rising (e :: t) = true) : rising t = true := by
  cases t with
  | nil => rfl
  | cons a t => simp only [rising, Bool.and_eq_true] at h; exact h.2

/-- Every later index of a rising table lies above its first. -/
theorem rising_head {α : Type} {e : Nat × α} {t : Tbl α} (h : rising (e :: t) = true) : ∀ x ∈ t, e.1 < x.1 := by
  induction t generalizing e with
  | nil => simp
  | cons a t ih =>
    have h2 := h
    simp only [rising, Bool.and_eq_true, decide_eq_true_eq] at h
    intro x hx
    rcases List.mem_cons.mp hx with rfl | hx
    · exact h.1
    · exact Nat.lt_trans h.1 (ih h.2 x hx)

theorem rising_cons {α : Type} {e : Nat × α} {t : Tbl α} (h : ∀ x ∈ t, e.1 < x.1) (ht : rising t = true) :
    rising (e :: t) = true := by
  cases t with
  | nil => rfl
  | cons a t =>
    simp only [rising, Bool.and_eq_true, decide_eq_true_eq]
    exact ⟨h a (by simp), ht⟩

theorem put_mem {α : Type} {t : Tbl α} {k : Nat} {v : α} {x : Nat × α} (h : x ∈ put t k v) : x = (k, v) ∨ x ∈ t := by
  induction t with
  | nil => simpa [put] using h
  | cons e t ih =>
    obtain ⟨j, u⟩ := e
    unfold put at h
    split at h
    · rcases List.mem_cons.mp h with h | h
      · exact .inl h
      · exact .inr (List.mem_cons_of_mem _ h)
    · split at h
      · rcases List.mem_cons.mp h with h | h
        · exact .inl h
        · exact .inr h
      · rcases List.mem_cons.mp h with h | h
        · exact .inr (h ▸ List.mem_cons_self)
        · exact (ih h).imp id (List.mem_cons_of_mem _)

/-- A write keeps a table rising. -/
theorem rising_put {α : Type} (t : Tbl α) (k : Nat) (v : α) (h : rising t = true) : rising (put t k v) = true := by
  induction t with
  | nil => rfl
  | cons e t ih =>
    obtain ⟨j, u⟩ := e
    have hh := rising_head h
    have ht := rising_tail h
    unfold put
    split
    · subst_vars; exact rising_cons hh ht
    · split
      · exact rising_cons (fun x hx => by
          rcases List.mem_cons.mp hx with rfl | hx
          · assumption
          · have := hh x hx; simp only at this ⊢; omega) h
      · refine rising_cons (fun x hx => ?_) (ih ht)
        rcases put_mem hx with rfl | hx
        · simp only; omega
        · exact hh x hx

/-! Registers. -/

@[simp] theorem Chip.rd_wr_same (c : Chip) (k : Nat) (v : Word) : (c.wr k v).rd k = v := by
  simp [Chip.rd, Chip.wr]

theorem Chip.rd_wr_ne (c : Chip) {k i : Nat} (v : Word) (h : i ≠ k) : (c.wr k v).rd i = c.rd i := by
  simp [Chip.rd, Chip.wr, look_put_ne _ _ _ h]

theorem Chip.rd_wr (c : Chip) (k i : Nat) (v : Word) : (c.wr k v).rd i = if i = k then v else c.rd i := by
  simp [Chip.rd, Chip.wr, look_put]

/-- A field of a register is the only one that a field write changes. -/
theorem Chip.rd_wrf_ne (c : Chip) {k i : Nat} (hi lo v : Nat) (h : i ≠ k) : (c.wrf k hi lo v).rd i = c.rd i :=
  c.rd_wr_ne _ h

theorem Chip.rd_wrb_ne (c : Chip) {k i : Nat} (n : Nat) (b : Bool) (h : i ≠ k) : (c.wrb k n b).rd i = c.rd i :=
  c.rd_wr_ne _ h

/-- What a register reads depends on the register table alone. -/
theorem Chip.rd_congr {c c' : Chip} (h : c'.regs = c.regs) (k : Nat) : c'.rd k = c.rd k := by
  simp [Chip.rd, h]

end Sys2Proof.Machine
end

