-- ==== Sys2Proof/Laws/Memory.lean ====
section
/-! SUPPORT. Memory: a read after a write, and that every operation keeps the canonical form. -/

namespace Sys2Proof.Machine

theorem mem_cellPut {d : Byte} {t : List Host.Cell} {k : Nat} {v : Byte} {x : Host.Cell}
    (h : x ∈ cellPut d t k v) : (x = (k, v) ∧ v ≠ d) ∨ x ∈ t := by
  induction t with
  | nil =>
    unfold cellPut at h
    split at h
    · cases h
    · exact .inl ⟨by simpa using h, ‹_›⟩
  | cons e t ih =>
    obtain ⟨j, u⟩ := e
    unfold cellPut at h
    split at h
    · rcases List.mem_cons.mp h with h | h
      · exact .inr (h ▸ List.mem_cons_self)
      · exact (ih h).imp id (List.mem_cons_of_mem _)
    · simp only at h
      split at h
      · exact .inr ((List.dropWhile_sublist _).subset h)
      · rcases List.mem_cons.mp h with h | h
        · exact .inl ⟨h, ‹_›⟩
        · exact .inr ((List.dropWhile_sublist _).subset h)

theorem rising_filter {α : Type} (p : Nat × α → Bool) (t : Tbl α) (h : rising t = true) :
    rising (t.filter p) = true := by
  induction t with
  | nil => rfl
  | cons e t ih =>
    rw [List.filter_cons]
    split
    · exact rising_cons (fun x hx => rising_head h x ((List.mem_filter.mp hx).1)) (ih (rising_tail h))
    · exact ih (rising_tail h)

theorem rising_dropWhile {α : Type} (p : Nat × α → Bool) (t : Tbl α) (h : rising t = true) :
    rising (t.dropWhile p) = true := by
  induction t with
  | nil => rfl
  | cons e t ih =>
    rw [List.dropWhile_cons]
    split
    · exact ih (rising_tail h)
    · exact h

/-- In a rising list, what lies behind the entries up to `k` lies above `k`. -/
theorem dropWhile_above {α : Type} (k : Nat) (t : Tbl α) (h : rising t = true) :
    ∀ x ∈ t.dropWhile (fun e => decide (e.1 ≤ k)), k < x.1 := by
  induction t with
  | nil => simp
  | cons e t ih =>
    intro x hx
    rw [List.dropWhile_cons] at hx
    split at hx
    · exact ih (rising_tail h) x hx
    · rename_i he
      replace he : ¬ e.1 ≤ k := fun h' => he (decide_eq_true h')
      rcases List.mem_cons.mp hx with rfl | hx
      · omega
      · have := rising_head h x hx; omega

theorem rising_cellPut (d : Byte) (t : List Host.Cell) (k : Nat) (v : Byte) (h : rising t = true) :
    rising (cellPut d t k v) = true := by
  induction t with
  | nil => unfold cellPut; split <;> rfl
  | cons e t ih =>
    obtain ⟨j, u⟩ := e
    unfold cellPut
    split
    · refine rising_cons (fun x hx => ?_) (ih (rising_tail h))
      rcases mem_cellPut hx with ⟨rfl, -⟩ | hx
      · assumption
      · exact rising_head h x hx
    · simp only
      split
      · exact rising_dropWhile _ _ h
      · exact rising_cons (dropWhile_above k _ h) (rising_dropWhile _ _ h)

theorem look_dropWhile {α : Type} (d : α) (k i : Nat) (t : Tbl α) (h : rising t = true) (hi : k < i) :
    look d (t.dropWhile (fun e => decide (e.1 ≤ k))) i = look d t i := by
  induction t with
  | nil => rfl
  | cons e t ih =>
    obtain ⟨j, u⟩ := e
    rw [List.dropWhile_cons]
    split
    · rename_i hj
      replace hj : j ≤ k := of_decide_eq_true hj
      rw [ih (rising_tail h)]
      simp only [look]
      rw [if_neg (by omega), if_neg (by omega)]
    · rfl

theorem look_cellPut_same (d : Byte) (t : List Host.Cell) (k : Nat) (v : Byte) (h : rising t = true) :
    look d (cellPut d t k v) k = v := by
  induction t with
  | nil => unfold cellPut; split <;> simp_all [look]
  | cons e t ih =>
    obtain ⟨j, u⟩ := e
    unfold cellPut
    split
    · simp only [look]
      rw [if_neg (by omega), if_neg (by omega)]
      exact ih (rising_tail h)
    · simp only
      split
      · rw [look_below _ _ _ (dropWhile_above k _ h)]; exact (‹v = d›).symm
      · simp [look]

theorem look_cellPut_ne (d d' : Byte) (t : List Host.Cell) {k i : Nat} (v : Byte) (h : rising t = true) (hi : i ≠ k) :
    look d' (cellPut d t k v) i = look d' t i := by
  induction t with
  | nil => unfold cellPut; split <;> simp [look, hi]
  | cons e t ih =>
    obtain ⟨j, u⟩ := e
    unfold cellPut
    split
    · simp only [look]
      rw [ih (rising_tail h)]
    · have hjk : ¬ j < k := ‹_›
      simp only
      have key : look d' (((j, u) :: t).dropWhile (fun e => decide (e.1 ≤ k))) i = look d' ((j, u) :: t) i := by
        by_cases hik : k < i
        · exact look_dropWhile d' k i _ h hik
        · rw [look_below _ _ _ (fun x hx => by have := dropWhile_above k _ h x hx; omega)]
          simp only [look]
          rw [if_neg (by omega), if_pos (by omega)]
      split
      · exact key
      · simp only [look] at key ⊢
        rw [if_neg hi]
        split
        · rw [if_neg (by omega), if_pos (by omega)]
        · exact key

/-- An index that a filter keeps reads as before. -/
theorem look_filter {α : Type} (d : α) (p : Nat → Bool) (t : Tbl α) {i : Nat} (h : rising t = true) (hi : p i = true) :
    look d (t.filter (fun e => p e.1)) i = look d t i := by
  induction t with
  | nil => rfl
  | cons e t ih =>
    obtain ⟨j, u⟩ := e
    rw [List.filter_cons]
    split
    · simp only [look]; rw [ih (rising_tail h)]
    · rename_i hj
      have hij : i ≠ j := fun e => hj (e ▸ hi)
      rw [ih (rising_tail h)]
      simp only [look]
      rw [if_neg hij]
      split
      · exact look_below _ _ _ (fun x hx => Nat.lt_trans ‹i < j› (rising_head h x hx))
      · rfl

theorem Memory.wf_iff (m : Memory) :
    m.wf = true ↔ rising m.cells = true ∧ ∀ e ∈ m.cells, e.2 ≠ m.unlisted e.1 := by
  simp [Memory.wf, List.all_eq_true]

@[simp] theorem Memory.unlisted_set (m : Memory) (a : Nat) (v : Byte) (i : Nat) :
    (m.set a v).unlisted i = m.unlisted i := rfl

/-- A byte reads as written. -/
theorem Memory.get_set_same (m : Memory) (a : Nat) (v : Byte) (h : m.wf = true) : (m.set a v).get a = v :=
  look_cellPut_same _ _ _ _ ((m.wf_iff.mp h).1)

/-- Writing one byte leaves every other byte. -/
theorem Memory.get_set_ne (m : Memory) {a i : Nat} (v : Byte) (h : m.wf = true) (hi : i ≠ a) :
    (m.set a v).get i = m.get i :=
  look_cellPut_ne _ _ _ _ ((m.wf_iff.mp h).1) hi

/-- A byte write keeps the canonical form. -/
theorem Memory.wf_set (m : Memory) (a : Nat) (v : Byte) (h : m.wf = true) : (m.set a v).wf = true := by
  rw [Memory.wf_iff] at h ⊢
  refine ⟨rising_cellPut _ _ _ _ h.1, fun e he => ?_⟩
  rcases mem_cellPut he with ⟨rfl, hv⟩ | he
  · exact hv
  · exact h.2 e he

/-- A write of several bytes keeps the canonical form. -/
theorem Memory.wf_setBytes (m : Memory) (a : Nat) (l : List Byte) (h : m.wf = true) : (m.setBytes a l).wf = true := by
  induction l generalizing m a with
  | nil => exact h
  | cons b t ih => exact ih _ _ (m.wf_set a b h)

theorem Memory.wf_setWord (m : Memory) (a : Nat) (w : Word) (h : m.wf = true) : (m.setWord a w).wf = true :=
  m.wf_setBytes a _ h

/-- Bytes outside a written range stay. -/
theorem Memory.get_setBytes_ne (m : Memory) (a : Nat) (l : List Byte) {i : Nat} (h : m.wf = true)
    (hi : i < a ∨ a + l.length ≤ i) : (m.setBytes a l).get i = m.get i := by
  induction l generalizing m a with
  | nil => rfl
  | cons b t ih =>
    have h2 : (b :: t).length = t.length + 1 := rfl
    have h1 : ((m.set a b).setBytes (a + 1) t).get i = (m.set a b).get i :=
      ih _ _ (m.wf_set a b h) (by omega)
    have h3 : (m.set a b).get i = m.get i := m.get_set_ne b h (by omega)
    exact h1.trans h3

/-- The bytes of a written range read as written. -/
theorem Memory.get_setBytes (m : Memory) (a : Nat) (l : List Byte) (h : m.wf = true) (i : Nat) (hi : i < l.length) :
    (m.setBytes a l).get (a + i) = l[i] := by
  induction l generalizing m a i with
  | nil => cases hi
  | cons b t ih =>
    cases i with
    | zero =>
      have h1 : ((m.set a b).setBytes (a + 1) t).get a = (m.set a b).get a :=
        (m.set a b).get_setBytes_ne (a + 1) t (m.wf_set a b h) (by omega)
      exact h1.trans (m.get_set_same a b h)
    | succ i =>
      have h2 : i < t.length := Nat.lt_of_succ_lt_succ hi
      have h1 := ih (m.set a b) (a + 1) (m.wf_set a b h) i h2
      rw [show a + (i + 1) = a + 1 + i by omega]
      exact h1

/-- A region that loses its contents keeps the canonical form: nothing in it stays listed. -/
theorem Memory.wf_undefine (m : Memory) (lo len gen : Nat) (h : m.wf = true) : (m.undefine lo len gen).wf = true := by
  rw [Memory.wf_iff] at h ⊢
  refine ⟨rising_filter _ _ h.1, fun e he => ?_⟩
  have hm := List.mem_filter.mp he
  have hu : (m.undefine lo len gen).unlisted e.1 = m.unlisted e.1 := by
    have hn : (decide (lo ≤ e.1) && decide (e.1 < lo + len)) = false := by simpa only [Bool.not_eq_true'] using hm.2
    simp [Memory.unlisted, Memory.undefine, hn]
  rw [hu]
  exact h.2 e hm.1

/-- Outside a region that loses its contents, memory stays. -/
theorem Memory.get_undefine_ne (m : Memory) (lo len gen : Nat) {i : Nat} (h : m.wf = true) (hi : i < lo ∨ lo + len ≤ i) :
    (m.undefine lo len gen).get i = m.get i := by
  have hn : (decide (lo ≤ i) && decide (i < lo + len)) = false := by
    rcases hi with h | h
    · rw [decide_eq_false (by omega)]; rfl
    · rw [decide_eq_false (p := i < lo + len) (by omega), Bool.and_false]
  have hu : (m.undefine lo len gen).unlisted i = m.unlisted i := by
    simp [Memory.unlisted, Memory.undefine, hn]
  unfold Memory.get
  rw [hu]
  generalize m.unlisted i = d
  exact look_filter d (fun j => !(decide (lo ≤ j) && decide (j < lo + len))) m.cells ((m.wf_iff.mp h).1) (by simp [hn])

end Sys2Proof.Machine
end

