-- ==== Sys2Proof/Laws/State.lean ====
section
/-! SUPPORT. What each named update of the chip leaves: one lemma per field and update, so that no proof unfolds a record
update. -/

namespace Sys2Proof.Machine

@[simp] theorem Chip.wr_rdata (c : Chip) (k : Nat) (v : Word) : (c.wr k v).rdata = c.rdata := rfl
@[simp] theorem Chip.wr_rwords (c : Chip) (k : Nat) (v : Word) : (c.wr k v).rwords = c.rwords := rfl
@[simp] theorem Chip.wr_freeCtr (c : Chip) (k : Nat) (v : Word) : (c.wr k v).freeCtr = c.freeCtr := rfl
@[simp] theorem Chip.wr_stall (c : Chip) (k : Nat) (v : Word) : (c.wr k v).stall = c.stall := rfl
@[simp] theorem Chip.wr_tb (c : Chip) (k : Nat) (v : Word) : (c.wr k v).tb = c.tb := rfl
@[simp] theorem Chip.wr_hub (c : Chip) (k : Nat) (v : Word) : (c.wr k v).hub = c.hub := rfl
@[simp] theorem Chip.wr_bank (c : Chip) (k : Nat) (v : Word) : (c.wr k v).bank = c.bank := rfl
@[simp] theorem Chip.wr_qf (c : Chip) (k : Nat) (v : Word) : (c.wr k v).qf = c.qf := rfl
@[simp] theorem Chip.wr_ledger (c : Chip) (k : Nat) (v : Word) : (c.wr k v).ledger = c.ledger := rfl
@[simp] theorem Chip.wr_tick (c : Chip) (k : Nat) (v : Word) : (c.wr k v).tick = c.tick := rfl
@[simp] theorem Chip.wr_snap (c : Chip) (k : Nat) (v : Word) : (c.wr k v).snap = c.snap := rfl
@[simp] theorem Chip.wr_patch (c : Chip) (k : Nat) (v : Word) : (c.wr k v).patch = c.patch := rfl
@[simp] theorem Chip.wr_dmix (c : Chip) (k : Nat) (v : Word) : (c.wr k v).dmix = c.dmix := rfl
@[simp] theorem Chip.wr_cores (c : Chip) (k : Nat) (v : Word) : (c.wr k v).cores = c.cores := rfl
@[simp] theorem Chip.wr_cur (c : Chip) (k : Nat) (v : Word) : (c.wr k v).cur = c.cur := rfl
@[simp] theorem Chip.wr_sap (c : Chip) (k : Nat) (v : Word) : (c.wr k v).sap = c.sap := rfl
@[simp] theorem Chip.wr_aes (c : Chip) (k : Nat) (v : Word) : (c.wr k v).aes = c.aes := rfl
@[simp] theorem Chip.wr_asrc (c : Chip) (k : Nat) (v : Word) : (c.wr k v).asrc = c.asrc := rfl
@[simp] theorem Chip.wr_jack (c : Chip) (k : Nat) (v : Word) : (c.wr k v).jack = c.jack := rfl
@[simp] theorem Chip.wr_aster (c : Chip) (k : Nat) (v : Word) : (c.wr k v).aster = c.aster := rfl
@[simp] theorem Chip.wr_clk (c : Chip) (k : Nat) (v : Word) : (c.wr k v).clk = c.clk := rfl
@[simp] theorem Chip.wr_lanes (c : Chip) (k : Nat) (v : Word) : (c.wr k v).lanes = c.lanes := rfl
@[simp] theorem Chip.wr_iris (c : Chip) (k : Nat) (v : Word) : (c.wr k v).iris = c.iris := rfl
@[simp] theorem Chip.wr_dram (c : Chip) (k : Nat) (v : Word) : (c.wr k v).dram = c.dram := rfl
@[simp] theorem Chip.wr_mtx (c : Chip) (k : Nat) (v : Word) : (c.wr k v).mtx = c.mtx := rfl
@[simp] theorem Chip.wr_eth (c : Chip) (k : Nat) (v : Word) : (c.wr k v).eth = c.eth := rfl
@[simp] theorem Chip.wr_cb0 (c : Chip) (k : Nat) (v : Word) : (c.wr k v).cb0 = c.cb0 := rfl
@[simp] theorem Chip.wr_pwr (c : Chip) (k : Nat) (v : Word) : (c.wr k v).pwr = c.pwr := rfl
@[simp] theorem Chip.wr_strm (c : Chip) (k : Nat) (v : Word) : (c.wr k v).strm = c.strm := rfl
@[simp] theorem Chip.wr_stem (c : Chip) (k : Nat) (v : Word) : (c.wr k v).stem = c.stem := rfl
@[simp] theorem Chip.wr_spk (c : Chip) (k : Nat) (v : Word) : (c.wr k v).spk = c.spk := rfl
@[simp] theorem Chip.wr_fg (c : Chip) (k : Nat) (v : Word) : (c.wr k v).fg = c.fg := rfl
@[simp] theorem Chip.wr_mgld (c : Chip) (k : Nat) (v : Word) : (c.wr k v).mgld = c.mgld := rfl

@[simp] theorem Chip.wrf_rdata (c : Chip) (k hi lo v : Nat) : (c.wrf k hi lo v).rdata = c.rdata := rfl
@[simp] theorem Chip.wrf_rwords (c : Chip) (k hi lo v : Nat) : (c.wrf k hi lo v).rwords = c.rwords := rfl
@[simp] theorem Chip.wrf_freeCtr (c : Chip) (k hi lo v : Nat) : (c.wrf k hi lo v).freeCtr = c.freeCtr := rfl
@[simp] theorem Chip.wrf_stall (c : Chip) (k hi lo v : Nat) : (c.wrf k hi lo v).stall = c.stall := rfl
@[simp] theorem Chip.wrf_tb (c : Chip) (k hi lo v : Nat) : (c.wrf k hi lo v).tb = c.tb := rfl
@[simp] theorem Chip.wrf_hub (c : Chip) (k hi lo v : Nat) : (c.wrf k hi lo v).hub = c.hub := rfl
@[simp] theorem Chip.wrf_bank (c : Chip) (k hi lo v : Nat) : (c.wrf k hi lo v).bank = c.bank := rfl
@[simp] theorem Chip.wrf_qf (c : Chip) (k hi lo v : Nat) : (c.wrf k hi lo v).qf = c.qf := rfl
@[simp] theorem Chip.wrf_ledger (c : Chip) (k hi lo v : Nat) : (c.wrf k hi lo v).ledger = c.ledger := rfl
@[simp] theorem Chip.wrf_tick (c : Chip) (k hi lo v : Nat) : (c.wrf k hi lo v).tick = c.tick := rfl
@[simp] theorem Chip.wrf_snap (c : Chip) (k hi lo v : Nat) : (c.wrf k hi lo v).snap = c.snap := rfl
@[simp] theorem Chip.wrf_patch (c : Chip) (k hi lo v : Nat) : (c.wrf k hi lo v).patch = c.patch := rfl
@[simp] theorem Chip.wrf_dmix (c : Chip) (k hi lo v : Nat) : (c.wrf k hi lo v).dmix = c.dmix := rfl
@[simp] theorem Chip.wrf_cores (c : Chip) (k hi lo v : Nat) : (c.wrf k hi lo v).cores = c.cores := rfl
@[simp] theorem Chip.wrf_cur (c : Chip) (k hi lo v : Nat) : (c.wrf k hi lo v).cur = c.cur := rfl
@[simp] theorem Chip.wrf_sap (c : Chip) (k hi lo v : Nat) : (c.wrf k hi lo v).sap = c.sap := rfl
@[simp] theorem Chip.wrf_aes (c : Chip) (k hi lo v : Nat) : (c.wrf k hi lo v).aes = c.aes := rfl
@[simp] theorem Chip.wrf_asrc (c : Chip) (k hi lo v : Nat) : (c.wrf k hi lo v).asrc = c.asrc := rfl
@[simp] theorem Chip.wrf_jack (c : Chip) (k hi lo v : Nat) : (c.wrf k hi lo v).jack = c.jack := rfl
@[simp] theorem Chip.wrf_aster (c : Chip) (k hi lo v : Nat) : (c.wrf k hi lo v).aster = c.aster := rfl
@[simp] theorem Chip.wrf_clk (c : Chip) (k hi lo v : Nat) : (c.wrf k hi lo v).clk = c.clk := rfl
@[simp] theorem Chip.wrf_lanes (c : Chip) (k hi lo v : Nat) : (c.wrf k hi lo v).lanes = c.lanes := rfl
@[simp] theorem Chip.wrf_iris (c : Chip) (k hi lo v : Nat) : (c.wrf k hi lo v).iris = c.iris := rfl
@[simp] theorem Chip.wrf_dram (c : Chip) (k hi lo v : Nat) : (c.wrf k hi lo v).dram = c.dram := rfl
@[simp] theorem Chip.wrf_mtx (c : Chip) (k hi lo v : Nat) : (c.wrf k hi lo v).mtx = c.mtx := rfl
@[simp] theorem Chip.wrf_eth (c : Chip) (k hi lo v : Nat) : (c.wrf k hi lo v).eth = c.eth := rfl
@[simp] theorem Chip.wrf_cb0 (c : Chip) (k hi lo v : Nat) : (c.wrf k hi lo v).cb0 = c.cb0 := rfl
@[simp] theorem Chip.wrf_pwr (c : Chip) (k hi lo v : Nat) : (c.wrf k hi lo v).pwr = c.pwr := rfl
@[simp] theorem Chip.wrf_strm (c : Chip) (k hi lo v : Nat) : (c.wrf k hi lo v).strm = c.strm := rfl
@[simp] theorem Chip.wrf_stem (c : Chip) (k hi lo v : Nat) : (c.wrf k hi lo v).stem = c.stem := rfl
@[simp] theorem Chip.wrf_spk (c : Chip) (k hi lo v : Nat) : (c.wrf k hi lo v).spk = c.spk := rfl
@[simp] theorem Chip.wrf_fg (c : Chip) (k hi lo v : Nat) : (c.wrf k hi lo v).fg = c.fg := rfl
@[simp] theorem Chip.wrf_mgld (c : Chip) (k hi lo v : Nat) : (c.wrf k hi lo v).mgld = c.mgld := rfl

@[simp] theorem Chip.wrb_rdata (c : Chip) (k i : Nat) (b : Bool) : (c.wrb k i b).rdata = c.rdata := rfl
@[simp] theorem Chip.wrb_rwords (c : Chip) (k i : Nat) (b : Bool) : (c.wrb k i b).rwords = c.rwords := rfl
@[simp] theorem Chip.wrb_freeCtr (c : Chip) (k i : Nat) (b : Bool) : (c.wrb k i b).freeCtr = c.freeCtr := rfl
@[simp] theorem Chip.wrb_stall (c : Chip) (k i : Nat) (b : Bool) : (c.wrb k i b).stall = c.stall := rfl
@[simp] theorem Chip.wrb_tb (c : Chip) (k i : Nat) (b : Bool) : (c.wrb k i b).tb = c.tb := rfl
@[simp] theorem Chip.wrb_hub (c : Chip) (k i : Nat) (b : Bool) : (c.wrb k i b).hub = c.hub := rfl
@[simp] theorem Chip.wrb_bank (c : Chip) (k i : Nat) (b : Bool) : (c.wrb k i b).bank = c.bank := rfl
@[simp] theorem Chip.wrb_qf (c : Chip) (k i : Nat) (b : Bool) : (c.wrb k i b).qf = c.qf := rfl
@[simp] theorem Chip.wrb_ledger (c : Chip) (k i : Nat) (b : Bool) : (c.wrb k i b).ledger = c.ledger := rfl
@[simp] theorem Chip.wrb_tick (c : Chip) (k i : Nat) (b : Bool) : (c.wrb k i b).tick = c.tick := rfl
@[simp] theorem Chip.wrb_snap (c : Chip) (k i : Nat) (b : Bool) : (c.wrb k i b).snap = c.snap := rfl
@[simp] theorem Chip.wrb_patch (c : Chip) (k i : Nat) (b : Bool) : (c.wrb k i b).patch = c.patch := rfl
@[simp] theorem Chip.wrb_dmix (c : Chip) (k i : Nat) (b : Bool) : (c.wrb k i b).dmix = c.dmix := rfl
@[simp] theorem Chip.wrb_cores (c : Chip) (k i : Nat) (b : Bool) : (c.wrb k i b).cores = c.cores := rfl
@[simp] theorem Chip.wrb_cur (c : Chip) (k i : Nat) (b : Bool) : (c.wrb k i b).cur = c.cur := rfl
@[simp] theorem Chip.wrb_sap (c : Chip) (k i : Nat) (b : Bool) : (c.wrb k i b).sap = c.sap := rfl
@[simp] theorem Chip.wrb_aes (c : Chip) (k i : Nat) (b : Bool) : (c.wrb k i b).aes = c.aes := rfl
@[simp] theorem Chip.wrb_asrc (c : Chip) (k i : Nat) (b : Bool) : (c.wrb k i b).asrc = c.asrc := rfl
@[simp] theorem Chip.wrb_jack (c : Chip) (k i : Nat) (b : Bool) : (c.wrb k i b).jack = c.jack := rfl
@[simp] theorem Chip.wrb_aster (c : Chip) (k i : Nat) (b : Bool) : (c.wrb k i b).aster = c.aster := rfl
@[simp] theorem Chip.wrb_clk (c : Chip) (k i : Nat) (b : Bool) : (c.wrb k i b).clk = c.clk := rfl
@[simp] theorem Chip.wrb_lanes (c : Chip) (k i : Nat) (b : Bool) : (c.wrb k i b).lanes = c.lanes := rfl
@[simp] theorem Chip.wrb_iris (c : Chip) (k i : Nat) (b : Bool) : (c.wrb k i b).iris = c.iris := rfl
@[simp] theorem Chip.wrb_dram (c : Chip) (k i : Nat) (b : Bool) : (c.wrb k i b).dram = c.dram := rfl
@[simp] theorem Chip.wrb_mtx (c : Chip) (k i : Nat) (b : Bool) : (c.wrb k i b).mtx = c.mtx := rfl
@[simp] theorem Chip.wrb_eth (c : Chip) (k i : Nat) (b : Bool) : (c.wrb k i b).eth = c.eth := rfl
@[simp] theorem Chip.wrb_cb0 (c : Chip) (k i : Nat) (b : Bool) : (c.wrb k i b).cb0 = c.cb0 := rfl
@[simp] theorem Chip.wrb_pwr (c : Chip) (k i : Nat) (b : Bool) : (c.wrb k i b).pwr = c.pwr := rfl
@[simp] theorem Chip.wrb_strm (c : Chip) (k i : Nat) (b : Bool) : (c.wrb k i b).strm = c.strm := rfl
@[simp] theorem Chip.wrb_stem (c : Chip) (k i : Nat) (b : Bool) : (c.wrb k i b).stem = c.stem := rfl
@[simp] theorem Chip.wrb_spk (c : Chip) (k i : Nat) (b : Bool) : (c.wrb k i b).spk = c.spk := rfl
@[simp] theorem Chip.wrb_fg (c : Chip) (k i : Nat) (b : Bool) : (c.wrb k i b).fg = c.fg := rfl
@[simp] theorem Chip.wrb_mgld (c : Chip) (k i : Nat) (b : Bool) : (c.wrb k i b).mgld = c.mgld := rfl

@[simp] theorem Chip.irq_rdata (c : Chip) (p b : Nat) : (c.irq p b).rdata = c.rdata := rfl
@[simp] theorem Chip.irq_rwords (c : Chip) (p b : Nat) : (c.irq p b).rwords = c.rwords := rfl
@[simp] theorem Chip.irq_freeCtr (c : Chip) (p b : Nat) : (c.irq p b).freeCtr = c.freeCtr := rfl
@[simp] theorem Chip.irq_stall (c : Chip) (p b : Nat) : (c.irq p b).stall = c.stall := rfl
@[simp] theorem Chip.irq_tb (c : Chip) (p b : Nat) : (c.irq p b).tb = c.tb := rfl
@[simp] theorem Chip.irq_hub (c : Chip) (p b : Nat) : (c.irq p b).hub = c.hub := rfl
@[simp] theorem Chip.irq_bank (c : Chip) (p b : Nat) : (c.irq p b).bank = c.bank := rfl
@[simp] theorem Chip.irq_qf (c : Chip) (p b : Nat) : (c.irq p b).qf = c.qf := rfl
@[simp] theorem Chip.irq_ledger (c : Chip) (p b : Nat) : (c.irq p b).ledger = c.ledger := rfl
@[simp] theorem Chip.irq_tick (c : Chip) (p b : Nat) : (c.irq p b).tick = c.tick := rfl
@[simp] theorem Chip.irq_snap (c : Chip) (p b : Nat) : (c.irq p b).snap = c.snap := rfl
@[simp] theorem Chip.irq_patch (c : Chip) (p b : Nat) : (c.irq p b).patch = c.patch := rfl
@[simp] theorem Chip.irq_dmix (c : Chip) (p b : Nat) : (c.irq p b).dmix = c.dmix := rfl
@[simp] theorem Chip.irq_cores (c : Chip) (p b : Nat) : (c.irq p b).cores = c.cores := rfl
@[simp] theorem Chip.irq_cur (c : Chip) (p b : Nat) : (c.irq p b).cur = c.cur := rfl
@[simp] theorem Chip.irq_sap (c : Chip) (p b : Nat) : (c.irq p b).sap = c.sap := rfl
@[simp] theorem Chip.irq_aes (c : Chip) (p b : Nat) : (c.irq p b).aes = c.aes := rfl
@[simp] theorem Chip.irq_asrc (c : Chip) (p b : Nat) : (c.irq p b).asrc = c.asrc := rfl
@[simp] theorem Chip.irq_jack (c : Chip) (p b : Nat) : (c.irq p b).jack = c.jack := rfl
@[simp] theorem Chip.irq_aster (c : Chip) (p b : Nat) : (c.irq p b).aster = c.aster := rfl
@[simp] theorem Chip.irq_clk (c : Chip) (p b : Nat) : (c.irq p b).clk = c.clk := rfl
@[simp] theorem Chip.irq_lanes (c : Chip) (p b : Nat) : (c.irq p b).lanes = c.lanes := rfl
@[simp] theorem Chip.irq_iris (c : Chip) (p b : Nat) : (c.irq p b).iris = c.iris := rfl
@[simp] theorem Chip.irq_dram (c : Chip) (p b : Nat) : (c.irq p b).dram = c.dram := rfl
@[simp] theorem Chip.irq_mtx (c : Chip) (p b : Nat) : (c.irq p b).mtx = c.mtx := rfl
@[simp] theorem Chip.irq_eth (c : Chip) (p b : Nat) : (c.irq p b).eth = c.eth := rfl
@[simp] theorem Chip.irq_cb0 (c : Chip) (p b : Nat) : (c.irq p b).cb0 = c.cb0 := rfl
@[simp] theorem Chip.irq_pwr (c : Chip) (p b : Nat) : (c.irq p b).pwr = c.pwr := rfl
@[simp] theorem Chip.irq_strm (c : Chip) (p b : Nat) : (c.irq p b).strm = c.strm := rfl
@[simp] theorem Chip.irq_stem (c : Chip) (p b : Nat) : (c.irq p b).stem = c.stem := rfl
@[simp] theorem Chip.irq_spk (c : Chip) (p b : Nat) : (c.irq p b).spk = c.spk := rfl
@[simp] theorem Chip.irq_fg (c : Chip) (p b : Nat) : (c.irq p b).fg = c.fg := rfl
@[simp] theorem Chip.irq_mgld (c : Chip) (p b : Nat) : (c.irq p b).mgld = c.mgld := rfl

@[simp] theorem Chip.irqIf_rdata (c : Chip) (q : Bool) (p b : Nat) : (c.irqIf q p b).rdata = c.rdata := by cases q <;> rfl
@[simp] theorem Chip.irqIf_rwords (c : Chip) (q : Bool) (p b : Nat) : (c.irqIf q p b).rwords = c.rwords := by cases q <;> rfl
@[simp] theorem Chip.irqIf_freeCtr (c : Chip) (q : Bool) (p b : Nat) : (c.irqIf q p b).freeCtr = c.freeCtr := by cases q <;> rfl
@[simp] theorem Chip.irqIf_stall (c : Chip) (q : Bool) (p b : Nat) : (c.irqIf q p b).stall = c.stall := by cases q <;> rfl
@[simp] theorem Chip.irqIf_tb (c : Chip) (q : Bool) (p b : Nat) : (c.irqIf q p b).tb = c.tb := by cases q <;> rfl
@[simp] theorem Chip.irqIf_hub (c : Chip) (q : Bool) (p b : Nat) : (c.irqIf q p b).hub = c.hub := by cases q <;> rfl
@[simp] theorem Chip.irqIf_bank (c : Chip) (q : Bool) (p b : Nat) : (c.irqIf q p b).bank = c.bank := by cases q <;> rfl
@[simp] theorem Chip.irqIf_qf (c : Chip) (q : Bool) (p b : Nat) : (c.irqIf q p b).qf = c.qf := by cases q <;> rfl
@[simp] theorem Chip.irqIf_ledger (c : Chip) (q : Bool) (p b : Nat) : (c.irqIf q p b).ledger = c.ledger := by cases q <;> rfl
@[simp] theorem Chip.irqIf_tick (c : Chip) (q : Bool) (p b : Nat) : (c.irqIf q p b).tick = c.tick := by cases q <;> rfl
@[simp] theorem Chip.irqIf_snap (c : Chip) (q : Bool) (p b : Nat) : (c.irqIf q p b).snap = c.snap := by cases q <;> rfl
@[simp] theorem Chip.irqIf_patch (c : Chip) (q : Bool) (p b : Nat) : (c.irqIf q p b).patch = c.patch := by cases q <;> rfl
@[simp] theorem Chip.irqIf_dmix (c : Chip) (q : Bool) (p b : Nat) : (c.irqIf q p b).dmix = c.dmix := by cases q <;> rfl
@[simp] theorem Chip.irqIf_cores (c : Chip) (q : Bool) (p b : Nat) : (c.irqIf q p b).cores = c.cores := by cases q <;> rfl
@[simp] theorem Chip.irqIf_cur (c : Chip) (q : Bool) (p b : Nat) : (c.irqIf q p b).cur = c.cur := by cases q <;> rfl
@[simp] theorem Chip.irqIf_sap (c : Chip) (q : Bool) (p b : Nat) : (c.irqIf q p b).sap = c.sap := by cases q <;> rfl
@[simp] theorem Chip.irqIf_aes (c : Chip) (q : Bool) (p b : Nat) : (c.irqIf q p b).aes = c.aes := by cases q <;> rfl
@[simp] theorem Chip.irqIf_asrc (c : Chip) (q : Bool) (p b : Nat) : (c.irqIf q p b).asrc = c.asrc := by cases q <;> rfl
@[simp] theorem Chip.irqIf_jack (c : Chip) (q : Bool) (p b : Nat) : (c.irqIf q p b).jack = c.jack := by cases q <;> rfl
@[simp] theorem Chip.irqIf_aster (c : Chip) (q : Bool) (p b : Nat) : (c.irqIf q p b).aster = c.aster := by cases q <;> rfl
@[simp] theorem Chip.irqIf_clk (c : Chip) (q : Bool) (p b : Nat) : (c.irqIf q p b).clk = c.clk := by cases q <;> rfl
@[simp] theorem Chip.irqIf_lanes (c : Chip) (q : Bool) (p b : Nat) : (c.irqIf q p b).lanes = c.lanes := by cases q <;> rfl
@[simp] theorem Chip.irqIf_iris (c : Chip) (q : Bool) (p b : Nat) : (c.irqIf q p b).iris = c.iris := by cases q <;> rfl
@[simp] theorem Chip.irqIf_dram (c : Chip) (q : Bool) (p b : Nat) : (c.irqIf q p b).dram = c.dram := by cases q <;> rfl
@[simp] theorem Chip.irqIf_mtx (c : Chip) (q : Bool) (p b : Nat) : (c.irqIf q p b).mtx = c.mtx := by cases q <;> rfl
@[simp] theorem Chip.irqIf_eth (c : Chip) (q : Bool) (p b : Nat) : (c.irqIf q p b).eth = c.eth := by cases q <;> rfl
@[simp] theorem Chip.irqIf_cb0 (c : Chip) (q : Bool) (p b : Nat) : (c.irqIf q p b).cb0 = c.cb0 := by cases q <;> rfl
@[simp] theorem Chip.irqIf_pwr (c : Chip) (q : Bool) (p b : Nat) : (c.irqIf q p b).pwr = c.pwr := by cases q <;> rfl
@[simp] theorem Chip.irqIf_strm (c : Chip) (q : Bool) (p b : Nat) : (c.irqIf q p b).strm = c.strm := by cases q <;> rfl
@[simp] theorem Chip.irqIf_stem (c : Chip) (q : Bool) (p b : Nat) : (c.irqIf q p b).stem = c.stem := by cases q <;> rfl
@[simp] theorem Chip.irqIf_spk (c : Chip) (q : Bool) (p b : Nat) : (c.irqIf q p b).spk = c.spk := by cases q <;> rfl
@[simp] theorem Chip.irqIf_fg (c : Chip) (q : Bool) (p b : Nat) : (c.irqIf q p b).fg = c.fg := by cases q <;> rfl
@[simp] theorem Chip.irqIf_mgld (c : Chip) (q : Bool) (p b : Nat) : (c.irqIf q p b).mgld = c.mgld := by cases q <;> rfl

@[simp] theorem Chip.err_rdata (c : Chip) (p code : Nat) (i : Word) : (c.err p code i).rdata = c.rdata := by unfold Chip.err; split <;> rfl
@[simp] theorem Chip.err_rwords (c : Chip) (p code : Nat) (i : Word) : (c.err p code i).rwords = c.rwords := by unfold Chip.err; split <;> rfl
@[simp] theorem Chip.err_freeCtr (c : Chip) (p code : Nat) (i : Word) : (c.err p code i).freeCtr = c.freeCtr := by unfold Chip.err; split <;> rfl
@[simp] theorem Chip.err_stall (c : Chip) (p code : Nat) (i : Word) : (c.err p code i).stall = c.stall := by unfold Chip.err; split <;> rfl
@[simp] theorem Chip.err_tb (c : Chip) (p code : Nat) (i : Word) : (c.err p code i).tb = c.tb := by unfold Chip.err; split <;> rfl
@[simp] theorem Chip.err_hub (c : Chip) (p code : Nat) (i : Word) : (c.err p code i).hub = c.hub := by unfold Chip.err; split <;> rfl
@[simp] theorem Chip.err_bank (c : Chip) (p code : Nat) (i : Word) : (c.err p code i).bank = c.bank := by unfold Chip.err; split <;> rfl
@[simp] theorem Chip.err_qf (c : Chip) (p code : Nat) (i : Word) : (c.err p code i).qf = c.qf := by unfold Chip.err; split <;> rfl
@[simp] theorem Chip.err_ledger (c : Chip) (p code : Nat) (i : Word) : (c.err p code i).ledger = c.ledger := by unfold Chip.err; split <;> rfl
@[simp] theorem Chip.err_tick (c : Chip) (p code : Nat) (i : Word) : (c.err p code i).tick = c.tick := by unfold Chip.err; split <;> rfl
@[simp] theorem Chip.err_snap (c : Chip) (p code : Nat) (i : Word) : (c.err p code i).snap = c.snap := by unfold Chip.err; split <;> rfl
@[simp] theorem Chip.err_patch (c : Chip) (p code : Nat) (i : Word) : (c.err p code i).patch = c.patch := by unfold Chip.err; split <;> rfl
@[simp] theorem Chip.err_dmix (c : Chip) (p code : Nat) (i : Word) : (c.err p code i).dmix = c.dmix := by unfold Chip.err; split <;> rfl
@[simp] theorem Chip.err_cores (c : Chip) (p code : Nat) (i : Word) : (c.err p code i).cores = c.cores := by unfold Chip.err; split <;> rfl
@[simp] theorem Chip.err_cur (c : Chip) (p code : Nat) (i : Word) : (c.err p code i).cur = c.cur := by unfold Chip.err; split <;> rfl
@[simp] theorem Chip.err_sap (c : Chip) (p code : Nat) (i : Word) : (c.err p code i).sap = c.sap := by unfold Chip.err; split <;> rfl
@[simp] theorem Chip.err_aes (c : Chip) (p code : Nat) (i : Word) : (c.err p code i).aes = c.aes := by unfold Chip.err; split <;> rfl
@[simp] theorem Chip.err_asrc (c : Chip) (p code : Nat) (i : Word) : (c.err p code i).asrc = c.asrc := by unfold Chip.err; split <;> rfl
@[simp] theorem Chip.err_jack (c : Chip) (p code : Nat) (i : Word) : (c.err p code i).jack = c.jack := by unfold Chip.err; split <;> rfl
@[simp] theorem Chip.err_aster (c : Chip) (p code : Nat) (i : Word) : (c.err p code i).aster = c.aster := by unfold Chip.err; split <;> rfl
@[simp] theorem Chip.err_clk (c : Chip) (p code : Nat) (i : Word) : (c.err p code i).clk = c.clk := by unfold Chip.err; split <;> rfl
@[simp] theorem Chip.err_lanes (c : Chip) (p code : Nat) (i : Word) : (c.err p code i).lanes = c.lanes := by unfold Chip.err; split <;> rfl
@[simp] theorem Chip.err_iris (c : Chip) (p code : Nat) (i : Word) : (c.err p code i).iris = c.iris := by unfold Chip.err; split <;> rfl
@[simp] theorem Chip.err_dram (c : Chip) (p code : Nat) (i : Word) : (c.err p code i).dram = c.dram := by unfold Chip.err; split <;> rfl
@[simp] theorem Chip.err_mtx (c : Chip) (p code : Nat) (i : Word) : (c.err p code i).mtx = c.mtx := by unfold Chip.err; split <;> rfl
@[simp] theorem Chip.err_eth (c : Chip) (p code : Nat) (i : Word) : (c.err p code i).eth = c.eth := by unfold Chip.err; split <;> rfl
@[simp] theorem Chip.err_cb0 (c : Chip) (p code : Nat) (i : Word) : (c.err p code i).cb0 = c.cb0 := by unfold Chip.err; split <;> rfl
@[simp] theorem Chip.err_pwr (c : Chip) (p code : Nat) (i : Word) : (c.err p code i).pwr = c.pwr := by unfold Chip.err; split <;> rfl
@[simp] theorem Chip.err_strm (c : Chip) (p code : Nat) (i : Word) : (c.err p code i).strm = c.strm := by unfold Chip.err; split <;> rfl
@[simp] theorem Chip.err_stem (c : Chip) (p code : Nat) (i : Word) : (c.err p code i).stem = c.stem := by unfold Chip.err; split <;> rfl
@[simp] theorem Chip.err_spk (c : Chip) (p code : Nat) (i : Word) : (c.err p code i).spk = c.spk := by unfold Chip.err; split <;> rfl
@[simp] theorem Chip.err_fg (c : Chip) (p code : Nat) (i : Word) : (c.err p code i).fg = c.fg := by unfold Chip.err; split <;> rfl
@[simp] theorem Chip.err_mgld (c : Chip) (p code : Nat) (i : Word) : (c.err p code i).mgld = c.mgld := by unfold Chip.err; split <;> rfl

@[simp] theorem Chip.stat_rdata (c : Chip) (k : Nat) (v : Word) : (c.stat k v).rdata = c.rdata := by unfold Chip.stat; split <;> rfl
@[simp] theorem Chip.stat_rwords (c : Chip) (k : Nat) (v : Word) : (c.stat k v).rwords = c.rwords := by unfold Chip.stat; split <;> rfl
@[simp] theorem Chip.stat_freeCtr (c : Chip) (k : Nat) (v : Word) : (c.stat k v).freeCtr = c.freeCtr := by unfold Chip.stat; split <;> rfl
@[simp] theorem Chip.stat_stall (c : Chip) (k : Nat) (v : Word) : (c.stat k v).stall = c.stall := by unfold Chip.stat; split <;> rfl
@[simp] theorem Chip.stat_tb (c : Chip) (k : Nat) (v : Word) : (c.stat k v).tb = c.tb := by unfold Chip.stat; split <;> rfl
@[simp] theorem Chip.stat_hub (c : Chip) (k : Nat) (v : Word) : (c.stat k v).hub = c.hub := by unfold Chip.stat; split <;> rfl
@[simp] theorem Chip.stat_bank (c : Chip) (k : Nat) (v : Word) : (c.stat k v).bank = c.bank := by unfold Chip.stat; split <;> rfl
@[simp] theorem Chip.stat_qf (c : Chip) (k : Nat) (v : Word) : (c.stat k v).qf = c.qf := by unfold Chip.stat; split <;> rfl
@[simp] theorem Chip.stat_ledger (c : Chip) (k : Nat) (v : Word) : (c.stat k v).ledger = c.ledger := by unfold Chip.stat; split <;> rfl
@[simp] theorem Chip.stat_tick (c : Chip) (k : Nat) (v : Word) : (c.stat k v).tick = c.tick := by unfold Chip.stat; split <;> rfl
@[simp] theorem Chip.stat_snap (c : Chip) (k : Nat) (v : Word) : (c.stat k v).snap = c.snap := by unfold Chip.stat; split <;> rfl
@[simp] theorem Chip.stat_patch (c : Chip) (k : Nat) (v : Word) : (c.stat k v).patch = c.patch := by unfold Chip.stat; split <;> rfl
@[simp] theorem Chip.stat_dmix (c : Chip) (k : Nat) (v : Word) : (c.stat k v).dmix = c.dmix := by unfold Chip.stat; split <;> rfl
@[simp] theorem Chip.stat_cores (c : Chip) (k : Nat) (v : Word) : (c.stat k v).cores = c.cores := by unfold Chip.stat; split <;> rfl
@[simp] theorem Chip.stat_cur (c : Chip) (k : Nat) (v : Word) : (c.stat k v).cur = c.cur := by unfold Chip.stat; split <;> rfl
@[simp] theorem Chip.stat_sap (c : Chip) (k : Nat) (v : Word) : (c.stat k v).sap = c.sap := by unfold Chip.stat; split <;> rfl
@[simp] theorem Chip.stat_aes (c : Chip) (k : Nat) (v : Word) : (c.stat k v).aes = c.aes := by unfold Chip.stat; split <;> rfl
@[simp] theorem Chip.stat_asrc (c : Chip) (k : Nat) (v : Word) : (c.stat k v).asrc = c.asrc := by unfold Chip.stat; split <;> rfl
@[simp] theorem Chip.stat_jack (c : Chip) (k : Nat) (v : Word) : (c.stat k v).jack = c.jack := by unfold Chip.stat; split <;> rfl
@[simp] theorem Chip.stat_aster (c : Chip) (k : Nat) (v : Word) : (c.stat k v).aster = c.aster := by unfold Chip.stat; split <;> rfl
@[simp] theorem Chip.stat_clk (c : Chip) (k : Nat) (v : Word) : (c.stat k v).clk = c.clk := by unfold Chip.stat; split <;> rfl
@[simp] theorem Chip.stat_lanes (c : Chip) (k : Nat) (v : Word) : (c.stat k v).lanes = c.lanes := by unfold Chip.stat; split <;> rfl
@[simp] theorem Chip.stat_iris (c : Chip) (k : Nat) (v : Word) : (c.stat k v).iris = c.iris := by unfold Chip.stat; split <;> rfl
@[simp] theorem Chip.stat_dram (c : Chip) (k : Nat) (v : Word) : (c.stat k v).dram = c.dram := by unfold Chip.stat; split <;> rfl
@[simp] theorem Chip.stat_mtx (c : Chip) (k : Nat) (v : Word) : (c.stat k v).mtx = c.mtx := by unfold Chip.stat; split <;> rfl
@[simp] theorem Chip.stat_eth (c : Chip) (k : Nat) (v : Word) : (c.stat k v).eth = c.eth := by unfold Chip.stat; split <;> rfl
@[simp] theorem Chip.stat_cb0 (c : Chip) (k : Nat) (v : Word) : (c.stat k v).cb0 = c.cb0 := by unfold Chip.stat; split <;> rfl
@[simp] theorem Chip.stat_pwr (c : Chip) (k : Nat) (v : Word) : (c.stat k v).pwr = c.pwr := by unfold Chip.stat; split <;> rfl
@[simp] theorem Chip.stat_strm (c : Chip) (k : Nat) (v : Word) : (c.stat k v).strm = c.strm := by unfold Chip.stat; split <;> rfl
@[simp] theorem Chip.stat_stem (c : Chip) (k : Nat) (v : Word) : (c.stat k v).stem = c.stem := by unfold Chip.stat; split <;> rfl
@[simp] theorem Chip.stat_spk (c : Chip) (k : Nat) (v : Word) : (c.stat k v).spk = c.spk := by unfold Chip.stat; split <;> rfl
@[simp] theorem Chip.stat_fg (c : Chip) (k : Nat) (v : Word) : (c.stat k v).fg = c.fg := by unfold Chip.stat; split <;> rfl
@[simp] theorem Chip.stat_mgld (c : Chip) (k : Nat) (v : Word) : (c.stat k v).mgld = c.mgld := by unfold Chip.stat; split <;> rfl

@[simp] theorem Chip.count_rdata (c : Chip) (k : Nat) : (c.count k).rdata = c.rdata := by unfold Chip.count Chip.stat; split <;> rfl
@[simp] theorem Chip.count_rwords (c : Chip) (k : Nat) : (c.count k).rwords = c.rwords := by unfold Chip.count Chip.stat; split <;> rfl
@[simp] theorem Chip.count_freeCtr (c : Chip) (k : Nat) : (c.count k).freeCtr = c.freeCtr := by unfold Chip.count Chip.stat; split <;> rfl
@[simp] theorem Chip.count_stall (c : Chip) (k : Nat) : (c.count k).stall = c.stall := by unfold Chip.count Chip.stat; split <;> rfl
@[simp] theorem Chip.count_tb (c : Chip) (k : Nat) : (c.count k).tb = c.tb := by unfold Chip.count Chip.stat; split <;> rfl
@[simp] theorem Chip.count_hub (c : Chip) (k : Nat) : (c.count k).hub = c.hub := by unfold Chip.count Chip.stat; split <;> rfl
@[simp] theorem Chip.count_bank (c : Chip) (k : Nat) : (c.count k).bank = c.bank := by unfold Chip.count Chip.stat; split <;> rfl
@[simp] theorem Chip.count_qf (c : Chip) (k : Nat) : (c.count k).qf = c.qf := by unfold Chip.count Chip.stat; split <;> rfl
@[simp] theorem Chip.count_ledger (c : Chip) (k : Nat) : (c.count k).ledger = c.ledger := by unfold Chip.count Chip.stat; split <;> rfl
@[simp] theorem Chip.count_tick (c : Chip) (k : Nat) : (c.count k).tick = c.tick := by unfold Chip.count Chip.stat; split <;> rfl
@[simp] theorem Chip.count_snap (c : Chip) (k : Nat) : (c.count k).snap = c.snap := by unfold Chip.count Chip.stat; split <;> rfl
@[simp] theorem Chip.count_patch (c : Chip) (k : Nat) : (c.count k).patch = c.patch := by unfold Chip.count Chip.stat; split <;> rfl
@[simp] theorem Chip.count_dmix (c : Chip) (k : Nat) : (c.count k).dmix = c.dmix := by unfold Chip.count Chip.stat; split <;> rfl
@[simp] theorem Chip.count_cores (c : Chip) (k : Nat) : (c.count k).cores = c.cores := by unfold Chip.count Chip.stat; split <;> rfl
@[simp] theorem Chip.count_cur (c : Chip) (k : Nat) : (c.count k).cur = c.cur := by unfold Chip.count Chip.stat; split <;> rfl
@[simp] theorem Chip.count_sap (c : Chip) (k : Nat) : (c.count k).sap = c.sap := by unfold Chip.count Chip.stat; split <;> rfl
@[simp] theorem Chip.count_aes (c : Chip) (k : Nat) : (c.count k).aes = c.aes := by unfold Chip.count Chip.stat; split <;> rfl
@[simp] theorem Chip.count_asrc (c : Chip) (k : Nat) : (c.count k).asrc = c.asrc := by unfold Chip.count Chip.stat; split <;> rfl
@[simp] theorem Chip.count_jack (c : Chip) (k : Nat) : (c.count k).jack = c.jack := by unfold Chip.count Chip.stat; split <;> rfl
@[simp] theorem Chip.count_aster (c : Chip) (k : Nat) : (c.count k).aster = c.aster := by unfold Chip.count Chip.stat; split <;> rfl
@[simp] theorem Chip.count_clk (c : Chip) (k : Nat) : (c.count k).clk = c.clk := by unfold Chip.count Chip.stat; split <;> rfl
@[simp] theorem Chip.count_lanes (c : Chip) (k : Nat) : (c.count k).lanes = c.lanes := by unfold Chip.count Chip.stat; split <;> rfl
@[simp] theorem Chip.count_iris (c : Chip) (k : Nat) : (c.count k).iris = c.iris := by unfold Chip.count Chip.stat; split <;> rfl
@[simp] theorem Chip.count_dram (c : Chip) (k : Nat) : (c.count k).dram = c.dram := by unfold Chip.count Chip.stat; split <;> rfl
@[simp] theorem Chip.count_mtx (c : Chip) (k : Nat) : (c.count k).mtx = c.mtx := by unfold Chip.count Chip.stat; split <;> rfl
@[simp] theorem Chip.count_eth (c : Chip) (k : Nat) : (c.count k).eth = c.eth := by unfold Chip.count Chip.stat; split <;> rfl
@[simp] theorem Chip.count_cb0 (c : Chip) (k : Nat) : (c.count k).cb0 = c.cb0 := by unfold Chip.count Chip.stat; split <;> rfl
@[simp] theorem Chip.count_pwr (c : Chip) (k : Nat) : (c.count k).pwr = c.pwr := by unfold Chip.count Chip.stat; split <;> rfl
@[simp] theorem Chip.count_strm (c : Chip) (k : Nat) : (c.count k).strm = c.strm := by unfold Chip.count Chip.stat; split <;> rfl
@[simp] theorem Chip.count_stem (c : Chip) (k : Nat) : (c.count k).stem = c.stem := by unfold Chip.count Chip.stat; split <;> rfl
@[simp] theorem Chip.count_spk (c : Chip) (k : Nat) : (c.count k).spk = c.spk := by unfold Chip.count Chip.stat; split <;> rfl
@[simp] theorem Chip.count_fg (c : Chip) (k : Nat) : (c.count k).fg = c.fg := by unfold Chip.count Chip.stat; split <;> rfl
@[simp] theorem Chip.count_mgld (c : Chip) (k : Nat) : (c.count k).mgld = c.mgld := by unfold Chip.count Chip.stat; split <;> rfl

@[simp] theorem Chip.countBy_rdata (c : Chip) (k n : Nat) : (c.countBy k n).rdata = c.rdata := by unfold Chip.countBy Chip.stat; split <;> rfl
@[simp] theorem Chip.countBy_rwords (c : Chip) (k n : Nat) : (c.countBy k n).rwords = c.rwords := by unfold Chip.countBy Chip.stat; split <;> rfl
@[simp] theorem Chip.countBy_freeCtr (c : Chip) (k n : Nat) : (c.countBy k n).freeCtr = c.freeCtr := by unfold Chip.countBy Chip.stat; split <;> rfl
@[simp] theorem Chip.countBy_stall (c : Chip) (k n : Nat) : (c.countBy k n).stall = c.stall := by unfold Chip.countBy Chip.stat; split <;> rfl
@[simp] theorem Chip.countBy_tb (c : Chip) (k n : Nat) : (c.countBy k n).tb = c.tb := by unfold Chip.countBy Chip.stat; split <;> rfl
@[simp] theorem Chip.countBy_hub (c : Chip) (k n : Nat) : (c.countBy k n).hub = c.hub := by unfold Chip.countBy Chip.stat; split <;> rfl
@[simp] theorem Chip.countBy_bank (c : Chip) (k n : Nat) : (c.countBy k n).bank = c.bank := by unfold Chip.countBy Chip.stat; split <;> rfl
@[simp] theorem Chip.countBy_qf (c : Chip) (k n : Nat) : (c.countBy k n).qf = c.qf := by unfold Chip.countBy Chip.stat; split <;> rfl
@[simp] theorem Chip.countBy_ledger (c : Chip) (k n : Nat) : (c.countBy k n).ledger = c.ledger := by unfold Chip.countBy Chip.stat; split <;> rfl
@[simp] theorem Chip.countBy_tick (c : Chip) (k n : Nat) : (c.countBy k n).tick = c.tick := by unfold Chip.countBy Chip.stat; split <;> rfl
@[simp] theorem Chip.countBy_snap (c : Chip) (k n : Nat) : (c.countBy k n).snap = c.snap := by unfold Chip.countBy Chip.stat; split <;> rfl
@[simp] theorem Chip.countBy_patch (c : Chip) (k n : Nat) : (c.countBy k n).patch = c.patch := by unfold Chip.countBy Chip.stat; split <;> rfl
@[simp] theorem Chip.countBy_dmix (c : Chip) (k n : Nat) : (c.countBy k n).dmix = c.dmix := by unfold Chip.countBy Chip.stat; split <;> rfl
@[simp] theorem Chip.countBy_cores (c : Chip) (k n : Nat) : (c.countBy k n).cores = c.cores := by unfold Chip.countBy Chip.stat; split <;> rfl
@[simp] theorem Chip.countBy_cur (c : Chip) (k n : Nat) : (c.countBy k n).cur = c.cur := by unfold Chip.countBy Chip.stat; split <;> rfl
@[simp] theorem Chip.countBy_sap (c : Chip) (k n : Nat) : (c.countBy k n).sap = c.sap := by unfold Chip.countBy Chip.stat; split <;> rfl
@[simp] theorem Chip.countBy_aes (c : Chip) (k n : Nat) : (c.countBy k n).aes = c.aes := by unfold Chip.countBy Chip.stat; split <;> rfl
@[simp] theorem Chip.countBy_asrc (c : Chip) (k n : Nat) : (c.countBy k n).asrc = c.asrc := by unfold Chip.countBy Chip.stat; split <;> rfl
@[simp] theorem Chip.countBy_jack (c : Chip) (k n : Nat) : (c.countBy k n).jack = c.jack := by unfold Chip.countBy Chip.stat; split <;> rfl
@[simp] theorem Chip.countBy_aster (c : Chip) (k n : Nat) : (c.countBy k n).aster = c.aster := by unfold Chip.countBy Chip.stat; split <;> rfl
@[simp] theorem Chip.countBy_clk (c : Chip) (k n : Nat) : (c.countBy k n).clk = c.clk := by unfold Chip.countBy Chip.stat; split <;> rfl
@[simp] theorem Chip.countBy_lanes (c : Chip) (k n : Nat) : (c.countBy k n).lanes = c.lanes := by unfold Chip.countBy Chip.stat; split <;> rfl
@[simp] theorem Chip.countBy_iris (c : Chip) (k n : Nat) : (c.countBy k n).iris = c.iris := by unfold Chip.countBy Chip.stat; split <;> rfl
@[simp] theorem Chip.countBy_dram (c : Chip) (k n : Nat) : (c.countBy k n).dram = c.dram := by unfold Chip.countBy Chip.stat; split <;> rfl
@[simp] theorem Chip.countBy_mtx (c : Chip) (k n : Nat) : (c.countBy k n).mtx = c.mtx := by unfold Chip.countBy Chip.stat; split <;> rfl
@[simp] theorem Chip.countBy_eth (c : Chip) (k n : Nat) : (c.countBy k n).eth = c.eth := by unfold Chip.countBy Chip.stat; split <;> rfl
@[simp] theorem Chip.countBy_cb0 (c : Chip) (k n : Nat) : (c.countBy k n).cb0 = c.cb0 := by unfold Chip.countBy Chip.stat; split <;> rfl
@[simp] theorem Chip.countBy_pwr (c : Chip) (k n : Nat) : (c.countBy k n).pwr = c.pwr := by unfold Chip.countBy Chip.stat; split <;> rfl
@[simp] theorem Chip.countBy_strm (c : Chip) (k n : Nat) : (c.countBy k n).strm = c.strm := by unfold Chip.countBy Chip.stat; split <;> rfl
@[simp] theorem Chip.countBy_stem (c : Chip) (k n : Nat) : (c.countBy k n).stem = c.stem := by unfold Chip.countBy Chip.stat; split <;> rfl
@[simp] theorem Chip.countBy_spk (c : Chip) (k n : Nat) : (c.countBy k n).spk = c.spk := by unfold Chip.countBy Chip.stat; split <;> rfl
@[simp] theorem Chip.countBy_fg (c : Chip) (k n : Nat) : (c.countBy k n).fg = c.fg := by unfold Chip.countBy Chip.stat; split <;> rfl
@[simp] theorem Chip.countBy_mgld (c : Chip) (k n : Nat) : (c.countBy k n).mgld = c.mgld := by unfold Chip.countBy Chip.stat; split <;> rfl

@[simp] theorem Chip.wrFree_rdata (c : Chip) (k : Nat) : (c.wrFree k).rdata = c.rdata := rfl
@[simp] theorem Chip.wrFree_rwords (c : Chip) (k : Nat) : (c.wrFree k).rwords = c.rwords := rfl
@[simp] theorem Chip.wrFree_stall (c : Chip) (k : Nat) : (c.wrFree k).stall = c.stall := rfl
@[simp] theorem Chip.wrFree_tb (c : Chip) (k : Nat) : (c.wrFree k).tb = c.tb := rfl
@[simp] theorem Chip.wrFree_hub (c : Chip) (k : Nat) : (c.wrFree k).hub = c.hub := rfl
@[simp] theorem Chip.wrFree_bank (c : Chip) (k : Nat) : (c.wrFree k).bank = c.bank := rfl
@[simp] theorem Chip.wrFree_qf (c : Chip) (k : Nat) : (c.wrFree k).qf = c.qf := rfl
@[simp] theorem Chip.wrFree_ledger (c : Chip) (k : Nat) : (c.wrFree k).ledger = c.ledger := rfl
@[simp] theorem Chip.wrFree_tick (c : Chip) (k : Nat) : (c.wrFree k).tick = c.tick := rfl
@[simp] theorem Chip.wrFree_snap (c : Chip) (k : Nat) : (c.wrFree k).snap = c.snap := rfl
@[simp] theorem Chip.wrFree_patch (c : Chip) (k : Nat) : (c.wrFree k).patch = c.patch := rfl
@[simp] theorem Chip.wrFree_dmix (c : Chip) (k : Nat) : (c.wrFree k).dmix = c.dmix := rfl
@[simp] theorem Chip.wrFree_cores (c : Chip) (k : Nat) : (c.wrFree k).cores = c.cores := rfl
@[simp] theorem Chip.wrFree_cur (c : Chip) (k : Nat) : (c.wrFree k).cur = c.cur := rfl
@[simp] theorem Chip.wrFree_sap (c : Chip) (k : Nat) : (c.wrFree k).sap = c.sap := rfl
@[simp] theorem Chip.wrFree_aes (c : Chip) (k : Nat) : (c.wrFree k).aes = c.aes := rfl
@[simp] theorem Chip.wrFree_asrc (c : Chip) (k : Nat) : (c.wrFree k).asrc = c.asrc := rfl
@[simp] theorem Chip.wrFree_jack (c : Chip) (k : Nat) : (c.wrFree k).jack = c.jack := rfl
@[simp] theorem Chip.wrFree_aster (c : Chip) (k : Nat) : (c.wrFree k).aster = c.aster := rfl
@[simp] theorem Chip.wrFree_clk (c : Chip) (k : Nat) : (c.wrFree k).clk = c.clk := rfl
@[simp] theorem Chip.wrFree_lanes (c : Chip) (k : Nat) : (c.wrFree k).lanes = c.lanes := rfl
@[simp] theorem Chip.wrFree_iris (c : Chip) (k : Nat) : (c.wrFree k).iris = c.iris := rfl
@[simp] theorem Chip.wrFree_dram (c : Chip) (k : Nat) : (c.wrFree k).dram = c.dram := rfl
@[simp] theorem Chip.wrFree_mtx (c : Chip) (k : Nat) : (c.wrFree k).mtx = c.mtx := rfl
@[simp] theorem Chip.wrFree_eth (c : Chip) (k : Nat) : (c.wrFree k).eth = c.eth := rfl
@[simp] theorem Chip.wrFree_cb0 (c : Chip) (k : Nat) : (c.wrFree k).cb0 = c.cb0 := rfl
@[simp] theorem Chip.wrFree_pwr (c : Chip) (k : Nat) : (c.wrFree k).pwr = c.pwr := rfl
@[simp] theorem Chip.wrFree_strm (c : Chip) (k : Nat) : (c.wrFree k).strm = c.strm := rfl
@[simp] theorem Chip.wrFree_stem (c : Chip) (k : Nat) : (c.wrFree k).stem = c.stem := rfl
@[simp] theorem Chip.wrFree_spk (c : Chip) (k : Nat) : (c.wrFree k).spk = c.spk := rfl
@[simp] theorem Chip.wrFree_fg (c : Chip) (k : Nat) : (c.wrFree k).fg = c.fg := rfl
@[simp] theorem Chip.wrFree_mgld (c : Chip) (k : Nat) : (c.wrFree k).mgld = c.mgld := rfl

@[simp] theorem Chip.freeNext_regs (c : Chip) : (c.freeNext).regs = c.regs := rfl
@[simp] theorem Chip.freeNext_rdata (c : Chip) : (c.freeNext).rdata = c.rdata := rfl
@[simp] theorem Chip.freeNext_rwords (c : Chip) : (c.freeNext).rwords = c.rwords := rfl
@[simp] theorem Chip.freeNext_stall (c : Chip) : (c.freeNext).stall = c.stall := rfl
@[simp] theorem Chip.freeNext_tb (c : Chip) : (c.freeNext).tb = c.tb := rfl
@[simp] theorem Chip.freeNext_hub (c : Chip) : (c.freeNext).hub = c.hub := rfl
@[simp] theorem Chip.freeNext_bank (c : Chip) : (c.freeNext).bank = c.bank := rfl
@[simp] theorem Chip.freeNext_qf (c : Chip) : (c.freeNext).qf = c.qf := rfl
@[simp] theorem Chip.freeNext_ledger (c : Chip) : (c.freeNext).ledger = c.ledger := rfl
@[simp] theorem Chip.freeNext_tick (c : Chip) : (c.freeNext).tick = c.tick := rfl
@[simp] theorem Chip.freeNext_snap (c : Chip) : (c.freeNext).snap = c.snap := rfl
@[simp] theorem Chip.freeNext_patch (c : Chip) : (c.freeNext).patch = c.patch := rfl
@[simp] theorem Chip.freeNext_dmix (c : Chip) : (c.freeNext).dmix = c.dmix := rfl
@[simp] theorem Chip.freeNext_cores (c : Chip) : (c.freeNext).cores = c.cores := rfl
@[simp] theorem Chip.freeNext_cur (c : Chip) : (c.freeNext).cur = c.cur := rfl
@[simp] theorem Chip.freeNext_sap (c : Chip) : (c.freeNext).sap = c.sap := rfl
@[simp] theorem Chip.freeNext_aes (c : Chip) : (c.freeNext).aes = c.aes := rfl
@[simp] theorem Chip.freeNext_asrc (c : Chip) : (c.freeNext).asrc = c.asrc := rfl
@[simp] theorem Chip.freeNext_jack (c : Chip) : (c.freeNext).jack = c.jack := rfl
@[simp] theorem Chip.freeNext_aster (c : Chip) : (c.freeNext).aster = c.aster := rfl
@[simp] theorem Chip.freeNext_clk (c : Chip) : (c.freeNext).clk = c.clk := rfl
@[simp] theorem Chip.freeNext_lanes (c : Chip) : (c.freeNext).lanes = c.lanes := rfl
@[simp] theorem Chip.freeNext_iris (c : Chip) : (c.freeNext).iris = c.iris := rfl
@[simp] theorem Chip.freeNext_dram (c : Chip) : (c.freeNext).dram = c.dram := rfl
@[simp] theorem Chip.freeNext_mtx (c : Chip) : (c.freeNext).mtx = c.mtx := rfl
@[simp] theorem Chip.freeNext_eth (c : Chip) : (c.freeNext).eth = c.eth := rfl
@[simp] theorem Chip.freeNext_cb0 (c : Chip) : (c.freeNext).cb0 = c.cb0 := rfl
@[simp] theorem Chip.freeNext_pwr (c : Chip) : (c.freeNext).pwr = c.pwr := rfl
@[simp] theorem Chip.freeNext_strm (c : Chip) : (c.freeNext).strm = c.strm := rfl
@[simp] theorem Chip.freeNext_stem (c : Chip) : (c.freeNext).stem = c.stem := rfl
@[simp] theorem Chip.freeNext_spk (c : Chip) : (c.freeNext).spk = c.spk := rfl
@[simp] theorem Chip.freeNext_fg (c : Chip) : (c.freeNext).fg = c.fg := rfl
@[simp] theorem Chip.freeNext_mgld (c : Chip) : (c.freeNext).mgld = c.mgld := rfl

@[simp] theorem Chip.ret_regs (c : Chip) (v : Word) : (c.ret v).regs = c.regs := rfl
@[simp] theorem Chip.ret_rwords (c : Chip) (v : Word) : (c.ret v).rwords = c.rwords := rfl
@[simp] theorem Chip.ret_freeCtr (c : Chip) (v : Word) : (c.ret v).freeCtr = c.freeCtr := rfl
@[simp] theorem Chip.ret_stall (c : Chip) (v : Word) : (c.ret v).stall = c.stall := rfl
@[simp] theorem Chip.ret_tb (c : Chip) (v : Word) : (c.ret v).tb = c.tb := rfl
@[simp] theorem Chip.ret_hub (c : Chip) (v : Word) : (c.ret v).hub = c.hub := rfl
@[simp] theorem Chip.ret_bank (c : Chip) (v : Word) : (c.ret v).bank = c.bank := rfl
@[simp] theorem Chip.ret_qf (c : Chip) (v : Word) : (c.ret v).qf = c.qf := rfl
@[simp] theorem Chip.ret_ledger (c : Chip) (v : Word) : (c.ret v).ledger = c.ledger := rfl
@[simp] theorem Chip.ret_tick (c : Chip) (v : Word) : (c.ret v).tick = c.tick := rfl
@[simp] theorem Chip.ret_snap (c : Chip) (v : Word) : (c.ret v).snap = c.snap := rfl
@[simp] theorem Chip.ret_patch (c : Chip) (v : Word) : (c.ret v).patch = c.patch := rfl
@[simp] theorem Chip.ret_dmix (c : Chip) (v : Word) : (c.ret v).dmix = c.dmix := rfl
@[simp] theorem Chip.ret_cores (c : Chip) (v : Word) : (c.ret v).cores = c.cores := rfl
@[simp] theorem Chip.ret_cur (c : Chip) (v : Word) : (c.ret v).cur = c.cur := rfl
@[simp] theorem Chip.ret_sap (c : Chip) (v : Word) : (c.ret v).sap = c.sap := rfl
@[simp] theorem Chip.ret_aes (c : Chip) (v : Word) : (c.ret v).aes = c.aes := rfl
@[simp] theorem Chip.ret_asrc (c : Chip) (v : Word) : (c.ret v).asrc = c.asrc := rfl
@[simp] theorem Chip.ret_jack (c : Chip) (v : Word) : (c.ret v).jack = c.jack := rfl
@[simp] theorem Chip.ret_aster (c : Chip) (v : Word) : (c.ret v).aster = c.aster := rfl
@[simp] theorem Chip.ret_clk (c : Chip) (v : Word) : (c.ret v).clk = c.clk := rfl
@[simp] theorem Chip.ret_lanes (c : Chip) (v : Word) : (c.ret v).lanes = c.lanes := rfl
@[simp] theorem Chip.ret_iris (c : Chip) (v : Word) : (c.ret v).iris = c.iris := rfl
@[simp] theorem Chip.ret_dram (c : Chip) (v : Word) : (c.ret v).dram = c.dram := rfl
@[simp] theorem Chip.ret_mtx (c : Chip) (v : Word) : (c.ret v).mtx = c.mtx := rfl
@[simp] theorem Chip.ret_eth (c : Chip) (v : Word) : (c.ret v).eth = c.eth := rfl
@[simp] theorem Chip.ret_cb0 (c : Chip) (v : Word) : (c.ret v).cb0 = c.cb0 := rfl
@[simp] theorem Chip.ret_pwr (c : Chip) (v : Word) : (c.ret v).pwr = c.pwr := rfl
@[simp] theorem Chip.ret_strm (c : Chip) (v : Word) : (c.ret v).strm = c.strm := rfl
@[simp] theorem Chip.ret_stem (c : Chip) (v : Word) : (c.ret v).stem = c.stem := rfl
@[simp] theorem Chip.ret_spk (c : Chip) (v : Word) : (c.ret v).spk = c.spk := rfl
@[simp] theorem Chip.ret_fg (c : Chip) (v : Word) : (c.ret v).fg = c.fg := rfl
@[simp] theorem Chip.ret_mgld (c : Chip) (v : Word) : (c.ret v).mgld = c.mgld := rfl

@[simp] theorem Chip.resetRegs_rdata (c : Chip) (p : Nat → Bool) : (c.resetRegs p).rdata = c.rdata := rfl
@[simp] theorem Chip.resetRegs_rwords (c : Chip) (p : Nat → Bool) : (c.resetRegs p).rwords = c.rwords := rfl
@[simp] theorem Chip.resetRegs_freeCtr (c : Chip) (p : Nat → Bool) : (c.resetRegs p).freeCtr = c.freeCtr := rfl
@[simp] theorem Chip.resetRegs_stall (c : Chip) (p : Nat → Bool) : (c.resetRegs p).stall = c.stall := rfl
@[simp] theorem Chip.resetRegs_tb (c : Chip) (p : Nat → Bool) : (c.resetRegs p).tb = c.tb := rfl
@[simp] theorem Chip.resetRegs_hub (c : Chip) (p : Nat → Bool) : (c.resetRegs p).hub = c.hub := rfl
@[simp] theorem Chip.resetRegs_bank (c : Chip) (p : Nat → Bool) : (c.resetRegs p).bank = c.bank := rfl
@[simp] theorem Chip.resetRegs_qf (c : Chip) (p : Nat → Bool) : (c.resetRegs p).qf = c.qf := rfl
@[simp] theorem Chip.resetRegs_ledger (c : Chip) (p : Nat → Bool) : (c.resetRegs p).ledger = c.ledger := rfl
@[simp] theorem Chip.resetRegs_tick (c : Chip) (p : Nat → Bool) : (c.resetRegs p).tick = c.tick := rfl
@[simp] theorem Chip.resetRegs_snap (c : Chip) (p : Nat → Bool) : (c.resetRegs p).snap = c.snap := rfl
@[simp] theorem Chip.resetRegs_patch (c : Chip) (p : Nat → Bool) : (c.resetRegs p).patch = c.patch := rfl
@[simp] theorem Chip.resetRegs_dmix (c : Chip) (p : Nat → Bool) : (c.resetRegs p).dmix = c.dmix := rfl
@[simp] theorem Chip.resetRegs_cores (c : Chip) (p : Nat → Bool) : (c.resetRegs p).cores = c.cores := rfl
@[simp] theorem Chip.resetRegs_cur (c : Chip) (p : Nat → Bool) : (c.resetRegs p).cur = c.cur := rfl
@[simp] theorem Chip.resetRegs_sap (c : Chip) (p : Nat → Bool) : (c.resetRegs p).sap = c.sap := rfl
@[simp] theorem Chip.resetRegs_aes (c : Chip) (p : Nat → Bool) : (c.resetRegs p).aes = c.aes := rfl
@[simp] theorem Chip.resetRegs_asrc (c : Chip) (p : Nat → Bool) : (c.resetRegs p).asrc = c.asrc := rfl
@[simp] theorem Chip.resetRegs_jack (c : Chip) (p : Nat → Bool) : (c.resetRegs p).jack = c.jack := rfl
@[simp] theorem Chip.resetRegs_aster (c : Chip) (p : Nat → Bool) : (c.resetRegs p).aster = c.aster := rfl
@[simp] theorem Chip.resetRegs_clk (c : Chip) (p : Nat → Bool) : (c.resetRegs p).clk = c.clk := rfl
@[simp] theorem Chip.resetRegs_lanes (c : Chip) (p : Nat → Bool) : (c.resetRegs p).lanes = c.lanes := rfl
@[simp] theorem Chip.resetRegs_iris (c : Chip) (p : Nat → Bool) : (c.resetRegs p).iris = c.iris := rfl
@[simp] theorem Chip.resetRegs_dram (c : Chip) (p : Nat → Bool) : (c.resetRegs p).dram = c.dram := rfl
@[simp] theorem Chip.resetRegs_mtx (c : Chip) (p : Nat → Bool) : (c.resetRegs p).mtx = c.mtx := rfl
@[simp] theorem Chip.resetRegs_eth (c : Chip) (p : Nat → Bool) : (c.resetRegs p).eth = c.eth := rfl
@[simp] theorem Chip.resetRegs_cb0 (c : Chip) (p : Nat → Bool) : (c.resetRegs p).cb0 = c.cb0 := rfl
@[simp] theorem Chip.resetRegs_pwr (c : Chip) (p : Nat → Bool) : (c.resetRegs p).pwr = c.pwr := rfl
@[simp] theorem Chip.resetRegs_strm (c : Chip) (p : Nat → Bool) : (c.resetRegs p).strm = c.strm := rfl
@[simp] theorem Chip.resetRegs_stem (c : Chip) (p : Nat → Bool) : (c.resetRegs p).stem = c.stem := rfl
@[simp] theorem Chip.resetRegs_spk (c : Chip) (p : Nat → Bool) : (c.resetRegs p).spk = c.spk := rfl
@[simp] theorem Chip.resetRegs_fg (c : Chip) (p : Nat → Bool) : (c.resetRegs p).fg = c.fg := rfl
@[simp] theorem Chip.resetRegs_mgld (c : Chip) (p : Nat → Bool) : (c.resetRegs p).mgld = c.mgld := rfl

@[simp] theorem Chip.resetPage_rdata (c : Chip) (p : Nat) : (c.resetPage p).rdata = c.rdata := rfl
@[simp] theorem Chip.resetPage_rwords (c : Chip) (p : Nat) : (c.resetPage p).rwords = c.rwords := rfl
@[simp] theorem Chip.resetPage_freeCtr (c : Chip) (p : Nat) : (c.resetPage p).freeCtr = c.freeCtr := rfl
@[simp] theorem Chip.resetPage_stall (c : Chip) (p : Nat) : (c.resetPage p).stall = c.stall := rfl
@[simp] theorem Chip.resetPage_tb (c : Chip) (p : Nat) : (c.resetPage p).tb = c.tb := rfl
@[simp] theorem Chip.resetPage_hub (c : Chip) (p : Nat) : (c.resetPage p).hub = c.hub := rfl
@[simp] theorem Chip.resetPage_bank (c : Chip) (p : Nat) : (c.resetPage p).bank = c.bank := rfl
@[simp] theorem Chip.resetPage_qf (c : Chip) (p : Nat) : (c.resetPage p).qf = c.qf := rfl
@[simp] theorem Chip.resetPage_ledger (c : Chip) (p : Nat) : (c.resetPage p).ledger = c.ledger := rfl
@[simp] theorem Chip.resetPage_tick (c : Chip) (p : Nat) : (c.resetPage p).tick = c.tick := rfl
@[simp] theorem Chip.resetPage_snap (c : Chip) (p : Nat) : (c.resetPage p).snap = c.snap := rfl
@[simp] theorem Chip.resetPage_patch (c : Chip) (p : Nat) : (c.resetPage p).patch = c.patch := rfl
@[simp] theorem Chip.resetPage_dmix (c : Chip) (p : Nat) : (c.resetPage p).dmix = c.dmix := rfl
@[simp] theorem Chip.resetPage_cores (c : Chip) (p : Nat) : (c.resetPage p).cores = c.cores := rfl
@[simp] theorem Chip.resetPage_cur (c : Chip) (p : Nat) : (c.resetPage p).cur = c.cur := rfl
@[simp] theorem Chip.resetPage_sap (c : Chip) (p : Nat) : (c.resetPage p).sap = c.sap := rfl
@[simp] theorem Chip.resetPage_aes (c : Chip) (p : Nat) : (c.resetPage p).aes = c.aes := rfl
@[simp] theorem Chip.resetPage_asrc (c : Chip) (p : Nat) : (c.resetPage p).asrc = c.asrc := rfl
@[simp] theorem Chip.resetPage_jack (c : Chip) (p : Nat) : (c.resetPage p).jack = c.jack := rfl
@[simp] theorem Chip.resetPage_aster (c : Chip) (p : Nat) : (c.resetPage p).aster = c.aster := rfl
@[simp] theorem Chip.resetPage_clk (c : Chip) (p : Nat) : (c.resetPage p).clk = c.clk := rfl
@[simp] theorem Chip.resetPage_lanes (c : Chip) (p : Nat) : (c.resetPage p).lanes = c.lanes := rfl
@[simp] theorem Chip.resetPage_iris (c : Chip) (p : Nat) : (c.resetPage p).iris = c.iris := rfl
@[simp] theorem Chip.resetPage_dram (c : Chip) (p : Nat) : (c.resetPage p).dram = c.dram := rfl
@[simp] theorem Chip.resetPage_mtx (c : Chip) (p : Nat) : (c.resetPage p).mtx = c.mtx := rfl
@[simp] theorem Chip.resetPage_eth (c : Chip) (p : Nat) : (c.resetPage p).eth = c.eth := rfl
@[simp] theorem Chip.resetPage_cb0 (c : Chip) (p : Nat) : (c.resetPage p).cb0 = c.cb0 := rfl
@[simp] theorem Chip.resetPage_pwr (c : Chip) (p : Nat) : (c.resetPage p).pwr = c.pwr := rfl
@[simp] theorem Chip.resetPage_strm (c : Chip) (p : Nat) : (c.resetPage p).strm = c.strm := rfl
@[simp] theorem Chip.resetPage_stem (c : Chip) (p : Nat) : (c.resetPage p).stem = c.stem := rfl
@[simp] theorem Chip.resetPage_spk (c : Chip) (p : Nat) : (c.resetPage p).spk = c.spk := rfl
@[simp] theorem Chip.resetPage_fg (c : Chip) (p : Nat) : (c.resetPage p).fg = c.fg := rfl
@[simp] theorem Chip.resetPage_mgld (c : Chip) (p : Nat) : (c.resetPage p).mgld = c.mgld := rfl

@[simp] theorem Chip.freeNext_freeCtr (c : Chip) : c.freeNext.freeCtr = c.freeCtr + 1 := rfl
@[simp] theorem Chip.wrFree_freeCtr (c : Chip) (k : Nat) : (c.wrFree k).freeCtr = c.freeCtr + 1 := rfl
@[simp] theorem Chip.ret_rdata (c : Chip) (v : Word) : (c.ret v).rdata = v := rfl
@[simp] theorem Chip.ret_rd (c : Chip) (v : Word) (k : Nat) : (c.ret v).rd k = c.rd k := rfl
@[simp] theorem Chip.freeNext_rd (c : Chip) (k : Nat) : c.freeNext.rd k = c.rd k := rfl
@[simp] theorem Dev.chipOp_mem (d : Dev) (f : Chip → Chip) : (d.chipOp f).mem = d.mem := rfl
@[simp] theorem Dev.chipOp_chip (d : Dev) (f : Chip → Chip) : (d.chipOp f).chip = f d.chip := rfl

@[simp] theorem Chip.rd_with_rdata (c : Chip) (x : Word) (k : Nat) : ({ c with rdata := x } : Chip).rd k = c.rd k := rfl
@[simp] theorem Chip.rd_with_rwords (c : Chip) (x : List Word) (k : Nat) : ({ c with rwords := x } : Chip).rd k = c.rd k := rfl
@[simp] theorem Chip.rd_with_freeCtr (c : Chip) (x : Nat) (k : Nat) : ({ c with freeCtr := x } : Chip).rd k = c.rd k := rfl
@[simp] theorem Chip.rd_with_stall (c : Chip) (x : Bool) (k : Nat) : ({ c with stall := x } : Chip).rd k = c.rd k := rfl
@[simp] theorem Chip.rd_with_tb (c : Chip) (x : TbSt) (k : Nat) : ({ c with tb := x } : Chip).rd k = c.rd k := rfl
@[simp] theorem Chip.rd_with_hub (c : Chip) (x : HubSt) (k : Nat) : ({ c with hub := x } : Chip).rd k = c.rd k := rfl
@[simp] theorem Chip.rd_with_bank (c : Chip) (x : BankSt) (k : Nat) : ({ c with bank := x } : Chip).rd k = c.rd k := rfl
@[simp] theorem Chip.rd_with_qf (c : Chip) (x : QfSt) (k : Nat) : ({ c with qf := x } : Chip).rd k = c.rd k := rfl
@[simp] theorem Chip.rd_with_ledger (c : Chip) (x : LedgerSt) (k : Nat) : ({ c with ledger := x } : Chip).rd k = c.rd k := rfl
@[simp] theorem Chip.rd_with_tick (c : Chip) (x : TickSt) (k : Nat) : ({ c with tick := x } : Chip).rd k = c.rd k := rfl
@[simp] theorem Chip.rd_with_snap (c : Chip) (x : SnapSt) (k : Nat) : ({ c with snap := x } : Chip).rd k = c.rd k := rfl
@[simp] theorem Chip.rd_with_patch (c : Chip) (x : PatchSt) (k : Nat) : ({ c with patch := x } : Chip).rd k = c.rd k := rfl
@[simp] theorem Chip.rd_with_dmix (c : Chip) (x : DmixSt) (k : Nat) : ({ c with dmix := x } : Chip).rd k = c.rd k := rfl
@[simp] theorem Chip.rd_with_cores (c : Chip) (x : Tbl CoreSt) (k : Nat) : ({ c with cores := x } : Chip).rd k = c.rd k := rfl
@[simp] theorem Chip.rd_with_cur (c : Chip) (x : CurSt) (k : Nat) : ({ c with cur := x } : Chip).rd k = c.rd k := rfl
@[simp] theorem Chip.rd_with_sap (c : Chip) (x : Tbl SapSt) (k : Nat) : ({ c with sap := x } : Chip).rd k = c.rd k := rfl
@[simp] theorem Chip.rd_with_aes (c : Chip) (x : Tbl AesSt) (k : Nat) : ({ c with aes := x } : Chip).rd k = c.rd k := rfl
@[simp] theorem Chip.rd_with_asrc (c : Chip) (x : Tbl AsrcSt) (k : Nat) : ({ c with asrc := x } : Chip).rd k = c.rd k := rfl
@[simp] theorem Chip.rd_with_jack (c : Chip) (x : JackSt) (k : Nat) : ({ c with jack := x } : Chip).rd k = c.rd k := rfl
@[simp] theorem Chip.rd_with_aster (c : Chip) (x : AsterSt) (k : Nat) : ({ c with aster := x } : Chip).rd k = c.rd k := rfl
@[simp] theorem Chip.rd_with_clk (c : Chip) (x : ClkSt) (k : Nat) : ({ c with clk := x } : Chip).rd k = c.rd k := rfl
@[simp] theorem Chip.rd_with_lanes (c : Chip) (x : Tbl LaneSt) (k : Nat) : ({ c with lanes := x } : Chip).rd k = c.rd k := rfl
@[simp] theorem Chip.rd_with_iris (c : Chip) (x : List Word) (k : Nat) : ({ c with iris := x } : Chip).rd k = c.rd k := rfl
@[simp] theorem Chip.rd_with_dram (c : Chip) (x : Tbl DramSt) (k : Nat) : ({ c with dram := x } : Chip).rd k = c.rd k := rfl
@[simp] theorem Chip.rd_with_mtx (c : Chip) (x : MtxSt) (k : Nat) : ({ c with mtx := x } : Chip).rd k = c.rd k := rfl
@[simp] theorem Chip.rd_with_eth (c : Chip) (x : Tbl EthSt) (k : Nat) : ({ c with eth := x } : Chip).rd k = c.rd k := rfl
@[simp] theorem Chip.rd_with_cb0 (c : Chip) (x : Cb0St) (k : Nat) : ({ c with cb0 := x } : Chip).rd k = c.rd k := rfl
@[simp] theorem Chip.rd_with_pwr (c : Chip) (x : PwrSt) (k : Nat) : ({ c with pwr := x } : Chip).rd k = c.rd k := rfl
@[simp] theorem Chip.rd_with_strm (c : Chip) (x : StrmSt) (k : Nat) : ({ c with strm := x } : Chip).rd k = c.rd k := rfl
@[simp] theorem Chip.rd_with_stem (c : Chip) (x : Tbl StemSt) (k : Nat) : ({ c with stem := x } : Chip).rd k = c.rd k := rfl
@[simp] theorem Chip.rd_with_spk (c : Chip) (x : Tbl SpkSt) (k : Nat) : ({ c with spk := x } : Chip).rd k = c.rd k := rfl
@[simp] theorem Chip.rd_with_fg (c : Chip) (x : FgSt) (k : Nat) : ({ c with fg := x } : Chip).rd k = c.rd k := rfl
@[simp] theorem Chip.rd_with_mgld (c : Chip) (x : MgldSt) (k : Nat) : ({ c with mgld := x } : Chip).rd k = c.rd k := rfl

end Sys2Proof.Machine
end

