-- ==== Sys2Proof/Laws/Ops.lean ====
section
/-! SUPPORT. What each shared operation over registers can do, said once. -/

namespace Sys2Proof.Machine

/-- A meaning on the chip answers a next state: the chip changes, memory and the queue stay. -/
theorem State.onChip_next (s : State) (f : Chip → Chip) :
    s.onChip f = .next { s with dev := { s.dev with chip := f s.dev.chip } } := rfl

theorem State.onDev_next (s : State) (f : Dev → Dev) : s.onDev f = .next { s with dev := f s.dev } := rfl

/-- An update that writes registers only leaves the chip's other parts. -/
theorem Chip.wr_eq (c : Chip) (k : Nat) (v : Word) : c.wr k v = { c with regs := (c.wr k v).regs } := rfl

theorem Chip.rdf_wrf_same (c : Chip) (k hi lo v : Nat) (h : hi < 32) :
    (c.wrf k hi lo v).rdf k hi lo = v % 2 ^ (hi + 1 - lo) := by
  simp [Chip.rdf, Chip.wrf, fld_setFld_same _ _ _ _ h]

theorem Chip.rdb_wrb_same (c : Chip) (k i : Nat) (b : Bool) (h : i < 32) : (c.wrb k i b).rdb k i = b := by
  simp [Chip.rdb, Chip.wrb, h]

theorem Chip.rdb_wrb_ne (c : Chip) (k : Nat) {i j : Nat} (b : Bool) (h : i < 32) (hj : j ≠ i) :
    (c.wrb k i b).rdb k j = c.rdb k j := by
  simp [Chip.rdb, Chip.wrb, bit_setBit_ne _ _ _ _ h hj]

/-- A flag that the block sets is set, and the others of its page stay (R57). -/
theorem Chip.irq_rdb (c : Chip) (p b : Nat) (h : b < 32) : (c.irq p b).rdb (Reg.IRQ_RAW p) b = true :=
  c.rdb_wrb_same _ _ _ h

theorem Chip.irq_rdb_ne (c : Chip) (p : Nat) {b j : Nat} (h : b < 32) (hj : j ≠ b) :
    (c.irq p b).rdb (Reg.IRQ_RAW p) j = c.rdb (Reg.IRQ_RAW p) j :=
  c.rdb_wrb_ne _ _ h hj

theorem Chip.irq_rd_ne (c : Chip) {p k : Nat} (b : Nat) (h : k ≠ Reg.IRQ_RAW p) : (c.irq p b).rd k = c.rd k :=
  c.rd_wrb_ne _ _ h

theorem Chip.irqIf_rd_ne (c : Chip) (q : Bool) {p k : Nat} (b : Nat) (h : k ≠ Reg.IRQ_RAW p) :
    (c.irqIf q p b).rd k = c.rd k := by
  cases q
  · rfl
  · exact c.irq_rd_ne b h

theorem Reg.ERR_CODE_ne_INFO (p : Nat) : Reg.ERR_CODE p ≠ Reg.ERR_INFO p := by
  unfold Reg.ERR_CODE Reg.ERR_INFO; omega

/-- The first error of a page is recorded (R58). -/
theorem Chip.err_first (c : Chip) (p code : Nat) (i : Word) (h : c.rdf (Reg.ERR_CODE p) 7 0 = 0) :
    (c.err p code i).rd (Reg.ERR_CODE p) = word code ∧ (c.err p code i).rd (Reg.ERR_INFO p) = i := by
  unfold Chip.err
  rw [if_pos h]
  refine ⟨?_, by simp⟩
  rw [Chip.rd_wr_ne _ _ (Reg.ERR_CODE_ne_INFO p)]
  simp

/-- A further error sets MULTI and leaves the record (R58). -/
theorem Chip.err_further (c : Chip) (p code : Nat) (i : Word) (h : c.rdf (Reg.ERR_CODE p) 7 0 ≠ 0) :
    c.err p code i = c.wrb (Reg.ERR_CODE p) 8 true := by
  unfold Chip.err
  rw [if_neg h]

theorem Chip.err_rd_ne (c : Chip) {p k : Nat} (code : Nat) (i : Word) (h1 : k ≠ Reg.ERR_CODE p)
    (h2 : k ≠ Reg.ERR_INFO p) : (c.err p code i).rd k = c.rd k := by
  unfold Chip.err
  split
  · rw [Chip.rd_wr_ne _ _ h2, Chip.rd_wr_ne _ _ h1]
  · exact c.rd_wrb_ne _ _ h1

/-- A counter of a page whose FREEZE is clear goes up by one and stops at the top (R55). -/
theorem Chip.count_rd (c : Chip) (k : Nat) (h : c.freeze (pageOf k) = false) : (c.count k).rd k = satInc (c.rd k) := by
  simp [Chip.count, Chip.stat, h]

theorem Chip.count_frozen (c : Chip) (k : Nat) (h : c.freeze (pageOf k) = true) : c.count k = c := by
  simp [Chip.count, Chip.stat, h]

theorem Chip.stat_rd_ne (c : Chip) {k i : Nat} (v : Word) (h : i ≠ k) : (c.stat k v).rd i = c.rd i := by
  unfold Chip.stat
  split
  · rfl
  · exact c.rd_wr_ne v h

theorem Chip.count_rd_ne (c : Chip) {k i : Nat} (h : i ≠ k) : (c.count k).rd i = c.rd i := c.stat_rd_ne _ h

theorem Chip.countBy_rd_ne (c : Chip) {k i : Nat} (n : Nat) (h : i ≠ k) : (c.countBy k n).rd i = c.rd i :=
  c.stat_rd_ne _ h

theorem look_drop {α : Type} (d : α) (p : Nat → Bool) (t : Tbl α) (h : rising t = true) (k : Nat) :
    look d (drop p t) k = if p k then d else look d t k := by
  unfold drop
  cases hp : p k
  · rw [look_filter d (fun j => !p j) t h (by simp [hp])]; simp
  · simp only [if_true]
    induction t with
    | nil => rfl
    | cons e t ih =>
      obtain ⟨j, u⟩ := e
      rw [List.filter_cons]
      split
      · rename_i hj
        have hkj : k ≠ j := fun e => by subst e; simp [hp] at hj
        simp only [look]
        rw [if_neg hkj, ih (rising_tail h)]
        simp
      · exact ih (rising_tail h)

theorem rising_drop {α : Type} (p : Nat → Bool) (t : Tbl α) (h : rising t = true) : rising (drop p t) = true :=
  rising_filter _ _ h

/-- A page that a reset reaches reads its Reset values (R10). -/
theorem Chip.resetPage_rd (c : Chip) (h : rising c.regs = true) (p k : Nat) :
    (c.resetPage p).rd k = if pageOf k = p then regReset k else c.rd k := by
  simp [Chip.rd, Chip.resetPage, Chip.resetRegs, look_drop _ _ _ h]

end Sys2Proof.Machine
end

