-- ==== Sys2Proof/Laws/Shared.lean ====
section
/-! SUPPORT. What the operations that several families share can do: tables of parts, folds over indices, several memory
bytes at once, core states, and a command that has to wait. -/

namespace Sys2Proof.Machine

/-- What holds before a fold over indices, and every round keeps, holds after it. -/
theorem forUpTo_inv {σ : Type} (P : σ → Prop) (n : Nat) (f : Nat → σ → σ) (s : σ) (h : ∀ i s, i < n → P s → P (f i s)) (hs : P s) :
    P (forUpTo n f s) := by
  have hl : ∀ (l : List Nat) (s : σ), (∀ i ∈ l, i < n) → P s → P (l.foldl (fun s i => f i s) s) := by
    intro l
    induction l with
    | nil => exact fun s _ hs => hs
    | cons i t ih => exact fun s hb hs => ih _ (fun j hj => hb j (.tail _ hj)) (h i s (hb i (.head _)) hs)
  exact hl _ _ (fun i hi => List.mem_range.mp hi) hs

/-! Parts of the chip: a part read after a part written. -/

@[simp] theorem Chip.core_setCore_same (c : Chip) (k : Nat) (x : CoreSt) : (c.setCore k x).core k = x := look_put_same _ _ _ _
theorem Chip.core_setCore_ne (c : Chip) {k i : Nat} (x : CoreSt) (h : i ≠ k) : (c.setCore k x).core i = c.core i := look_put_ne _ _ _ h
@[simp] theorem Chip.rd_setCore (c : Chip) (k i : Nat) (x : CoreSt) : (c.setCore k x).rd i = c.rd i := rfl
@[simp] theorem Chip.queue_setQueue_same (c : Chip) (q : Nat) (x : Queue) : (c.setQueue q x).queue q = x := look_put_same _ _ _ _
theorem Chip.queue_setQueue_ne (c : Chip) {q i : Nat} (x : Queue) (h : i ≠ q) : (c.setQueue q x).queue i = c.queue i :=
  look_put_ne _ _ _ h
@[simp] theorem Chip.rd_setQueue (c : Chip) (q i : Nat) (x : Queue) : (c.setQueue q x).rd i = c.rd i := rfl

/-! The state of a core stands in its STATE register, below the flags of that register. -/

@[simp] theorem Chip.core_setCoreState (c : Chip) (k i v : Nat) : (c.setCoreState k v).core i = c.core i := rfl
theorem Chip.coreState_setCoreState_same (c : Chip) (k v : Nat) : (c.setCoreState k v).coreState k = v % 8 :=
  c.rdf_wrf_same _ 2 0 v (by decide)
theorem Chip.rd_setCoreState_ne (c : Chip) {k i : Nat} (v : Nat) (h : i ≠ stateKey k) : (c.setCoreState k v).rd i = c.rd i :=
  c.rd_wrf_ne 2 0 v h

/-! Several bytes of memory. -/

/-- Bytes written one by one keep the canonical form. -/
theorem Memory.wf_setEach (m : Memory) (l : List (Nat × Byte)) (h : m.wf = true) : (m.setEach l).wf = true := by
  induction l generalizing m with
  | nil => exact h
  | cons e t ih => exact ih _ (m.wf_set e.1 e.2 h)

/-- A byte that is not among those written stays. -/
theorem Memory.get_setEach_ne (m : Memory) (l : List (Nat × Byte)) {i : Nat} (h : m.wf = true) (hi : ∀ e ∈ l, i ≠ e.1) :
    (m.setEach l).get i = m.get i := by
  induction l generalizing m with
  | nil => rfl
  | cons e t ih =>
    exact (ih _ (m.wf_set e.1 e.2 h) (fun x hx => hi x (.tail _ hx))).trans (m.get_set_ne e.2 h (hi e (.head _)))

/-- Words that take free values keep the canonical form. -/
theorem Memory.wf_scramble (m : Memory) (l : List Nat) (ctr : Nat) (h : m.wf = true) : (m.scramble l ctr).wf = true := by
  have hl : ∀ (t : List (Nat × Nat)) (m : Memory), m.wf = true →
      (t.foldl (fun m e => m.setWord e.1 (Config.freeBits 32 (ctr + e.2))) m).wf = true := by
    intro t
    induction t with
    | nil => exact fun m h => h
    | cons e t ih => exact fun m h => ih _ (m.wf_setWord _ _ h)
  exact hl _ _ h

/-- A region that a device loses keeps the canonical form. -/
theorem Dev.wf_undefine (d : Dev) (lo len : Nat) (h : d.mem.wf = true) : (d.undefine lo len).mem.wf = true := d.mem.wf_undefine _ _ _ h

/-- Bytes stored at physical addresses keep the canonical form. -/
theorem Dev.wf_storeBytes (d : Dev) (a : Nat) (l : BeatBytes) (h : d.mem.wf = true) : (d.storeBytes a l).mem.wf = true :=
  d.mem.wf_setEach _ h

/-! A command with an access that has to wait. -/

/-- Either an access has to wait, and the command leaves everything as it was; or none has to, and the command acts. -/
theorem Dev.orWait_cases (f : Dev → Dev) (d : Dev) :
    ((f (d.chipOp fun c => { c with stall := false })).chip.stall = true ∧ d.orWait f = d) ∨
      ((f (d.chipOp fun c => { c with stall := false })).chip.stall = false ∧
        d.orWait f = (f (d.chipOp fun c => { c with stall := false })).chipOp fun c => { c with stall := d.chip.stall }) := by
  unfold Dev.orWait
  cases h : (f (d.chipOp fun c => { c with stall := false })).chip.stall
  · exact .inr ⟨rfl, by simp [h]⟩
  · exact .inl ⟨rfl, by simp [h]⟩

@[simp] theorem Dev.mem_stallOn (b : Bool) (d : Dev) : (d.stallOn b).mem = d.mem := by
  unfold Dev.stallOn
  split <;> rfl

end Sys2Proof.Machine
end

