-- ==== Sys2Proof/WellFormed.lean ====
section
/-! DEFINITION. Which commands a sender can present: the limits that the spec sets on an operand's size and shape, where
its type does not set them. `exec` gives every command a meaning, a well-formed one or not. -/

namespace Sys2Proof

/-- The bytes of a beat of master port `m`, as a power of two (R309). -/
def portWidthLog (m : Fin 15) : Nat := if m = 4 ∨ m = 5 then 4 else if 13 ≤ m then 2 else 5

/-- A transaction is 1 to 16 naturally aligned beats at the port's width, or one narrower beat; a write brings its bytes,
and strobes for all of them or for none; a read brings nothing (R312). -/
def Txn.wellFormed (t : Txn) : Bool :=
  1 ≤ t.beats && t.beats ≤ 16 && t.beatLog.val ≤ portWidthLog t.master &&
    (t.beats == 1 || t.beatLog.val == portWidthLog t.master) && t.addr.toNat % 2 ^ t.beatLog.val == 0 &&
    (if t.write then
      t.data.length == t.beats * 2 ^ t.beatLog.val && (t.strobes.isEmpty || t.strobes.length == t.data.length)
    else t.data.isEmpty)

/-- An interval gives each reference one offset; REF10 has no measurement (R366). -/
def AsterMeas.wellFormed (m : AsterMeas) : Bool :=
  m.offsets.all (fun e => e.1 != 10) && (m.offsets.map (·.1)).eraseDups.length == m.offsets.length

/-- A Stem frame has two control blocks, whole payload blocks and a 16-bit block count (R480). -/
def StemFrame.wellFormed (f : StemFrame) : Bool :=
  f.control.length == 16 && f.payload.length % 8 == 0 && decide (f.blocks < 2 ^ 16)

/-- A record has whole data blocks and a 24-bit block count (R564, R571). -/
def MirrorRecord.wellFormed (r : MirrorRecord) : Bool := r.data.length % 8 == 0 && decide (r.blocks < 2 ^ 24)

/-- The limits on a command's operands. A SAP frame has at most 32
slots (R327), a received Ethernet frame fits its port's receive FIFO (R433), the random number of a backoff is below
1,024 (R452), a node does not stay low and high at once (R518), a chunk is that of STM0 or of ETH0 (R632). -/
def Instr.wellFormed (i : Instr) : Bool :=
  match i with
  | .transactionIssue t => t.wellFormed
  | .sapFrameReceived _ f => decide (f.words.length ≤ 32)
  | .asterInterval m => m.wellFormed
  | .ethFrameReceived _ frame _ _ => decide (1 ≤ frame.length ∧ frame.length ≤ 32768)
  | .cb0FrameReceived frame _ _ _ => decide (1 ≤ frame.length)
  | .cb0Collision _ r => decide (r < 1024)
  | .stemFrameReceived _ f => f.wellFormed
  | .diagPhase _ f => !(f.stuckLow && f.stuckHigh)
  | .recordReceived r => r.wellFormed
  | .bootChunk c => c.bytes.length == 4096 || c.bytes.length == 1024
  | .sampleStrobe | .audioBoundary _ | .engineBoundary _ | .cwOpen | .verdict | .outputCommit | .snapdragonFlip
  | .glideStep | .mirrorSnapshot | .stagingExchange | .tickWatchdogFeed _ | .ofsEvent _ | .tickStart | .tickStop
  | .ecycClr _ | .tickCountLoRead | .registerWrite _ _ | .irqForce _ _ | .errCodeClear _ _ | .idleRequest _
  | .idleAck _ | .blockResetRequest _ | .blockResetTimeout _ | .blockResetRelease _ | .remapWrite _
  | .hubSourceAssert _ | .hubClaim _ | .hubDone _ _ | .hubSwset _ | .hubEvmonRead | .hubWclkDivWrite _
  | .hubSourceCfgWrite _ _ | .interruptTaken _ | .transactionGrant _ | .transactionResponse _ _ | .aliasWrite _ _ _
  | .localAccessServe _ | .bankStateRequest _ _ | .bankTransitionStart _ | .bankTransitionDone _ | .bistStart _
  | .bistAbort | .bistBankDone _ _ | .bistDone | .conflictClr _ | .endpointPush _ _ _ _ | .endpointPop _ _ _
  | .creditWaitEnd _ _ | .bankMoverTransfer _ | .queueEnable | .queueDisable | .queueFlush | .queueClrstat
  | .resultDelivery _ | .remoteAccessResponse _ _ _ | .dot _ _ | .dual _ _ | .bcast _ _ | .cross _ _ | .mac1 _ _
  | .aadd _ _ | .ada _ _ | .lsPair _ | .queuePop _ | .queuePush _ | .singleLoad _ | .singleStore _ | .modp _ | .add _
  | .sub _ | .neg _ | .abs _ | .shl _ | .asr _ | .lsr _ | .and _ | .or _ | .xor _ | .not _ | .min _ | .max _ | .slt _
  | .seq _ | .mov _ | .ldi _ | .ext _ | .expd _ | .expa _ | .normd _ | .norma _ | .br _ | .call _ | .jr _ | .ret _
  | .loop _ | .loopr _ | .loopEnd _ | .endt _ | .endtComplete _ | .waitev _ | .eventWaitEnd _ | .mts _ | .mfs _
  | .trap _ | .rete _ | .waiti _ | .breakpoint _ | .coreStart _ | .coreHalt _ | .haltDone _ | .coreStep _
  | .coreResume _ | .regdataStage _ _ _ | .regdataCommit _ _ | .mecStatsClr _ _ | .icacheInvalidate _
  | .stewardWdogKick _ _ | .stewardWdogExpiry _ | .flipArm | .flipArmNext | .flipDisarm | .flipNow | .glideArm
  | .glideArmNext | .glideDisarm | .glideStop | .heldCoeffWrite _ | .flipLastRead | .selectTableWrite _ _
  | .genTypeWrite _ _ | .genSeedWrite _ _ | .dmixGainWrite _ _ | .zcTimeout _ | .courierStop _ | .channelDone _
  | .courierMove _ | .burstDecision _ | .courierGather _ | .courierScatter _ | .courierLoop _ | .courierWait _
  | .courierWaitEnd _ | .courierSignal _ | .courierFence _ | .fenceDone _ | .courierLdptr _ | .courierAddptr _
  | .channelStart _ | .channelAbort _ | .abortDone _ | .flagSet _ _ | .plainRelease _ _ | .mtxStatsClr _
  | .portDrain _ | .drainDone _ | .sapEnable _ | .sapFrameSent _ _ | .sapClockLoss _ | .sapClockRecovery _
  | .nonaudioTimeout _ | .aesFrameReceived _ _ | .aesLock _ | .aesLockLoss _ | .aesStatusBlock _ _ | .aesFrameSent _
  | .txcsCommit _ _ | .txcsCopy _ | .asrcLock _ _ | .asrcLockLoss _ _ | .jackDebounce _ _ | .jackClassRound _ _ _ _
  | .jackReclass _ | .jackButtonSample _ _ | .jackButtonDebounce _ | .jackEventPop | .jackRawSample _ | .jackRawPop
  | .refInactive _ | .wtrExpiry _ | .restoreNow | .buildoutDone | .recal | .recalDone | .dcoRail _ | .apllUnlock _
  | .frameSourcePulse _ | .frameOutPulse | .frameMiss | .incCommit _ | .timeStep | .timeCapture | .tbNsRead
  | .tbShortRead | .shortWrap | .secondRollover | .laneEnable _ | .losAssert _ | .losClear _ | .cdrLock _ _
  | .cdrLoss _ | .laneBlockReceived _ _ _ | .relock _ | .idleEnter _ | .idleExit _ | .trainingBurstEnd _
  | .rxIdleTimeout _ | .irisStart | .irisAbort | .irisPointDone _ | .irisBufPop | .ethLinkChange _ _ _
  | .ringEnable _ _ _ _ | .ringDisable _ _ _ | .ringTailWrite _ _ _ _ | .txFrameFetch _ _ | .txFrameStart _
  | .txFrameDone _ _ | .rxFramePlace _ | .pauseExpiry _ _ | .gateEntryAdvance _ | .gclArm _ | .gclDisarm _
  | .gclSwitch _ | .ethStatsClr _ _ | .cb0RxPop | .cb0TxPush _ | .cb0TxDone _ | .cb0BackoffExpiry | .cb0Txflush _
  | .plcaStatusChange _ | .mdioAccess _ | .mdioDone _ | .cb0StatsClr _ | .streamEnable _ _ | .streamPacketSend _
  | .planeDown _ _ | .strmStatsClr _ | .stemEnable _ | .stemFrameSend _ | .stemIdleBurst _ | .stemLinkWait _
  | .ctxSend _ _ | .crxPop _ | .stmStatsClr _ _ | .spkEnable _ _ | .spkPlay _ _ | .spkMute _ | .spkDiag _ _
  | .spkClear _ | .softStartSwitching _ | .softStartDone _ | .softStopDone _ | .loopPeriod _ _ _ | .comparatorTrip _
  | .stageFault _ | .shortRetry _ _ | .retryReset _ | .spkStatsClr _ _ | .guardSeal _ | .sealCopyDone | .copyCompare
  | .release _ _ | .resume _ _ | .swquiet _ | .totestSet _ | .totestClear _ | .dcWindow _ | .dutyWindow _ _
  | .gateTrip _ | .overlapDetect _ _ | .tripClear _ _ | .pinPathTimer _ | .wdogExpiry | .safeAssert | .fqiAssert
  | .fqiClear | .standbyClear | .xchkTimeout _ | .keepaliveLoss | .fgSupplyFault _ | .fgStatsClr _ | .mgldEnable _
  | .recordSend | .mirrorInputForward _ | .statusReceived _ _ _ | .heartbeatDeadline | .takeover _ | .handover _
  | .join _ | .mgldStatsClr _ | .dramInit _ | .dramResume _ | .dramInitDone _ _ | .retrain _ | .rtArm _
  | .dramService _ | .refreshDue _ | .mr4Read _ _ _ | .pauseDue _ | .pauseStart _ | .pauseGrace _ | .pauseEnd _ _
  | .selfrefEntry _ | .selfrefExit _ | .dramStatsClr _ _ | .por | .resetPin _ | .peerResetIn | .thermalTrip
  | .enginePllLoss | .jtagSysrst | .softwareReset _ | .resetSequenceStep _ | .resetRelease _ | .engineResetRelease
  | .fuseProgram _ | .fuseProgramDone _ | .peerResetPulse _ | .powerStateRequest _ | .pstateDone | .wakePin
  | .pwrgoodRise | .pwrgoodTimeout | .tempReading _ | .bootLoad _ | .bootAck | .bootSourceTimeout
  | .hostWriteWords _ _ | .hostReadWords _ _ | .hostReadStatus | .hostMboxPush _ | .hostMboxPop _ | .mboxInRead
  | .mboxOutWrite _ | .bootqXfer _ | .bootqXferDone _ | .bootqDataRead | .bootqDataWrite _ | .referenceActive _
  | .launchTime _ _ | .cb0TransmitStart | .markerReceived _ _ _ | .reservedOpcode _ _ | .courierReservedOpcode _ => true

end Sys2Proof
end

