-- ==== Sys2Proof/Tests/Slice0.lean ====
section
/-! SUPPORT. Tests: ill-formed commands that WellFormed refuses, worked examples of the spec, and for every statement
with hypotheses a state and operands that meet those of each of its clauses. -/

namespace Sys2Proof.Tests

open Sys2Proof Sys2Proof.Machine Sys2Proof.Safety

/-- The reset state with its chip changed. -/
def st (f : Chip → Chip) : State := State.reset.chipTo (f State.reset.chip)

/-- The reset state with these registers. -/
def sr (l : List (Nat × Word)) : State := st fun c => l.foldl (fun c e => c.wr e.1 e.2) c

/-- The same with the Tick Unit on. -/
def srOn (l : List (Nat × Word)) : State :=
  (sr l).chipTo { (sr l).chip with tick := { tickReset with on := true } }

/-- The reset state with the Tick Unit on, in the phase `p`. -/
def sPhase (p : Nat) (f : Chip → Chip := id) : State :=
  st fun c => f ({ c with tick := { tickReset with on := true } }.wr Reg.TICK_PHASE (word p))

/-- What a command leaves. -/
def after (o : Host.Outcome State Fault Refusal) : State :=
  match o with
  | .next t => t
  | _ => State.reset
/-! Witnesses: the step, ticks and time. -/

theorem witness_StepRunsFrontOrIdles :
    (∃ (s : State) (c : Instr) (rest : List Instr), s.pending = c :: rest) ∧ ∃ s : State, s.pending = [] :=
  ⟨⟨{ State.reset with pending := [.verdict] }, .verdict, [], rfl⟩, State.reset, rfl⟩

theorem witness_TickStartRefusesInvalidConfigurations :
    (∃ s : State, s.chip.tick.on = false ∧ 5 < s.chip.rdf Reg.TICK_CFG 2 0) ∧
    (∃ s : State, s.chip.tick.on = false ∧ 5 < s.chip.rdf Reg.TICK_CFG 6 4) ∧
    (∃ s : State, s.chip.tick.on = false ∧ s.chip.rdf Reg.TICK_CFG 9 8 = 3) ∧
    (∃ s : State, s.chip.tick.on = false ∧ 4 ≤ s.chip.rdf Reg.TICK_CFG 2 0 ∧ s.chip.rdf Reg.TICK_CFG 6 4 = 0) ∧
    (∃ s : State, s.chip.tick.on = false ∧ s.chip.rdf Reg.TICK_CFG 2 0 ≤ 5 ∧ s.chip.rdf Reg.TICK_CFG 6 4 ≤ 5 ∧
      s.chip.rdf Reg.TICK_CFG 9 8 ≠ 3 ∧ (s.chip.rdf Reg.TICK_CFG 2 0 < 4 ∨ s.chip.rdf Reg.TICK_CFG 6 4 ≠ 0) ∧
      s.chip.rdf Reg.TICK_CFG 9 8 = 1 ∧ before (s.chip.rd Reg.TICK_START_TIME) s.chip.tb.short = true) ∧
    (∀ start ∈ [0, 1, 2], ∃ s : State, s.chip.tick.on = false ∧ s.chip.rdf Reg.TICK_CFG 2 0 = 3 ∧
      s.chip.rdf Reg.TICK_CFG 6 4 = 0 ∧ s.chip.rdf Reg.TICK_CFG 9 8 = start ∧
      before (s.chip.rd Reg.TICK_START_TIME) s.chip.tb.short = false) ∧
    (∀ stopping : Bool, ∃ s : State, s.chip.tick.on = true ∧ s.chip.tick.stopping = stopping) :=
  ⟨⟨sr [(Reg.TICK_CFG, 0x26)], by decide⟩, ⟨sr [(Reg.TICK_CFG, 0x63)], by decide⟩, ⟨sr [(Reg.TICK_CFG, 0x323)], by decide⟩,
    ⟨sr [(Reg.TICK_CFG, 0x04)], by decide⟩, ⟨sr [(Reg.TICK_CFG, 0x155), (Reg.TICK_START_TIME, 0xFFFF_FFFF)], by decide⟩,
    fun a h => ⟨sr [(Reg.TICK_CFG, word (3 + a * 0x100))], by revert a h; decide⟩,
    fun b => ⟨st fun c => { c with tick := { tickReset with on := true, stopping := b } }, by revert b; decide⟩⟩

theorem witness_ReadsLatchAndCountersClear :
    bit 1 0 = true ∧ bit 2 0 = false ∧ hubReserved 255 = true ∧ hubReserved 0 = false ∧
      (4 ≤ fld 0xF 4 0 ∧ fld 0xF 4 0 ≤ 15) := by decide

theorem witness_IncrementCommitOrRefusal :
    (1 ≤ fld 1 3 0 ∧ fld 1 3 0 < 4) ∧ (1 ≤ fld 3 3 0 ∧ fld 3 3 0 < 4) ∧ fld 0x10 3 0 = 0 ∧ 4 ≤ fld 4 3 0 ∧
      State.reset.chip.blkPhase pgTB ≠ 2 := by decide

theorem witness_TimeStepMovesPtpOnly :
    (∀ b : Bool, ∃ s : State, (s.chip.rd Reg.TB_STEP_NS).toInt.natAbs ≤ 999999999 ∧ s.chip.pstate < 2 ∧
      s.chip.rdb Reg.TB_STAT 0 = b) ∧
    (∃ s : State, 999999999 < (s.chip.rd Reg.TB_STEP_NS).toInt.natAbs) :=
  ⟨fun b => ⟨sr [(Reg.TB_STEP_NS, 999999999), (Reg.TB_STAT, if b then 1 else 0)], by revert b; decide⟩, ⟨sr [(Reg.TB_STEP_NS, 0xC465_3600)], by decide⟩⟩

theorem witness_CountersRollOver :
    (∃ s : State, 2 ≤ s.chip.pstate) ∧ ∃ s : State, (1 ≤ s.chip.tb.incInt.toNat ∧ s.chip.tb.incInt.toNat < 4) ∧
      s.chip.pstate < 2 ∧ s.chip.tb.ns.toNat < 1000000000 :=
  ⟨⟨sr [(Reg.CLKPWR_PSTAT, 2)], by decide⟩, st fun c => { c with tb := { tbReset with incInt := 3, ns := 999999999 } }, by decide⟩

/-! Pages and the matrix. -/

theorem witness_PagesIgnoreWhatTheyDoNotName :
    (∃ (s : State) (a : BitVec 20), s.chip.blkPhase (a.toNat / 0x1000) ≠ 2 ∧ pageKind (a.toNat / 0x1000) = none) ∧
    (∃ (s : State) (a : BitVec 20) (pk : PageKind) (i : Nat), s.chip.blkPhase (a.toNat / 0x1000) ≠ 2 ∧
      pageKind (a.toNat / 0x1000) = some (pk, i) ∧ 0x40 ≤ a.toNat % 0x1000 ∧
      pageRow pk i (a.toNat % 0x1000) = none) ∧
    (∃ (s : State) (a : BitVec 20) (pk : PageKind) (i : Nat) (r : RegRow), s.chip.blkPhase (a.toNat / 0x1000) ≠ 2 ∧
      pageKind (a.toNat / 0x1000) = some (pk, i) ∧ 0x40 ≤ a.toNat % 0x1000 ∧
      pageRow pk i (a.toNat % 0x1000) = some r ∧ r.acc = .ro) ∧
    (∃ (s : State) (a : BitVec 20), s.chip.blkPhase (a.toNat / 0x1000) = 2) ∧
    ∃ s : State, s.chip.blkPhase pgTICK ≠ 2 :=
  ⟨⟨State.reset, 0x17040, by decide⟩, ⟨State.reset, 0x09FFC, .tickP, 0, by decide⟩,
    ⟨State.reset, BitVec.ofNat 20 Reg.TICK_ECYC, .tickP, 0, ((pageRows .tickP).find? (·.has (Reg.TICK_ECYC % 0x1000))).get (by decide),
      by decide⟩,
    ⟨st fun c => { c with pwr := { pwrReset with blk := [(pgTICK, 2)] } }, 0x09074, by decide⟩, State.reset, by decide⟩

theorem witness_FlagsAndErrorRecordOfAPage :
    (∃ (s : State) (p : Fin 256) (v : Word) (pk : PageKind) (i : Nat), pageKind p = some (pk, i) ∧ s.chip.blkPhase p ≠ 2 ∧
      s.chip.rdf (Reg.ERR_CODE p) 7 0 ≠ 0 ∧ fld v 7 0 = s.chip.rdf (Reg.ERR_CODE p) 7 0) ∧
    (∃ (s : State) (p : Fin 256) (pk : PageKind) (i : Nat), pageKind p = some (pk, i) ∧ s.chip.blkPhase p ≠ 2 ∧
      s.chip.rdf (Reg.ERR_CODE p) 7 0 = 0) ∧
    (∃ (s : State) (p : Fin 256) (v : Word) (pk : PageKind) (i : Nat), pageKind p = some (pk, i) ∧ s.chip.blkPhase p ≠ 2 ∧
      s.chip.rdf (Reg.ERR_CODE p) 7 0 ≠ 0 ∧ fld v 7 0 ≠ s.chip.rdf (Reg.ERR_CODE p) 7 0) :=
  ⟨⟨sr [(Reg.ERR_CODE 0x10, 0x102)], 0x10, 2, .tbP, 0, by decide⟩, ⟨State.reset, 0x90, .spkcP, 0, by decide⟩,
    ⟨sr [(Reg.ERR_CODE 0x10, 0x102)], 0x10, 1, .tbP, 0, by decide⟩⟩

/-- The reset state with page `p` in phase `k` of a BLOCK reset, and these writes held. -/
def sBlk (p k : Nat) (held : List (Nat × Word) := []) : State :=
  st fun c => { c with pwr := { pwrReset with blk := [(p, k)], blkHeld := held } }

theorem witness_BlockResetProceedsByIdleness :
    (∃ p : Fin 256, pageKind p = none) ∧ (∃ p : Fin 256, p.val ∈ [pgSYS, pgRST, pgCLKPWR, pgFUSE, pgFG]) ∧
    (∃ (s : State) (p : Fin 256), s.chip.blkPhase p ≠ 0 ∧ s.chip.blkPhase p ≠ 1) ∧ (∃ (s : State) (p : Fin 256), s.chip.blkPhase p ≠ 2) ∧
    (∃ (s : State) (p : Fin 256), s.chip.idleReq p = true) ∧ (∃ (s : State) (p : Fin 256), s.chip.idleReady p = false) ∧
    (∃ (s : State) (p : Fin 256) (i : Nat), pageKind p = some (.dramP, i) ∧ s.chip.blkPhase p = 0 ∧
      (s.chip.dramSleep i 3).idleReady p = true ∧ (s.chip.dramSleep i 3).idleAtOnce p = true) ∧
    (∃ (s : State) (p : Fin 256) (i : Nat), pageKind p = some (.tickP, i) ∧ s.chip.blkPhase p = 0 ∧ s.chip.idleReady p = false) ∧
    (∃ (s : State) (p : Fin 256) (i : Nat), pageKind p = some (.guardP, i) ∧ s.chip.blkPhase p = 1 ∧ s.chip.sealed = false) ∧
    (∃ (s : State) (p : Fin 256) (i : Nat), pageKind p = some (.asterP, i) ∧ s.chip.blkPhase p = 1 ∧ s.chip.idleReady p = true) ∧
    (∃ (s : State) (p : Fin 256) (i : Nat), pageKind p = some (.asterP, i) ∧ s.chip.blkPhase p = 2 ∧ blockPort .asterP i = none ∧
      s.chip.pwr.blkHeld.filter (fun e => e.1 / 0x1000 == p.val) = [(0xF040, 7)]) ∧
    (∃ (s : State) (p : Fin 256) (i m : Nat), pageKind p = some (.curP, i) ∧ s.chip.blkPhase p = 2 ∧ blockPort .curP i = some m ∧
      s.chip.draining m = false) ∧
    (∀ e ∈ [(8, PageKind.qfP, 0), (0x0E, .dramP, 1), (0x0F, .asterP, 0)], pageKind e.1 = some e.2 ∧ State.reset.chip.idleReq e.1 = false) ∧
    (∃ (s : State) (p : Fin 256), s.chip.idleReady p = true ∧ s.chip.idleReq p = false ∧ s.chip.blkPhase p ≠ 1) ∧
    (∃ (s : State) (p : Fin 256), s.chip.idleReady p = true ∧ s.chip.idleReq p = true ∧ s.chip.blkPhase p ≠ 1) ∧
    (∃ s : State, s.chip.blkPhase pgTB = 0 ∧ rising s.chip.regs = true) :=
  ⟨⟨0x17, by decide⟩, ⟨4, by decide⟩, ⟨sBlk 9 2, 9, by decide⟩, ⟨State.reset, 9, by decide⟩, ⟨sr [(Reg.CTRL 0x0F, 4)], 0x0F, by decide⟩,
    ⟨State.reset, 0x17, by decide⟩, ⟨State.reset, 0x0E, 1, by decide⟩, ⟨sPhase 1, 9, 0, by decide⟩, ⟨sBlk pgGUARD 1, 0x16, 0, by decide⟩,
    ⟨sBlk 0x0F 1, 0x0F, 0, by decide⟩, ⟨sBlk 0x0F 2 [(0xF040, 7), (0x9074, 1)], 0x0F, 0, by decide⟩, ⟨sBlk 0x19 2, 0x19, 1, 7, by decide⟩,
    by decide, ⟨State.reset, 0x0F, by decide⟩, ⟨sr [(Reg.CTRL 0x0F, 4)], 0x0F, by decide⟩, ⟨State.reset, by decide⟩⟩

/-- A read of one 32-byte beat of DRAM by Courier instance 0. -/
def tRead : Txn :=
  { master := 6, chan := 0, write := false, addr := 0x8000_0000, beatLog := 5, beats := 1, data := [], strobes := [] }

/-- The part of such a read at target `t`. -/
def tPart (t : Nat) : MtxPart := { master := 6, seq := 0, target := t, lo := 0, n := 1, qos := 0, since := 0 }

/-- The read, open with no part left. -/
def tOpen (t : Nat) : MtxOpen := { seq := 0, txn := tRead, addrs := [0x8000_0000], targets := [t], left := 0, fails := [], data := [] }

/-- The reset state with this in the matrix. -/
def sMtx (f : MtxSt → MtxSt) : State := st fun c => { c with mtx := f mtxReset }

theorem witness_MatrixIssueAndArbitration :
    (∃ t : Txn, txnOk t = false) ∧ (∃ (s : State) (t : Txn), s.chip.draining t.master = true) ∧
    (∃ (s : State) (t : Txn), txnOk t = true ∧ s.chip.draining t.master = false ∧ (∀ h ∈ s.chip.mtx.held, h.master ≠ t.master) ∧
      s.chip.atLimit t.master t.chan = false) ∧
    (∃ (s : State) (t : Txn), txnOk t = true ∧ s.chip.draining t.master = false ∧ (∀ h ∈ s.chip.mtx.held, h.master ≠ t.master) ∧
      s.chip.atLimit t.master t.chan = true) ∧
    (∃ (s : State) (t : Fin 13), s.chip.heads t = []) ∧
    (∃ (s : State) (t : Fin 13), s.chip.heads t ≠ [] ∧ t.val ≠ 8 ∧ t.val ≠ 9) ∧
    (∃ (s : State) (m : Fin 15), ∀ o ∈ s.chip.mtx.opn, o.txn.master ≠ m) ∧
    (∃ (s : State) (t : Fin 13) (m : Fin 15) (o : MtxOpen) (rest : List MtxOpen), s.chip.mtx.opn = o :: rest ∧
      o.txn.master = m ∧ t.val ∈ o.targets ∧ o.left = 0 ∧ o.txn.write = false ∧ o.fails = [] ∧
      (∀ p ∈ s.chip.mtx.acc, p.seq ≠ o.seq) ∧ (∀ x ∈ rest, x.seq ≠ o.seq) ∧ s.chip.mtx.held = []) ∧
    (bit 2 0 = false ∧ bit 1 0 = true) ∧ (∃ (s : State) (m : Fin 15), s.chip.draining m = false) ∧
    (∃ (s : State) (m : Fin 15), s.chip.draining m = true ∧ ∀ o ∈ s.chip.mtx.opn, o.txn.master ≠ m) ∧
    (∃ s : State, ∀ p ∈ s.chip.mtx.acc, p.target ≠ 11) ∧
    (∃ (s : State) (m : Fin 32) (p : MtxPart) (rest : List MtxPart), s.chip.mtx.acc = p :: rest ∧ p.target = 11 ∧
      s.chip.partMec p = m.val ∧ ∃ a ∈ s.chip.partAddrs p, (s.chip.region a).xy = true) :=
  ⟨⟨{ tRead with beats := 0 }, by decide⟩, ⟨sr [(Reg.MTX_MP_STAT 6, 0x1_0000)], tRead, by decide⟩,
    ⟨State.reset, tRead, by decide⟩, ⟨sMtx fun m => { m with opn := List.replicate 64 (tOpen 8) }, tRead, by decide⟩,
    ⟨State.reset, 12, by decide⟩, ⟨sMtx fun m => { m with wait := [tPart 12], opn := [tOpen 12] }, 12, by decide⟩,
    ⟨State.reset, 14, by decide⟩, ⟨sMtx fun m => { m with opn := [tOpen 8] }, 8, 6, tOpen 8, [], by decide⟩,
    by decide, ⟨State.reset, 14, by decide⟩, ⟨sr [(Reg.MTX_MP_STAT 6, 0x1_0000)], 6, by decide⟩, ⟨State.reset, by decide⟩,
    ⟨sMtx fun m => { m with acc := [tPart 11], opn := [{ tOpen 11 with txn := { tRead with addr := 0x4012_0000 }, addrs := [0x4012_0000] }] }, 1, tPart 11,
      [], by decide⟩⟩

/-! Witnesses: the window, Snapdragon, Glide and the Hub. -/

/-- A listed active queue past W1. -/
def qListed : Queue := { queueReset with en := true, w1 := true, d2 := 0xFFFF_FFFF, d3 := 0xFFFF_FFFF }

theorem witness_CommitWindowSampleVerdictCommit :
    (∃ s : State, s.chip.rdf Reg.TICK_PHASE 1 0 ≠ 1) ∧ (∃ s : State, s.chip.rdf Reg.TICK_PHASE 1 0 ≠ 2) ∧
    (∃ (s : State) (q : Nat) (x : Queue), s.chip.rdf Reg.TICK_PHASE 1 0 = 1 ∧ (q, x) ∈ s.chip.qf.qs ∧
      s.chip.qfActive = true ∧ s.chip.tick.firstTick = false ∧ x.en = true ∧ x.sched = true ∧ x.w1 = true ∧ x.lagLeft = 0) ∧
    (∃ (s : State) (q : Nat) (x : Queue), s.chip.rdf Reg.TICK_PHASE 1 0 = 2 ∧ (q, x) ∈ s.chip.qf.qs) ∧
    ∃ s : State, s.chip.rdf Reg.TICK_PHASE 1 0 = 2 ∧ s.chip.qfActive = true :=
  ⟨⟨sPhase 2, by decide⟩, ⟨sPhase 1, by decide⟩,
    ⟨sPhase 1 fun c => { c.wr (Reg.CTRL pgQF) 1 with qf := { qs := [(5, qListed)] } }, 5, qListed, by decide⟩,
    ⟨sPhase 2 fun c => { c with qf := { qs := [(5, qListed)] } }, 5, qListed, by decide⟩,
    ⟨sPhase 2 (·.wr (Reg.CTRL pgQF) 1), by decide⟩⟩

theorem witness_EngineBoundaryMovesTheTick :
    (∃ s : State, s.chip.tick.on = false) ∧
    (∃ s : State, s.chip.rdf Reg.TICK_PHASE 1 0 ≠ 0 ∧ s.chip.rdf Reg.TICK_PHASE 1 0 ≠ 2) ∧
    (∃ s : State, s.chip.tick.on = true ∧ s.chip.rdf Reg.TICK_PHASE 1 0 = 0) ∧
    (∃ s : State, s.chip.tick.on = true ∧ s.chip.rdf Reg.TICK_PHASE 1 0 = 2 ∧ s.chip.tick.stopping = false) ∧
    (∃ s : State, s.chip.tick.on = true ∧ s.chip.rdf Reg.TICK_PHASE 1 0 = 2 ∧ s.chip.tick.stopping = true ∧
      s.chip.tick.restart = false) ∧
    (∃ s : State, s.chip.tick.on = true ∧ s.chip.rdf Reg.TICK_PHASE 1 0 ≠ 0) :=
  ⟨⟨State.reset, by decide⟩, ⟨sPhase 1, by decide⟩, ⟨sPhase 0, by decide⟩, ⟨sPhase 2, by decide⟩,
    ⟨sPhase 2 fun c => { c with tick := { c.tick with stopping := true } }, by decide⟩, ⟨sPhase 1, by decide⟩⟩

/-- A flip and a glide armed for tick `t`. -/
def flipAt (t : BitVec 48) (lag begun : Bool) : FlipArm := { tick := t, mask := 1, lag := lag, begun := begun }
def glideAt (t : BitVec 48) : GlideArm := { tick := t, mask := 1, g := 1 }

/-- Phase `p` with this armed. -/
def sSnap (p : Nat) (f : SnapSt → SnapSt) : State := sPhase p fun c => { c with snap := f snapReset }

theorem witness_FlipAndGlideArmsAreCheckedInOrder :
    (∃ (s : State) (t : BitVec 48), t = s.chip.tickOf Reg.SNAP_FLIP_TICK_LO Reg.SNAP_FLIP_TICK_HI ∧ s.chip.tick.on = false) ∧
    (∃ s : State, s.chip.tick.on = true ∧ s.chip.snap.flip ≠ none) ∧
    (∃ (s : State) (t : BitVec 48), t = s.chip.tickOf Reg.SNAP_FLIP_TICK_LO Reg.SNAP_FLIP_TICK_HI ∧ s.chip.tick.on = true ∧
      s.chip.snap.flip = none ∧ 2 ^ 47 ≤ (t - s.chip.tick.count).toNat) ∧
    (∃ (s : State) (t : BitVec 48), t = s.chip.tickOf Reg.SNAP_FLIP_TICK_LO Reg.SNAP_FLIP_TICK_HI ∧ s.chip.tick.on = true ∧
      s.chip.snap.flip = none ∧ t = s.chip.tick.count ∧ s.chip.rdf Reg.TICK_PHASE 1 0 = 2) ∧
    (∃ (s : State) (t : BitVec 48), t = s.chip.nextWindow ∧ s.chip.tick.on = true ∧ s.chip.snap.flip = none ∧
      (t - s.chip.tick.count).toNat < 2 ^ 47 ∧ (t = s.chip.tick.count → s.chip.rdf Reg.TICK_PHASE 1 0 ≠ 2)) ∧
    (∃ (s : State) (t : BitVec 48), t = s.chip.nextWindow ∧ s.chip.tick.on = true ∧ s.chip.snap.glide = none ∧
      (t - s.chip.tick.count).toNat < 2 ^ 47 ∧ (t = s.chip.tick.count → s.chip.rdf Reg.TICK_PHASE 1 0 ≠ 2) ∧
      s.chip.glBad (s.chip.rd Reg.SNAP_GLIDE_MASK) = none) ∧
    (∃ (s : State) (t : BitVec 48), t = s.chip.nextWindow ∧ s.chip.tick.on = true ∧ s.chip.snap.glide = none ∧
      (t - s.chip.tick.count).toNat < 2 ^ 47 ∧ (t = s.chip.tick.count → s.chip.rdf Reg.TICK_PHASE 1 0 ≠ 2) ∧
      s.chip.glBad (s.chip.rd Reg.SNAP_GLIDE_MASK) = some 31) ∧
    (∃ (s : State) (f : FlipArm), s.chip.snap.flip = some f ∧ f.begun = true) ∧
    (∃ (s : State) (f : FlipArm), s.chip.snap.flip = some f ∧ f.tick = s.chip.tick.count ∧ s.chip.rdf Reg.TICK_PHASE 1 0 = 2) ∧
    (∃ (s : State) (f : FlipArm), s.chip.snap.flip = some f ∧ f.begun = false ∧
      (f.tick = s.chip.tick.count → s.chip.rdf Reg.TICK_PHASE 1 0 ≠ 2)) ∧
    (∃ (s : State) (g : GlideArm), s.chip.snap.glide = some g ∧ (g.tick = s.chip.tick.count → s.chip.rdf Reg.TICK_PHASE 1 0 ≠ 2)) ∧
    ∃ s : State, s.chip.snap.flip = none ∧ s.chip.snap.glide = none :=
  ⟨⟨State.reset, 0, by decide⟩, ⟨sSnap 1 fun x => { x with flip := some (flipAt 9 false false) }, by decide⟩,
    ⟨sPhase 1 fun c => c.wr Reg.SNAP_FLIP_TICK_HI 0x8000, 0x8000_0000_0000, by decide⟩, ⟨sPhase 2, 0, by decide⟩,
    ⟨sPhase 2, 1, by decide⟩, ⟨sPhase 1, 0, by decide⟩,
    ⟨sPhase 1 fun c => (c.wr Reg.SNAP_GLIDE_MASK 0x8000_0000).wr (Reg.SNAP_GL_LIST 31) 0xFFFF_FFFF, 0, by decide⟩,
    ⟨sSnap 1 fun x => { x with flip := some (flipAt 9 true true) }, flipAt 9 true true, by decide⟩,
    ⟨sSnap 2 fun x => { x with flip := some (flipAt 0 true false) }, flipAt 0 true false, by decide⟩,
    ⟨sSnap 1 fun x => { x with flip := some (flipAt 0 true false) }, flipAt 0 true false, by decide⟩,
    ⟨sSnap 1 fun x => { x with glide := some (glideAt 0) }, glideAt 0, by decide⟩, ⟨State.reset, by decide⟩⟩

theorem witness_FlipExchangesBanksAndPages :
    (∃ s : State, s.chip.snap.flip = none) ∧ (∃ s : State, s.chip.rdf Reg.TICK_PHASE 1 0 ≠ 2) ∧
    (∃ (s : State) (f : FlipArm), s.chip.snap.flip = some f ∧ s.chip.rdf Reg.TICK_PHASE 1 0 = 2 ∧ f.begun = false ∧
      f.tick ≠ s.chip.tick.count) ∧
    (∃ (s : State) (f : FlipArm), s.chip.snap.flip = some f ∧ s.chip.rdf Reg.TICK_PHASE 1 0 = 2 ∧ f.begun = true ∧
      s.chip.tick.count ≠ f.tick + 1) ∧
    (∃ (s : State) (f : FlipArm), s.chip.snap.flip = some f ∧ s.chip.rdf Reg.TICK_PHASE 1 0 = 2 ∧ f.begun = false ∧
      f.tick = s.chip.tick.count ∧ f.lag = true) ∧
    (∃ (s : State) (f : FlipArm), s.chip.snap.flip = some f ∧ s.chip.rdf Reg.TICK_PHASE 1 0 = 2 ∧ f.begun = false ∧
      f.tick = s.chip.tick.count ∧ f.lag = false) ∧
    (∃ (s : State) (f : FlipArm), s.chip.snap.flip = some f ∧ s.chip.rdf Reg.TICK_PHASE 1 0 = 2 ∧ f.begun = true ∧
      s.chip.tick.count = f.tick + 1) ∧
    (∃ s : State, s.chip.tick.on = true) ∧
    (∃ s : State, s.chip.tick.on = false ∧ s.chip.snapBit pgPATCH = true ∧ s.chip.snapBit pgDMIX = true) ∧
    (∃ s : State, s.chip.tick.on = false ∧ s.chip.snapBit pgPATCH = false ∧ s.chip.snapBit pgDMIX = false) :=
  ⟨⟨State.reset, by decide⟩, ⟨State.reset, by decide⟩,
    ⟨sSnap 2 fun x => { x with flip := some (flipAt 9 true false) }, flipAt 9 true false, by decide⟩,
    ⟨sSnap 2 fun x => { x with flip := some (flipAt 9 true true) }, flipAt 9 true true, by decide⟩,
    ⟨sSnap 2 fun x => { x with flip := some (flipAt 0 true false) }, flipAt 0 true false, by decide⟩,
    ⟨sSnap 2 fun x => { x with flip := some (flipAt 0 false false) }, flipAt 0 false false, by decide⟩,
    ⟨sSnap 2 fun x => { x with flip := some (flipAt (-1) true true) }, flipAt (-1) true true, by decide⟩,
    ⟨sPhase 0, by decide⟩, ⟨sr [(Reg.SHADOW_CTL pgPATCH, 1), (Reg.SHADOW_CTL pgDMIX, 1)], by decide⟩, ⟨State.reset, by decide⟩⟩

/-- A held write of one byte. -/
def heldOne : HeldWrite := { ofs := 0x6_8000, bytes := [(0x6_8000, 7)] }

theorem witness_GlideStepsAndHeldWrites :
    (∃ s : State, s.chip.rdf Reg.TICK_PHASE 1 0 ≠ 2) ∧
    (∃ (s : State) (m : Fin 32), s.chip.rdf Reg.TICK_PHASE 1 0 = 2 ∧ s.mem.wf = true ∧ s.chip.glRem m = 1 ∧ s.chip.glLen m = 1 ∧
      s.dev.glideEntryAt m 0 < 0x8000) ∧
    (∃ (s : State) (m : Fin 32), bit (s.chip.rd Reg.SNAP_GLIDE_MASK) m = true ∧ s.chip.glRem m ≠ 0) ∧
    (∃ (s : State) (m : Fin 32), look [] s.chip.snap.held m = []) ∧
    (∃ (s : State) (m : Fin 32) (w : HeldWrite), look [] s.chip.snap.held m = [w] ∧
      s.chip.rdb Reg.SNAP_LIVE m ≠ decide (0x6_8000 ≤ w.ofs) ∧ s.chip.shadowLocked m = false) :=
  ⟨⟨State.reset, by decide⟩,
    ⟨sPhase 2 fun c => (c.wr (Reg.SNAP_GL_REM 31) 1).wr (Reg.SNAP_GL_LIST 31) 0x1_0000, 31, by decide⟩,
    ⟨sr [(Reg.SNAP_GLIDE_MASK, 0xFFFF_FFFF), (Reg.SNAP_GL_REM 31, 0xFFF)], 31, by decide⟩, ⟨State.reset, 0, by decide⟩,
    ⟨st fun c => { c with snap := { snapReset with held := [(31, [heldOne])] } }, 31, heldOne, by decide⟩⟩

/-- The reset state with source `i` of the Hub. -/
def sHub (i : Nat) (x : HubSrc) (l : List (Nat × Word)) : State :=
  (sr l).chipTo { (sr l).chip with hub := { hubReset with srcs := [(i, x)] } }

set_option maxRecDepth 20000 in
theorem witness_HubClaimReturnsTheBestSource :
    (∃ (s : State) (t : Fin 3), ∀ i, i < 256 → s.chip.offerable t i = false) ∧
    (∃ (s : State) (t : Fin 3) (b : Nat), b < 256 ∧ s.chip.offerable t b = true ∧
      ∀ i, i < 256 → s.chip.offerable t i = true →
        s.chip.hubPrio i < s.chip.hubPrio b ∨ (s.chip.hubPrio i = s.chip.hubPrio b ∧ b ≤ i)) ∧
    (∃ (s : State) (t : Fin 3) (v : Word), (s.chip.hubSrc (fld v 7 0)).insvc = some t) ∧
    (∃ (s : State) (t : Fin 3) (v : Word), (s.chip.hubSrc (fld v 7 0)).insvc ≠ some t) :=
  ⟨⟨State.reset, 0, by decide⟩,
    ⟨sHub 88 { hubSrcReset with pend := true, count := 255 } [(Reg.CTRL pgHUB, 1), (Reg.HUB_SRC_CFG 88, 0x8101)], 0, 88, by decide⟩,
    ⟨sHub 255 { hubSrcReset with insvc := some 2 } [], 2, 255, by decide⟩, ⟨State.reset, 0, 0, by decide⟩⟩

theorem witness_HubAssertionLatchesAndDelivers :
    (∃ src : Fin 256, src.val ≠ 236 ∧ hubReserved src = true) ∧
    (∃ (s : State) (src : Fin 256), src.val ≠ 236 ∧ hubKindP src = false ∧ s.chip.hubLevel src = false) ∧
    (∃ s : State, s.chip.hub.wclk < s.chip.rdf Reg.HUB_WCLK_DIV 15 0) ∧
    (∃ (s : State) (src : Fin 256), hubReserved src = false ∧ (hubKindP src = true ∨ s.chip.hubLevel src = true) ∧
      (src.val = 236 → s.chip.rdf Reg.HUB_WCLK_DIV 15 0 ≤ s.chip.hub.wclk) ∧ s.chip.freeze pgHUB = false ∧
      (s.chip.hubSrc src).count ≠ 0 ∧ 16 ≤ s.chip.hubRoute src ∧ s.chip.en pgHUB = true) ∧
    (∃ (s : State) (src : Fin 256), hubReserved src = false ∧ (hubKindP src = true ∨ s.chip.hubLevel src = true) ∧
      (src.val = 236 → s.chip.rdf Reg.HUB_WCLK_DIV 15 0 ≤ s.chip.hub.wclk) ∧ s.chip.freeze pgHUB = true ∧
      s.chip.hubRoute src < 16 ∧ s.chip.en pgHUB = false) ∧
    (∃ s : State, s.chip.rdf Reg.TICK_PHASE 1 0 ≠ 0 ∧ s.chip.freeze pgHUB = false ∧ (s.chip.hubSrc (3 + 1)).count = 0) ∧
    (∃ s : State, s.chip.rdf Reg.TICK_PHASE 1 0 = 0) ∧
    (∃ (s : State) (v : Word) (k : Fin 8), s.chip.freeze pgHUB = false ∧ bit v k = true ∧ (s.chip.hubSrc (88 + k.val)).count ≠ 255) :=
  ⟨⟨255, by decide⟩, ⟨State.reset, 16, by decide⟩, ⟨sr [(Reg.HUB_WCLK_DIV, 1)], by decide⟩,
    ⟨sHub 236 { hubSrcReset with count := 255 } [(Reg.CTRL pgHUB, 1), (Reg.HUB_SRC_CFG 236, 31)], 236, by decide⟩,
    ⟨sr [(Reg.CTRL pgHUB, 8)], 0, by decide⟩, ⟨sPhase 1, by decide⟩, ⟨State.reset, by decide⟩,
    ⟨State.reset, 0x80, 7, by decide⟩⟩

/-! Witnesses: the cores. -/

/-- MEC 31, RUNNING with bundle `b` at its PC, with its registers and its chip changed. -/
def sB (b : Bundle) (x : CoreSt → CoreSt := id) (f : Chip → Chip := id) : State :=
  { State.reset with dev := {
      mem := memReset.setBytes 0x41F0_0000 (wordBytes b.ma ++ wordBytes b.mb ++ wordBytes b.ls ++ wordBytes b.ct)
      chip := f { chipReset.wr (stateKey 31) 1 with cores := [(31, x coreReset)] } } }

/-- MEC 31. -/
def m31 : CoreId := .mec 31

/-- A bundle with one word. -/
def bCt (w : Word) : Bundle := { ma := 0, mb := 0, ls := 0, ct := w }
def bLs (w : Word) : Bundle := { ma := 0, mb := 0, ls := w, ct := 0 }
def bMa (w : Word) : Bundle := { ma := w, mb := 0, ls := 0, ct := 0 }
def bMb (w : Word) : Bundle := { ma := 0, mb := w, ls := 0, ct := 0 }

/-- Operation `op` of the CT slot. -/
def ctWord (op rest : Nat) : Word := word (op * 2 ^ 26 + rest)

theorem witness_AluOperationsDeliverTheirFunction :
    ∀ op : Fin 16, op ≠ 0 → issues (coreNum m31) (bCt (ctWord op 0)) (sB (bCt (ctWord op 0))) ∧
      ctOp (bCt (ctWord op 0)).ct = op := by unfold issues atBundle; decide

/-- D1 of MEC 31 holds `v`. -/
def d1 (v : Word) (x : CoreSt) : CoreSt := { x with d := [(1, v)] }

set_option maxRecDepth 20000 in
theorem witness_MovesExtractionAndNormalisation :
    (∃ (s : State) (b : Bundle) (t : Dest), issues (coreNum m31) b s ∧ ctOp b.ct = 0x10 ∧
      codeDest (s.chip.core (coreNum m31)).rrb (fld b.ct 24 18) = some t ∧ fld b.ct 17 11 = 0x75) ∧
    (∃ (s : State) (b : Bundle) (t : Dest), issues (coreNum m31) b s ∧ ctOp b.ct = 0x11 ∧
      codeDest (s.chip.core (coreNum m31)).rrb (fld b.ct 24 18) = some t ∧ fld b.ct 17 16 = 2) ∧
    (∃ (s : State) (b : Bundle), issues (coreNum m31) b s ∧ ctOp b.ct = 0x12 ∧ fld b.ct 15 14 = 3) ∧
    (∃ (s : State) (b : Bundle), issues (coreNum m31) b s ∧ ctOp b.ct = 0x12 ∧ fld b.ct 15 14 = 0 ∧
      bit (s.chip.core (coreNum m31)).mode 8 = true) ∧
    (∃ (s : State) (b : Bundle), issues (coreNum m31) b s ∧ ctOp b.ct = 0x13) ∧
    (∃ (s : State) (b : Bundle), issues (coreNum m31) b s ∧ ctOp b.ct = 0x14) ∧
    (∃ (s : State) (b : Bundle) (n : Nat), issues (coreNum m31) b s ∧ ctOp b.ct = 0x15 ∧ n ≤ 31 ∧
      (opDB (coreNum m31) b s).toInt = n) ∧
    (∃ (s : State) (b : Bundle) (n : Nat), issues (coreNum m31) b s ∧ ctOp b.ct = 0x15 ∧ 0 < n ∧ n ≤ 32 ∧
      (opDB (coreNum m31) b s).toInt = -n) ∧
    (∃ (s : State) (b : Bundle) (n : Nat), issues (coreNum m31) b s ∧ ctOp b.ct = 0x16 ∧ n ≤ 79 ∧
      (opDB (coreNum m31) b s).toInt = n ∧ bit b.ct 25 = false) ∧
    (∃ (s : State) (b : Bundle) (n : Nat), issues (coreNum m31) b s ∧ ctOp b.ct = 0x16 ∧ n ≤ 79 ∧
      (opDB (coreNum m31) b s).toInt = n ∧ bit b.ct 25 = true ∧
      2 ^ 79 ≤ (look 0 (s.chip.core (coreNum m31)).a (fld b.ct 21 19)).toInt * 2 ^ n) ∧
    ∃ (s : State) (b : Bundle) (n : Nat), issues (coreNum m31) b s ∧ ctOp b.ct = 0x16 ∧ 0 < n ∧ n ≤ 80 ∧
      (opDB (coreNum m31) b s).toInt = -n := by
  unfold issues atBundle
  exact ⟨⟨sB (bCt (ctWord 0x10 (0x74 * 2 ^ 18 + 0x75 * 2 ^ 11))), bCt (ctWord 0x10 (0x74 * 2 ^ 18 + 0x75 * 2 ^ 11)), .rrb, by decide⟩,
    ⟨sB (bCt (ctWord 0x11 (0x3F * 2 ^ 18 + 2 * 2 ^ 16))), bCt (ctWord 0x11 (0x3F * 2 ^ 18 + 2 * 2 ^ 16)), .d 63, by decide⟩,
    ⟨sB (bCt (ctWord 0x12 (3 * 2 ^ 14))), bCt (ctWord 0x12 (3 * 2 ^ 14)), by decide⟩, ⟨sB (bCt (ctWord 0x12 0)), bCt (ctWord 0x12 0), by decide⟩,
    ⟨sB (bCt (ctWord 0x13 0)), bCt (ctWord 0x13 0), by decide⟩, ⟨sB (bCt (ctWord 0x14 0)), bCt (ctWord 0x14 0), by decide⟩,
    ⟨sB (bCt (ctWord 0x15 (2 ^ 12 + 31))), bCt (ctWord 0x15 (2 ^ 12 + 31)), 31, by decide⟩, ⟨sB (bCt (ctWord 0x15 1)) (d1 (-32)), bCt (ctWord 0x15 1), 32, by decide⟩,
    ⟨sB (bCt (ctWord 0x16 (2 ^ 12 + 79))), bCt (ctWord 0x16 (2 ^ 12 + 79)), 79, by decide⟩,
    ⟨sB (bCt (ctWord 0x16 (2 ^ 25 + 2 ^ 12 + 79))) (fun x => { x with a := [(0, 1)] }), bCt (ctWord 0x16 (2 ^ 25 + 2 ^ 12 + 79)), 79, by decide⟩,
    ⟨sB (bCt (ctWord 0x16 1)) (d1 (-80)), bCt (ctWord 0x16 1), 80, by decide⟩⟩

/-- MAC operation `op` on A7 and A0. -/
def macWord (op : Nat) : Word := word (op * 2 ^ 28 + 7 * 2 ^ 21)

theorem witness_MacOperationsAccumulateExactly :
    ∀ op : Fin 8, op ≠ 0 → issues (coreNum m31) (bMa (macWord op)) (sB (bMa (macWord op))) ∧
      issues (coreNum m31) (bMb (macWord op)) (sB (bMb (macWord op))) ∧ isSteward (coreNum m31) = false ∧
      macOp (macWord op) = op ∧ fld (macWord op) 23 21 ≠ fld (macWord op) 20 18 := by
  unfold issues atBundle; decide

/-- A queue of 16 words with one in it whose producer and consumer is MEC 31. -/
def qOwn : Queue := { queueReset with en := true, d1 := 0x1F01_1F01, push := 1, commit := 1, vis := 1 }

theorem witness_LocalLoadsAndStores :
    (∃ (s : State) (b : Bundle) (o : Nat), issues (coreNum m31) b s ∧ lsFmt b.ls = 2 ∧
      s.chip.servedLocally (coreNum m31) true true
        ((s.chip.core (coreNum m31)).addressOf s.chip.freeCtr 16 (singleAccess b.ls)).1.toNat = some o ∧
      (singleAccess b.ls).st = false) ∧
    (∃ (s : State) (b : Bundle) (o : Nat), issues (coreNum m31) b s ∧ lsFmt b.ls = 2 ∧
      s.chip.servedLocally (coreNum m31) true true
        ((s.chip.core (coreNum m31)).addressOf s.chip.freeCtr 16 (singleAccess b.ls)).1.toNat = some o ∧
      (singleAccess b.ls).st = true ∧ s.mem.wf = true ∧ coeffOffset (coreNum m31) o = false) ∧
    (∃ (s : State) (b : Bundle) (o : Nat), issues (coreNum m31) b s ∧ lsFmt b.ls = 2 ∧
      s.chip.servedLocally (coreNum m31) true true
        ((s.chip.core (coreNum m31)).addressOf s.chip.freeCtr 16 (singleAccess b.ls)).1.toNat = some o ∧
      (singleAccess b.ls).st = true ∧ s.mem.wf = true ∧ coeffOffset (coreNum m31) o = true) ∧
    (∃ (s : State) (b : Bundle), issues (coreNum m31) b s ∧ lsFmt b.ls = 2 ∧
      s.chip.servedLocally (coreNum m31) true true
        ((s.chip.core (coreNum m31)).addressOf s.chip.freeCtr 16 (singleAccess b.ls)).1.toNat = none ∧
      (singleAccess b.ls).st = false) ∧
    (∃ (s : State) (b : Bundle) (a : LsAccess) (o : Nat), issues (coreNum m31) b s ∧ lsFmt b.ls = 0 ∧ bit b.ls 14 = false ∧
      halfAccess b.ls 15 = some a ∧ a.st = false ∧
      s.chip.servedLocally (coreNum m31) true false
        ((s.chip.core (coreNum m31)).addressOf s.chip.freeCtr 16 a).1.toNat = some o) ∧
    (∃ (s : State) (b : Bundle), issues (coreNum m31) b s ∧ lsFmt b.ls = 3) ∧
    (∃ (s : State) (b : Bundle), issues (coreNum m31) b s ∧ lsFmt b.ls = 1 ∧ s.chip.qEnabled (fld b.ls 21 12) = true ∧
      bit b.ls 29 = false ∧ (s.chip.queue (fld b.ls 21 12)).ckind = coreKind (coreNum m31) ∧
      (s.chip.queue (fld b.ls 21 12)).cid = coreEndpoint (coreNum m31) ∧
      ∀ r ∈ pairOf (bit b.ls 28) (fld b.ls 27 22), s.chip.qOverlap (fld b.ls 21 12)
        ((s.chip.queue (fld b.ls 21 12)).addr ((s.chip.queue (fld b.ls 21 12)).pop + word r.2)) = false) ∧
    ∃ (s : State) (b : Bundle), issues (coreNum m31) b s ∧ lsFmt b.ls = 1 ∧ s.chip.qEnabled (fld b.ls 21 12) = true ∧
      bit b.ls 29 = true ∧ (s.chip.queue (fld b.ls 21 12)).pkind = coreKind (coreNum m31) ∧
      (s.chip.queue (fld b.ls 21 12)).pid = coreEndpoint (coreNum m31) ∧ (s.chip.queue (fld b.ls 21 12)).skip = 0 ∧
      s.mem.wf = true := by
  unfold issues atBundle
  exact ⟨⟨sB (bLs 0x8800_0000) (fun x => { x with p := [(0, 0x3_7FF8)] }), bLs 0x8800_0000, 0x3_7FF8, by decide⟩,
    ⟨sB (bLs 0x9800_0000) (fun x => { x with p := [(0, 0x4_0000)] }), bLs 0x9800_0000, 0x4_0000, by decide⟩,
    ⟨sB (bLs 0x9000_0000) (fun x => { x with p := [(0, 0x6_FFFC)] }), bLs 0x9000_0000, 0x6_FFFC, by decide⟩,
    ⟨sB (bLs 0x8000_0000) (fun x => { x with p := [(0, 0x10_0000)] }), bLs 0x8000_0000, by decide⟩,
    ⟨sB (bLs 0x2000_0000) (fun x => { x with p := [(0, 0x2_0000)] }), bLs 0x2000_0000,
      { st := false, pair := false, dreg := 0, p := 0, am := 0, m := 0, imm := 4 }, 0x2_0000, by decide⟩,
    ⟨sB (bLs 0xC000_0000), bLs 0xC000_0000, by decide⟩,
    ⟨sB (bLs 0x403F_F000) id (fun c => { c.wr (Reg.CTRL pgQF) 1 with
        qf := { qs := [(1023, qOwn)] } }), bLs 0x403F_F000, by decide⟩,
    ⟨sB (bLs 0x603F_F000) id (fun c => { c.wr (Reg.CTRL pgQF) 1 with
        qf := { qs := [(1023, qOwn)] } }), bLs 0x603F_F000, by decide⟩⟩

theorem witness_BranchesLoopsAndEndOfTick :
    (∃ (s : State) (b : Bundle), issues (coreNum m31) b s ∧ (s.chip.core (coreNum m31)).lost = false ∧
      (s.chip.core (coreNum m31)).branch = none ∧ (s.chip.core (coreNum m31)).pc < bundleCount (coreNum m31) ∧
      ((s.chip.core (coreNum m31)).loop 0).active = false ∧ ((s.chip.core (coreNum m31)).loop 1).active = false ∧
      ctOp b.ct = 0x18 ∧ condHolds (fld b.ct 24 22) (opD (coreNum m31) s (fld b.ct 21 16)) = true) ∧
    (∃ (s : State) (b : Bundle), issues (coreNum m31) b s ∧ (s.chip.core (coreNum m31)).lost = false ∧
      (s.chip.core (coreNum m31)).branch = none ∧ (s.chip.core (coreNum m31)).pc < bundleCount (coreNum m31) ∧
      ((s.chip.core (coreNum m31)).loop 0).active = false ∧ ((s.chip.core (coreNum m31)).loop 1).active = false ∧
      ctOp b.ct = 0x19 ∧ condHolds (fld b.ct 24 22) (opD (coreNum m31) s (fld b.ct 21 16)) = false) ∧
    (∀ op ∈ [0x1A, 0x1B, 0x1C, 0x1D, 0x20, 0x21], ∃ (s : State) (b : Bundle), issues (coreNum m31) b s ∧
      (s.chip.core (coreNum m31)).lost = false ∧ (s.chip.core (coreNum m31)).branch = none ∧
      (s.chip.core (coreNum m31)).pc < bundleCount (coreNum m31) ∧
      ((s.chip.core (coreNum m31)).loop 0).active = false ∧ ((s.chip.core (coreNum m31)).loop 1).active = false ∧
      isSteward (coreNum m31) = false ∧ ctOp b.ct = op ∧ onlyCt b ∧ fld b.ct 21 12 ≠ 0) ∧
    (∃ (s : State) (b : Bundle), issues (coreNum m31) b s ∧ ctOp b.ct = 0 ∧ (s.chip.core (coreNum m31)).lost = false ∧
      (s.chip.core (coreNum m31)).branch = none ∧ ((s.chip.core (coreNum m31)).loop 1).active = false ∧
      ((s.chip.core (coreNum m31)).loop 0).active = true ∧
      ((s.chip.core (coreNum m31)).loop 0).stop = (s.chip.core (coreNum m31)).pc ∧
      1 < ((s.chip.core (coreNum m31)).loop 0).count.toNat) ∧
    (∃ (s : State) (b : Bundle), issues (coreNum m31) b s ∧ ctOp b.ct = 0 ∧ (s.chip.core (coreNum m31)).lost = false ∧
      (s.chip.core (coreNum m31)).branch = none ∧ ((s.chip.core (coreNum m31)).loop 1).active = false ∧
      ((s.chip.core (coreNum m31)).loop 0).active = true ∧
      ((s.chip.core (coreNum m31)).loop 0).stop = (s.chip.core (coreNum m31)).pc ∧
      ((s.chip.core (coreNum m31)).loop 0).count.toNat ≤ 1) ∧
    (∃ s : State, (s.chip.core (coreNum m31)).drain = .endt ∧ s.chip.coreState (coreNum m31) = 1 ∧
      isSteward (coreNum m31) = false ∧
      (∀ f ∈ (s.chip.core (coreNum m31)).flight, f.due ≤ (s.chip.core (coreNum m31)).issued + 4) ∧
      s.chip.rdb (Reg.MEC_RUNCTL (coreNum m31)) 0 = true) ∧
    (∃ (s : State) (e : Nat), e < 16 ∧ (s.chip.core (coreNum m31)).hold = .event e ∧ (s.chip.core (coreNum m31)).step = false ∧
      s.chip.rdb (Reg.MEC_EVPEND (coreNum m31)) e = false) ∧
    ∃ (s : State) (e : Nat), e < 16 ∧ (s.chip.core (coreNum m31)).hold = .event e ∧ (s.chip.core (coreNum m31)).step = false ∧
      s.chip.rdb (Reg.MEC_EVPEND (coreNum m31)) e = true := by
  unfold issues atBundle onlyCt
  refine ⟨⟨sB (bCt (ctWord 0x18 0)), bCt (ctWord 0x18 0), by decide⟩, ⟨sB (bCt (ctWord 0x19 (7 * 2 ^ 22))) (fun x => { x with pc := 0 }), bCt (ctWord 0x19 (7 * 2 ^ 22)), by decide⟩,
    fun op h => ⟨sB (bCt (ctWord op 0xFFF000)), bCt (ctWord op 0xFFF000), ?_⟩,
    ⟨sB (bLs 0x8000_0000) (fun x => { x with loops := [(0, { active := true, start := 5, stop := 0, step := 32, count := 2 })] }), bLs 0x8000_0000,
      by decide⟩,
    ⟨sB (bLs 0x8000_0000) (fun x => { x with loops := [(0, { active := true, start := 5, stop := 0, step := 0, count := 1 })] }), bLs 0x8000_0000,
      by decide⟩,
    ⟨sB (bCt 0) (fun x => { x with drain := .endt, flight := [{ due := 4, dest := .d 1, val := 1 }] })
      (·.wr (Reg.MEC_RUNCTL 31) 1), by decide⟩,
    ⟨sB (bCt 0) (fun x => { x with hold := .event 15 }), 15, by decide⟩,
    ⟨sB (bCt 0) (fun x => { x with hold := .event 15 }) (·.wr (Reg.MEC_EVPEND 31) 0x8000), 15, by decide⟩⟩
  revert op h; decide

/-! Witnesses: banks and queues. -/

/-- The reset state with request `r` of bank `b` and these registers. -/
def sBank (b : Nat) (r : BankReq) (l : List (Nat × Word)) : State :=
  (sr l).chipTo { (sr l).chip with bank := { bankReset with reqs := [(b, r)] } }

theorem witness_BankStateRequestStartsTransitions :
    (∃ (s : State) (k : Fin 4) (i : Fin 16), s.chip.underTest (16 * k.val + i.val) = false ∧
      s.chip.bankReq (16 * k.val + i.val) = bankReqReset ∧ s.chip.bankCur (16 * k.val + i.val) ≠ 3) ∧
    (∃ (s : State) (k : Fin 4) (i : Fin 16), s.chip.underTest (16 * k.val + i.val) = false ∧
      (s.chip.bankReq (16 * k.val + i.val)).trans.isSome = true) ∧
    (∃ (s : State) (b : Fin 64) (t : Fin 4), s.chip.bankReq b = { bankReqReset with held := some t } ∧ s.chip.bankCur b ≠ 3 ∧
      s.chip.bankCur b ≠ t.val) ∧
    (∃ (s : State) (b : Fin 64) (t : Fin 4), s.chip.bankReq b = { bankReqReset with wait := some t } ∧
      s.chip.firstWaiting = some b.val ∧ s.chip.leavingOff < 8) ∧
    (∃ (s : State) (b : Fin 64) (t : Fin 4), (s.chip.bankReq b).trans = some t ∧ s.chip.bankCur b ≠ 3) ∧
    (∃ (s : State) (b : Fin 64) (t : Fin 4), (s.chip.bankReq b).trans = some t ∧ s.chip.bankCur b = 3 ∧ s.mem.wf = true) :=
  ⟨⟨State.reset, 3, 15, by decide⟩, ⟨sBank 63 { bankReqReset with trans := some 1 } [], 3, 15, by decide⟩,
    ⟨sBank 63 { bankReqReset with held := some 3 } [], 63, 3, by decide⟩,
    ⟨sBank 63 { bankReqReset with wait := some 0 } [(Reg.BANK_CUR 3, 0xC000_0000)], 63, 0, by decide⟩,
    ⟨sBank 63 { bankReqReset with trans := some 1 } [], 63, 1, by decide⟩,
    ⟨sBank 63 { bankReqReset with trans := some 0 } [(Reg.BANK_CUR 3, 0xC000_0000)], 63, 0, by decide⟩⟩

/-- A test that runs on bank 63, tested or not. -/
def sBist (tested : List Nat) : State :=
  st fun c => { c with bank := { bankReset with bist := true, sel := [63], tested := tested } }

theorem witness_BistRunsAndAliasWrites :
    (∃ s : State, s.chip.bank.bist = true) ∧ fld 3 1 0 = 3 ∧
    (∃ (s : State) (b : Nat), b < 64 ∧ s.chip.rdb (Reg.BANK_BIST_SEL (b / 32)) (b % 32) = true ∧ s.chip.bankCur b ≠ 1) ∧
    (∃ (s : State) (b : Nat), b < 64 ∧ s.chip.rdb (Reg.BANK_BIST_SEL (b / 32)) (b % 32) = true ∧
      (s.chip.bankReq b).trans.isSome = true) ∧
    (∃ (s : State) (v : Word), s.chip.bank.bist = false ∧ fld v 1 0 ≠ 3 ∧
      (∀ b, b < 64 → s.chip.rdb (Reg.BANK_BIST_SEL (b / 32)) (b % 32) = true →
        s.chip.bankCur b = 1 ∧ (s.chip.bankReq b).trans = none) ∧ s.chip.rdb (Reg.BANK_BIST_SEL 1) 31 = true) ∧
    (∃ (s : State) (g : Fin 8) (b : Nat), s.chip.bank.bist = true ∧ s.chip.bistBank g = some b) ∧
    (∃ s : State, s.chip.bank.bist = true ∧ (∀ b ∈ s.chip.bank.sel, b ∈ s.chip.bank.tested) ∧ s.mem.wf = true) ∧
    (∃ s : State, s.chip.bank.bist = false) ∧
    (∃ (s : State) (ofs : BitVec 25), s.chip.bankOn (ofs.toNat / 0x8_0000) = true ∧ s.mem.wf = true) ∧
    (∃ (s : State) (ofs : BitVec 25), s.chip.bankOn (ofs.toNat / 0x8_0000) = false) :=
  ⟨⟨sBist [], by decide⟩, by decide, ⟨sr [(Reg.BANK_BIST_SEL 1, 0x8000_0000)], 63, by decide⟩,
    ⟨sBank 63 { bankReqReset with trans := some 1 } [(Reg.BANK_BIST_SEL 1, 0x8000_0000)], 63, by decide⟩,
    ⟨sr [(Reg.BANK_BIST_SEL 1, 0x8000_0000), (Reg.BANK_CUR 3, 0x4000_0000)], 2, by decide⟩,
    ⟨sBist [], 7, 63, by decide⟩, ⟨sBist [63], by decide⟩, ⟨State.reset, by decide⟩, ⟨State.reset, 0x1FF_FFFF, by decide⟩,
    ⟨sr [(Reg.BANK_CUR 3, 0x8000_0000)], 0x1FF_FFFF, by decide⟩⟩

/-- Queue 1023 alone, as given, with the Queue Fabric and the Tick Unit running. -/
def sQ (x : Queue) : State :=
  sPhase 1 fun c => { c.wr (Reg.CTRL pgQF) 1 with qf := { qs := [(1023, x)] } }

/-- An enabled queue of 16 words from kind `p` to kind `k`, instances 0. -/
def qOf (p k : Nat) : Queue := { queueReset with en := true, d1 := word (p + k * 0x1_0000) }

theorem witness_QueuePushOutcomes :
    (∃ (s : State) (q : Fin 1024) (kind : BitVec 4), (s.chip.queue q).pkind ≠ kind.toNat) ∧
    (∃ (s : State) (q : Fin 1024) (kind : BitVec 4) (id : BitVec 8), (s.chip.queue q).pkind = kind.toNat ∧
      (s.chip.queue q).pid = id.toNat ∧ s.chip.qEnabled q = false) ∧
    (∃ (s : State) (q : Fin 1024) (kind : BitVec 4) (id : BitVec 8), (s.chip.queue q).pkind = kind.toNat ∧
      (s.chip.queue q).pid = id.toNat ∧ s.chip.qEnabled q = true ∧ (s.chip.queue q).skip ≠ 0) ∧
    (∃ (s : State) (q : Fin 1024) (kind : BitVec 4) (id : BitVec 8), (s.chip.queue q).pkind = kind.toNat ∧
      (s.chip.queue q).pid = id.toNat ∧ s.chip.qEnabled q = true ∧ (s.chip.queue q).skip = 0 ∧ 0 < (s.chip.queue q).pcred ∧
      s.mem.wf = true) ∧
    (∀ w : Bool, ∃ (s : State) (q : Fin 1024) (kind : BitVec 4) (id : BitVec 8), (s.chip.queue q).pkind = kind.toNat ∧
      (s.chip.queue q).pid = id.toNat ∧ s.chip.qEnabled q = true ∧ (s.chip.queue q).skip = 0 ∧ (s.chip.queue q).pcred ≤ 0 ∧
      waitingKind kind.toNat = w) :=
  ⟨⟨sQ (qOf 1 1), 1023, 2, by decide⟩, ⟨sQ { qOf 1 1 with en := false }, 1023, 1, 0, by decide⟩,
    ⟨sQ { qOf 1 1 with skip := 1 }, 1023, 1, 0, by decide⟩, ⟨sQ (qOf 1 1), 1023, 1, 0, by decide⟩, fun w => match w with
      | true => ⟨sQ { qOf 1 1 with push := 16 }, 1023, 1, 0, by decide⟩
      | false => ⟨sQ { qOf 4 1 with push := 16 }, 1023, 4, 0, by decide⟩⟩

theorem witness_QueuePopOutcomes :
    (∃ (s : State) (q : Fin 1024) (kind : BitVec 4), (s.chip.queue q).ckind ≠ kind.toNat) ∧
    (∃ (s : State) (q : Fin 1024) (kind : BitVec 4) (id : BitVec 8), (s.chip.queue q).ckind = kind.toNat ∧
      (s.chip.queue q).cid = id.toNat ∧ s.chip.qEnabled q = false) ∧
    (∃ (s : State) (q : Fin 1024) (kind : BitVec 4) (id : BitVec 8), (s.chip.queue q).ckind = kind.toNat ∧
      (s.chip.queue q).cid = id.toNat ∧ s.chip.qEnabled q = true ∧ 0 < (s.chip.queue q).ccred ∧
      s.chip.qOverlap q ((s.chip.queue q).addr (s.chip.queue q).pop) = false) ∧
    (∃ (s : State) (q : Fin 1024) (kind : BitVec 4) (id : BitVec 8), (s.chip.queue q).ckind = kind.toNat ∧
      (s.chip.queue q).cid = id.toNat ∧ s.chip.qEnabled q = true ∧ 0 < (s.chip.queue q).ccred ∧
      s.chip.qOverlap q ((s.chip.queue q).addr (s.chip.queue q).pop) = true) ∧
    (∀ w : Bool, ∃ (s : State) (q : Fin 1024) (kind : BitVec 4) (id : BitVec 8), (s.chip.queue q).ckind = kind.toNat ∧
      (s.chip.queue q).cid = id.toNat ∧ s.chip.qEnabled q = true ∧ (s.chip.queue q).ccred ≤ 0 ∧ waitingKind kind.toNat = w) :=
  ⟨⟨sQ (qOf 1 1), 1023, 2, by decide⟩, ⟨sQ { qOf 1 1 with en := false }, 1023, 1, 0, by decide⟩,
    ⟨sQ { qOf 1 1 with push := 1, vis := 1, commit := 1 }, 1023, 1, 0, by decide⟩,
    ⟨sPhase 1 fun c => { c.wr (Reg.CTRL pgQF) 1 with qf := { qs := [(0, qOf 1 1),
      (1023, { qOf 1 1 with push := 1, vis := 1, commit := 1 })] } }, 1023, 1, 0, by decide⟩, fun w => match w with
      | true => ⟨sQ (qOf 1 1), 1023, 1, 0, by decide⟩
      | false => ⟨sQ (qOf 1 4), 1023, 4, 0, by decide⟩⟩

theorem witness_QueueCommandsAndWaits :
    (∃ s : State, (s.chip.queue s.chip.qsel).en = true) ∧
    (∃ s : State, (s.chip.queue s.chip.qsel).en = false ∧ (s.chip.queue s.chip.qsel).valid = false) ∧
    (∃ s : State, (s.chip.queue s.chip.qsel).en = false ∧ (s.chip.queue s.chip.qsel).valid = true) ∧
    (∃ s : State, (s.chip.queue s.chip.qsel).pwait = false ∧ (s.chip.queue s.chip.qsel).cwait = false) ∧
    (∃ (s : State) (q : Fin 1024), (s.chip.queue q).pwait = false ∧ (s.chip.queue q).cwait = false) ∧
    (∃ (s : State) (q : Fin 1024), s.chip.qEnabled q = true ∧ (s.chip.queue q).pcred + (s.chip.queue q).skip.toNat ≤ 0) ∧
    (∃ (s : State) (q : Fin 1024), s.chip.qEnabled q = true ∧ (s.chip.queue q).ccred ≤ 0) ∧
    (∃ (s : State) (q : Fin 1024) (w : Word), (s.chip.queue q).pwait = true ∧ (s.chip.queue q).pheld = some w ∧
      s.chip.qEnabled q = true ∧ (s.chip.queue q).skip = 0 ∧ 0 < (s.chip.queue q).pcred ∧ s.mem.wf = true) ∧
    (∃ (s : State) (q : Fin 1024), s.chip.qEnabled q = true ∧ (s.chip.queue q).sched = true ∧ s.chip.tickRuns = true ∧
      (s.chip.queue q).pkind = 10 ∧ (s.chip.queue q).pid = 0 ∧ (s.chip.queue q).skip = 0 ∧
      0 < (s.chip.queue q).moverWords (s.chip.queue q).pos (s.chip.queue q).work (s.chip.queue q).pcred) ∧
    (∃ (s : State) (q : Fin 1024), s.chip.qEnabled q = true ∧ (s.chip.queue q).sched = true ∧ s.chip.tickRuns = true ∧
      (s.chip.queue q).pkind ≠ 10 ∧ (s.chip.queue q).ckind = 10 ∧ (s.chip.queue q).cid = 0 ∧
      0 < (s.chip.queue q).moverWords (s.chip.queue q).cpos (s.chip.queue q).cwork (s.chip.queue q).ccred) :=
  ⟨⟨st fun c => { c with qf := { qs := [(0, qOf 1 1)] } }, by decide⟩,
    ⟨st fun c => { c with qf := { qs := [(0, { qOf 15 15 with en := false })] } }, by decide⟩,
    ⟨st fun c => { c with qf := { qs := [(0, { qOf 1 1 with en := false })] } }, by decide⟩, ⟨State.reset, by decide⟩,
    ⟨State.reset, 1023, by decide⟩, ⟨sQ { qOf 1 1 with push := 16 }, 1023, by decide⟩, ⟨sQ (qOf 1 1), 1023, by decide⟩,
    ⟨sQ { qOf 1 1 with pwait := true, pheld := some 7 }, 1023, 7, by decide⟩,
    ⟨sQ { qOf 10 1 with d2 := 0xFFFF_FFFF, d3 := 0xFFFF_FFFF, work := 1 }, 1023, by decide⟩,
    ⟨sQ { qOf 1 10 with d2 := 0xFFFF_FFFF, d3 := 0xFFFF_FFFF, cwork := 1, push := 16, vis := 16, commit := 16 }, 1023, by decide⟩⟩

/-! Witnesses: the Courier. -/

/-- The bytes of `n` from address `a`, as cells. -/
def cellsOf (a k n : Nat) : List Host.Cell :=
  ((List.range k).map fun i => (a + i, BitVec.ofNat 8 (n / 256 ^ i))).filter fun e => e.2 ≠ 0

/-- Channel 31 in RUN at program offset 8, where the instruction `w` stands, with these registers and cells. -/
def sCur (w : BitVec 64) (l : List (Nat × Word) := []) (m : List Host.Cell := []) : State :=
  { State.reset with dev := { mem := { memReset with cells := cellsOf 0x2000_0008 8 w.toNat ++ m }, chip :=
      { (sr ([(Reg.CTRL (chanPage 31), 1), (Reg.CUR_CH_STAT 31, 1), (Reg.CUR_CH_PC 31, 8)] ++ l)).chip with
        cur := { curReset with boot := false } } } }

/-- The same with the instruction fetched, and the channel in state `st`. -/
def sCurIn (w : BitVec 64) (stat : Word) (f : CurChan → CurChan) (l : List (Nat × Word) := []) : State :=
  (sCur w (l ++ [(Reg.CUR_CH_STAT 31, stat)])).chipTo
    ((sCur w (l ++ [(Reg.CUR_CH_STAT 31, stat)])).chip.setChan 31 (f { curChanReset with instr := w }))

/-- An empty bus matrix lets every access pass. -/
theorem portFree_empty {p n : Nat} {c : Chip} (h : c.mtx = mtxReset) : portFree p n c := by
  have hw : c.mtx.wait = [] := by rw [h]; rfl
  have ha : c.mtx.acc = [] := by rw [h]; rfl
  have ho : c.mtx.opn = [] := by rw [h]; rfl
  exact ⟨by simp [Chip.atLimit, ho]; intros; (repeat' split) <;> omega, by simp [hw, ha]⟩

set_option maxRecDepth 20000 in
theorem witness_CourierFetchesAndRefuses :
    (∃ (s : State) (pc : Nat), pc = s.chip.chanPc 31 ∧ pc + 8 ≤ 0x200_0000 ∧ pc % 8 = 0 ∧ s.chip.bankOn (pc / 0x8_0000) = true) ∧
    (∃ (s : State) (pc : Nat), pc = s.chip.chanPc 31 ∧ s.chip.chanMayStart 31 = true ∧ (s.chip.chan 31).started = false ∧
      pc + 8 ≤ 0x200_0000 ∧ pc % 8 = 0 ∧ s.chip.bankOn (pc / 0x8_0000) = false) ∧
    (∃ (s : State) (w : BitVec 64) (d : Dev), fetched 31 w s d ∧ 10 ≤ ifld w 63 60) ∧
    (∀ op ∈ [1, 2, 3, 4, 5, 6], ∃ (s : State) (w : BitVec 64) (d : Dev), fetched 31 w s d ∧ ifld w 63 60 = op ∧
      d.chip.chanIllegal 31 = true) ∧
    (∀ op ∈ [2, 3], ∃ (s : State) (w : BitVec 64) (d : Dev), fetched 31 w s d ∧ ifld w 63 60 = op ∧
      d.chip.chanIllegal 31 = false ∧ d.chip.plainEff 31 = true) :=
  ⟨⟨sCur 0, 8, by decide⟩, ⟨sCur 0 [(Reg.BANK_CUR 0, 1)], 8, by decide⟩,
    ⟨sCur 0xA000_0000_0000_0000, 0xA000_0000_0000_0000, (sCur 0xA000_0000_0000_0000).dev.chanFetch 31, by
      exact ⟨⟨by decide, by decide, portFree_empty rfl, rfl, by decide, by decide⟩, by decide⟩⟩,
    fun op h => ⟨sCur (BitVec.ofNat 64 (op * 0x1000_0000_0000_0000 + 0x0E36_0000_0000_0000)),
      BitVec.ofNat 64 (op * 0x1000_0000_0000_0000 + 0x0E36_0000_0000_0000),
      (sCur (BitVec.ofNat 64 (op * 0x1000_0000_0000_0000 + 0x0E36_0000_0000_0000))).dev.chanFetch 31, by
        exact ⟨⟨by revert op h; decide, by revert op h; decide, portFree_empty rfl, rfl, by revert op h; decide,
          by revert op h; decide⟩, by revert op h; decide⟩⟩,
    fun op h => ⟨sCur (BitVec.ofNat 64 (op * 0x1000_0000_0000_0000)) [(Reg.CUR_CH_CFG 31, 1)],
      BitVec.ofNat 64 (op * 0x1000_0000_0000_0000),
      (sCur (BitVec.ofNat 64 (op * 0x1000_0000_0000_0000)) [(Reg.CUR_CH_CFG 31, 1)]).dev.chanFetch 31, by
        exact ⟨⟨by revert op h; decide, by revert op h; decide, portFree_empty rfl, rfl, by revert op h; decide,
          by revert op h; decide⟩, by revert op h; decide⟩⟩⟩

/-- A witness for an instruction that channel 31 begins. -/
theorem begins_of {w : BitVec 64} {s : State} (hm : s.chip.mtx = mtxReset) (hs : fresh s.dev = s.dev)
    (h : s.chip.chanMayStart 31 = true ∧ (s.chip.chan 31).started = false ∧ (s.dev.chanFetch 31).chip.chanState 31 = 1 ∧ ((s.dev.chanFetch 31).chip.chan 31).instr = w ∧
    (s.dev.chanFetch 31).chip.chanIllegal 31 = false ∧
    ((s.dev.chanFetch 31).chip.plainEff 31 = true → plainRefuses w = false)) :
    beginsInstr 31 w s (s.dev.chanFetch 31) :=
  ⟨⟨h.1, h.2.1, portFree_empty hm, by rw [hs], h.2.2.1, h.2.2.2.1⟩, h.2.2.2.2⟩

/-- Queue 1023 enabled from channel 31, with the Queue Fabric on, beside `w` at the channel's program counter. -/
def sCurQ (w : BitVec 64) (x : Queue) : State :=
  (sCur w [(Reg.CTRL pgQF, 1)]).chipTo { (sCur w [(Reg.CTRL pgQF, 1)]).chip with qf := { qs := [(1023, x)] } }

set_option maxRecDepth 20000 in
theorem witness_CourierControlInstructions :
    (∀ cur ∈ [0, 1, 2], ∃ (s : State) (w : BitVec 64) (d : Dev), beginsInstr 31 w s d ∧ ifld w 63 60 = 4 ∧
      d.chip.rdb (Reg.CUR_CH_STAT 31) (20 + ifld w 59 59) = true ∧
      d.chip.rdf (Reg.CUR_CH_LOOP 31) (16 * ifld w 59 59 + 15) (16 * ifld w 59 59) = cur) ∧
    (∀ cnt ∈ [1, 0xFFFF], ∃ (s : State) (w : BitVec 64) (d : Dev), beginsInstr 31 w s d ∧ ifld w 63 60 = 4 ∧
      d.chip.rdb (Reg.CUR_CH_STAT 31) (20 + ifld w 59 59) = false ∧ ifld w 31 16 = cnt) ∧
    (∀ b : Bool, ∃ (s : State) (w : BitVec 64) (d : Dev), beginsInstr 31 w s d ∧ ifld w 63 60 = 5 ∧ ifld w 59 57 = 2 ∧
      bit d.chip.curFlags (ifld w 4 0) = b ∧ d.chip.flagTaken 31 (ifld w 4 0) = false) ∧
    (∃ (s : State) (w : BitVec 64) (d : Dev), beginsInstr 31 w s d ∧ ifld w 63 60 = 5 ∧ ifld w 59 57 = 1 ∧
      d.chip.qEnabled (ifld w 9 0) = false) ∧
    (∃ (s : State) (w : BitVec 64) (d : Dev), beginsInstr 31 w s d ∧ ifld w 63 60 = 5 ∧ ifld w 59 57 = 1 ∧ ifld w 56 56 = 0 ∧
      d.chip.qEnabled (ifld w 9 0) = true ∧ (max 1 (ifld w 31 16) : Int) ≤ (d.chip.queue (ifld w 9 0)).pcred) ∧
    (∃ (s : State) (w : BitVec 64) (d : Dev), beginsInstr 31 w s d ∧ ifld w 63 60 = 5 ∧ ifld w 59 57 = 1 ∧ ifld w 56 56 = 1 ∧
      d.chip.qEnabled (ifld w 9 0) = true ∧ (d.chip.queue (ifld w 9 0)).ccred < 1) ∧
    (∀ k ∈ [0, 1], ∃ (s : State) (w : BitVec 64) (d : Dev), beginsInstr 31 w s d ∧ ifld w 63 60 = 6 ∧ ifld w 59 58 = k) ∧
    (∃ (s : State) (w : BitVec 64) (d : Dev) (q : Nat) (x : Queue), beginsInstr 31 w s d ∧ ifld w 63 60 = 6 ∧ ifld w 59 58 = 2 ∧
      q = ifld w 41 32 ∧ x = d.chip.queue q ∧ x.pkind = 3 ∧ x.pid = 31 ∧ d.chip.qEnabled q = true ∧ x.skip = 0 ∧ 0 < x.pcred ∧
      d.mem.wf = true) ∧
    (∀ op ∈ [7, 0, 8, 9], ∃ (s : State) (w : BitVec 64) (d : Dev), beginsInstr 31 w s d ∧ ifld w 63 60 = op ∧ ifld w 56 56 = 0) ∧
    (∃ (s : State) (w : BitVec 64) (d : Dev) (a : Nat), beginsInstr 31 w s d ∧ ifld w 63 60 = 8 ∧ ifld w 56 56 = 1 ∧
      a = d.chip.curPtr 31 (ifld w 55 53) / 8 * 8 ∧ inBanks a 8 ∧ banksOn d.chip) ∧
    (∃ (s : State) (w : BitVec 64) (d : Dev), beginsInstr 31 w s d ∧ ifld w 63 60 = 9 ∧ ifld w 56 56 = 1 ∧
      d.chip.ringBase 31 + d.chip.ringLen 31 ≤ 2 ^ 40) ∧
    (∃ s : State, s.chip.chanState 31 = 1 ∧ (s.chip.chan 31).fence = true) ∧
    (∃ s : State, s.chip.chanState 31 = 1 ∧ (s.chip.chan 31).stop = true) ∧
    (∀ b : Bool, ∃ (s : State) (f : Nat), s.chip.chanState 31 = 2 ∧ s.chip.rdf (Reg.CUR_CH_STAT 31) 7 5 = 2 ∧
      ifld (s.chip.chan 31).instr 59 57 = 2 ∧ f = ifld (s.chip.chan 31).instr 4 0 ∧ bit s.chip.curFlags f = b ∧
      s.chip.flagTaken 31 f = false) :=
  ⟨fun k h => ⟨sCur 0x4800_0000_0005_0001 [(Reg.CUR_CH_STAT 31, 0x20_0001), (Reg.CUR_CH_LOOP 31, word (k * 0x10000))],
      0x4800_0000_0005_0001, _, begins_of rfl rfl (by revert k h; decide), by revert k h; decide⟩,
    fun k h => ⟨sCur (BitVec.ofNat 64 (0x4800_0000_0000_0001 + k * 0x10000)), BitVec.ofNat 64 (0x4800_0000_0000_0001 + k * 0x10000), _,
      begins_of rfl rfl (by revert k h; decide), by revert k h; decide⟩,
    fun b => ⟨sCur 0x5400_0000_0000_001F [(Reg.CUR_FLAGS 0, if b then 0x8000_0000 else 0)], 0x5400_0000_0000_001F, _,
      begins_of rfl rfl (by revert b; decide), by revert b; decide⟩,
    ⟨sCur 0x5200_0000_0000_03FF, 0x5200_0000_0000_03FF, _, begins_of rfl rfl (by decide), by decide⟩,
    ⟨sCurQ 0x5200_0000_0010_03FF (qOf 3 3), 0x5200_0000_0010_03FF, _, begins_of rfl rfl (by decide), by decide⟩,
    ⟨sCurQ 0x5300_0000_0010_03FF (qOf 3 3), 0x5300_0000_0010_03FF, _, begins_of rfl rfl (by decide), by decide⟩,
    fun k h => ⟨sCur (BitVec.ofNat 64 (0x6000_001F_0000_00A5 + k * 0x0400_0000_0000_0000)),
      BitVec.ofNat 64 (0x6000_001F_0000_00A5 + k * 0x0400_0000_0000_0000), _, begins_of rfl rfl (by revert k h; decide), by revert k h; decide⟩,
    ⟨sCurQ 0x6800_03FF_0000_00A5 { qOf 3 3 with d1 := 0x1F03 }, 0x6800_03FF_0000_00A5, _, 1023, { qOf 3 3 with d1 := 0x1F03 },
      begins_of rfl rfl (by decide), by decide⟩,
    fun k h => ⟨sCur (BitVec.ofNat 64 (k * 0x1000_0000_0000_0000 + 0x0E00_0001_2345_6780)),
      BitVec.ofNat 64 (k * 0x1000_0000_0000_0000 + 0x0E00_0001_2345_6780), _, begins_of rfl rfl (by revert k h; decide), by revert k h; decide⟩,
    ⟨sCur 0x8120_0000_0000_0000 [(Reg.CUR_CH_PTR_LO 31 1, 0x21FF_FFFF)], 0x8120_0000_0000_0000, _, 0x21FF_FFF8, begins_of rfl rfl (by decide),
      by unfold inBanks banksOn; decide⟩,
    ⟨sCur 0x9100_0000_0000_0100, 0x9100_0000_0000_0100, _, begins_of rfl rfl (by decide), by decide⟩,
    ⟨sCurIn 0 1 fun x => { x with fence := true }, by decide⟩, ⟨sCurIn 0 1 fun x => { x with stop := true }, by decide⟩,
    fun b => ⟨sCurIn 0x5400_0000_0000_001F 0x42 (fun x => { x with started := true }) [(Reg.CUR_FLAGS 0, if b then 0x8000_0000 else 0)],
      31, by revert b; decide⟩⟩

/-- GATHER or SCATTER of two 32-bit elements by 16-bit indices: table at 0x2000_1000, base 0x2000_2000, side 0x2000_3000. -/
def ptrs3 : List (Nat × Word) :=
  [(Reg.CUR_CH_PTR_LO 31 0, 0x2000_1000), (Reg.CUR_CH_PTR_LO 31 1, 0x2000_2000), (Reg.CUR_CH_PTR_LO 31 2, 0x2000_3000)]

/-- A burst of MOVE from 0x2000_1000 to 0x2000_2000, 64 bytes on request line 2 with `n` messages in the mailbox. -/
def sBurst (n : Nat) : State :=
  (sCurIn 0x1041_1000_0000_0040 1 (fun x => { x with started := true, limit := 0, done := 32 }) ptrs3).chipTo
    (let c := (sCurIn 0x1041_1000_0000_0040 1 (fun x => { x with started := true, limit := 0, done := 32 }) ptrs3).chip
     { c with pwr := { c.pwr with mboxIn := List.replicate n 1 } })

set_option maxRecDepth 20000 in
theorem witness_CourierMovesItsBytes :
    (∀ k ∈ [0, 1, 2], ∃ (s : State) (w : BitVec 64) (d : Dev) (m : MoveOp), s.mem.wf = true ∧ banksOn s.chip ∧ beginsInstr 31 w s d ∧
      ifld w 63 60 = 1 ∧ m = d.chip.moveOp 31 ∧ m.sm = 0 ∧ m.dm = 0 ∧ 0 < m.len ∧ inBanks m.src m.len ∧ inBanks m.dst m.len ∧
      apart m.src m.len m.dst m.len ∧ ifld w 49 48 = k) ∧
    (∀ b : Bool, ∃ (s : State) (m : MoveOp) (x : CurChan), s.mem.wf = true ∧ banksOn s.chip ∧ x = s.chip.chan 31 ∧
      m = s.chip.moveOp 31 ∧ x.started = true ∧ x.popped = [] ∧
      x.stop = false ∧ x.fence = false ∧ s.chip.chanState 31 = 1 ∧ ifld x.instr 63 60 = 1 ∧ ifld x.instr 48 48 = 1 ∧
      x.limit ≤ x.done ∧ x.done < m.len ∧ m.sm = 0 ∧ m.dm = 0 ∧
      inBanks m.src m.len ∧ inBanks m.dst m.len ∧ apart m.src m.len m.dst m.len ∧
      m.src % 4 = 0 ∧ m.dst % 4 = 0 ∧ m.len % 4 = 0 ∧ x.done % 4 = 0 ∧ s.chip.reqLine (ifld x.instr 47 43) = b) ∧
    (∃ (s : State) (w : BitVec 64) (d : Dev) (g : GatherOp) (adr : Nat → Nat), s.mem.wf = true ∧ banksOn s.chip ∧
      beginsInstr 31 w s d ∧ g = d.chip.gatherOp 31 ∧ g.xm = 0 ∧ g.wrap = false ∧ d.chip.plainForced 31 = false ∧
      (∀ e, adr e = (g.base + bytesNat ((List.range g.ent).map (fun i => s.mem.get (g.tbl + e * g.ent + i))) * g.esz)
        % 2 ^ 40 / g.esz * g.esz) ∧
      inBanks g.tbl (g.cnt * g.ent) ∧ inBanks g.side (g.cnt * g.esz) ∧ g.side % 4 = 0 ∧
      (∀ e, e < g.cnt → inBanks (adr e) g.esz ∧ apart (adr e) g.esz g.side (g.cnt * g.esz)) ∧ ifld w 63 60 = 2 ∧
      apart g.tbl (g.cnt * g.ent) g.side (g.cnt * g.esz) ∧ g.cnt = 2) ∧
    (∃ (s : State) (w : BitVec 64) (d : Dev) (g : GatherOp) (adr : Nat → Nat), s.mem.wf = true ∧ banksOn s.chip ∧
      beginsInstr 31 w s d ∧ g = d.chip.gatherOp 31 ∧ g.xm = 0 ∧ g.wrap = false ∧ d.chip.plainForced 31 = false ∧
      (∀ e, adr e = (g.base + bytesNat ((List.range g.ent).map (fun i => s.mem.get (g.tbl + e * g.ent + i))) * g.esz)
        % 2 ^ 40 / g.esz * g.esz) ∧
      inBanks g.tbl (g.cnt * g.ent) ∧ inBanks g.side (g.cnt * g.esz) ∧ g.side % 4 = 0 ∧
      (∀ e, e < g.cnt → inBanks (adr e) g.esz ∧ apart (adr e) g.esz g.side (g.cnt * g.esz)) ∧ ifld w 63 60 = 3 ∧
      (∀ e, e < g.cnt → apart (adr e) g.esz g.tbl (g.cnt * g.ent)) ∧
      (∀ e, e < g.cnt → ∀ e', e' < g.cnt → e < e' → adr e ≠ adr e') ∧ g.cnt = 2) :=
  ⟨fun k h => ⟨sCur (BitVec.ofNat 64 (0x1040_0000_0000_0040 + k * 0x1_0000_0000_0000)) ptrs3,
      BitVec.ofNat 64 (0x1040_0000_0000_0040 + k * 0x1_0000_0000_0000), _, (Dev.chanFetch 31 (sCur (BitVec.ofNat 64
        (0x1040_0000_0000_0040 + k * 0x1_0000_0000_0000)) ptrs3).dev).chip.moveOp 31, by revert k h; decide,
      by unfold banksOn; revert k h; decide, begins_of rfl rfl (by revert k h; decide), by unfold inBanks apart; revert k h; decide⟩,
    fun b => ⟨sBurst (if b then 4 else 3), (sBurst (if b then 4 else 3)).chip.moveOp 31, (sBurst (if b then 4 else 3)).chip.chan 31,
      by unfold inBanks apart banksOn; revert b; decide⟩,
    ⟨sCur 0x2050_0000_0000_0002 ptrs3 (cellsOf 0x2000_1000 4 0x0003_0001), 0x2050_0000_0000_0002, _, _, fun e => _, by decide,
      by unfold banksOn; decide, begins_of rfl rfl (by decide), rfl, by decide, by decide, by decide, fun e => rfl,
      by unfold inBanks apart; decide⟩,
    ⟨sCur 0x3050_0000_0000_0002 ptrs3 (cellsOf 0x2000_1000 4 0x0003_0001), 0x3050_0000_0000_0002, _, _, fun e => _, by decide,
      by unfold banksOn; decide, begins_of rfl rfl (by decide), rfl, by decide, by decide, by decide, fun e => rfl,
      by unfold inBanks apart; decide⟩⟩

set_option maxRecDepth 20000 in
theorem witness_CourierChannelsStartAndAbort :
    (∀ b : Bool, ∃ s : State, s.chip.chanStopped 31 = true ∧ s.chip.en (chanPage 31) = b) ∧
    (∃ s : State, s.chip.chanStopped 31 = false) ∧ (∃ s : State, s.chip.chanState 31 = 1) ∧ (∃ s : State, s.chip.chanState 31 = 2) ∧
    (∃ s : State, s.chip.chanState 31 = 5) ∧ bit (1 : Word) 0 = true :=
  ⟨fun b => ⟨sr [(Reg.CTRL (chanPage 31), if b then 1 else 0)], by revert b; decide⟩, ⟨sCurIn 0 1 id, by decide⟩,
    ⟨sCurIn 0 1 id, by decide⟩, ⟨sCurIn 0 2 id, by decide⟩, ⟨sCurIn 0 5 id, by decide⟩, by decide⟩

/-! Witnesses: the Stewards, core control, tables. -/

/-- Steward 1, RUNNING at bundle `b` of its local memory, with its registers and its chip changed. -/
def sS (b : Bundle) (x : CoreSt → CoreSt := id) (f : Chip → Chip := id) : State :=
  { State.reset with dev := {
      mem := memReset.setBytes 0x4210_0000 (wordBytes b.ma ++ wordBytes b.mb ++ wordBytes b.ls ++ wordBytes b.ct)
      chip := f { (chipReset.wr (stateKey 33) 1).wr (Reg.ST_CFG 1) 1 with cores := [(33, x coreReset)] } } }

/-- Source 88 pends for Steward 1, which it interrupts. -/
def irq33 (c : Chip) : Chip :=
  { (c.wr (Reg.CTRL pgHUB) 1).wr (Reg.HUB_SRC_CFG 88) 0x8102 with
    hub := { hubReset with srcs := [(88, { hubSrcReset with pend := true })] } }

set_option maxRecDepth 20000 in
theorem witness_StewardExceptionsAreEntered :
    (∃ (s : State) (n : Fin 2) (b : Bundle) (sl : Slot), atBundle (32 + n) b s ∧ b.illegal = true ∧ b.hasReserved sl = true) ∧
    (∀ op ∈ [0x30, 0x31, 0x33, 0x34], ∃ (s : State) (n : Fin 2) (b : Bundle), atBundle (32 + n) b s ∧ b.illegal = false ∧
      (s.chip.core (32 + n)).sup = false ∧ ctOp b.ct = op) ∧
    (∃ (s : State) (n : Fin 2) (b : Bundle), atBundle (32 + n) b s ∧ b.illegal = false ∧ (s.chip.core (32 + n)).sup = false ∧
      ctOp b.ct < 0x30 ∧ lsFmt b.ls = 2 ∧ s.chip.userForbidden (32 + n) (singleAccess b.ls).st
        ((s.chip.core (32 + n)).addressOf s.chip.freeCtr 16 (singleAccess b.ls)).1.toNat = true) ∧
    (∃ (s : State) (n : Fin 2) (b : Bundle), atBundle (32 + n) b s ∧ b.illegal = false ∧ ctOp b.ct = 0x32 ∧
      ((s.chip.core (32 + n)).sup = true ∨ b.ls = 0)) ∧
    (∃ (s : State) (n : Fin 2) (x : CoreSt), x = s.chip.core (32 + n) ∧ s.chip.coreState (32 + n) = 1 ∧ x.drain = .none ∧
      x.step = false ∧ x.hold = .none ∧ s.dev.fetch (32 + n) = none) ∧
    (∃ (s : State) (n : Fin 2) (x : CoreSt), x = s.chip.core (32 + n) ∧ s.chip.stewardIrq (32 + n) = true ∧ x.drain = .none ∧
      x.step = false ∧ x.branch = none ∧ s.chip.coreState (32 + n) = 1 ∧ x.ie = true) ∧
    (∃ (s : State) (n : Fin 2) (x : CoreSt), x = s.chip.core (32 + n) ∧ s.chip.stewardIrq (32 + n) = true ∧ x.drain = .none ∧
      x.step = false ∧ x.branch = none ∧ s.chip.coreState (32 + n) = 3 ∧ x.hold = .interrupt ∧ x.ie = false) := by
  unfold atBundle
  refine ⟨⟨sS (bMa 0x8000_0000), 1, bMa 0x8000_0000, .ma, by decide⟩, fun op h =>
      ⟨sS (bCt (ctWord op 0)) (fun x => { x with status := 0 }), 1, bCt (ctWord op 0), ?_⟩,
    ⟨sS (bLs 0x8000_0000) (fun x => { x with status := 0, p := [(0, 0x600F_FFFC)] }), 1, bLs 0x8000_0000, by decide⟩,
    ⟨sS (bCt (ctWord 0x32 0xFFFF)), 1, bCt (ctWord 0x32 0xFFFF), by decide⟩,
    ⟨sS (bCt 0) (fun x => { x with pc := 0x4000 }), 1, { coreReset with pc := 0x4000 }, by decide⟩,
    ⟨sS (bCt 0) (fun x => { x with status := 3 }) irq33, 1, { coreReset with status := 3 }, by decide⟩,
    ⟨sS (bCt 0) (fun x => { x with hold := .interrupt }) (fun c => irq33 (c.wr (stateKey 33) 3)), 1,
      { coreReset with hold := .interrupt }, by decide⟩⟩
  revert op h; decide

set_option maxRecDepth 20000 in
theorem witness_StewardSystemOperations :
    (∀ op ∈ [0x30, 0x31, 0x33, 0x34], ∃ (s : State) (n : Fin 2) (b : Bundle), issues (32 + n) b s ∧
      (s.chip.core (32 + n)).sup = true ∧ ctOp b.ct = op ∧ onlyCt b ∧ s.chip.stewardIrq (32 + n) = false) ∧
    (∃ (s : State) (n : Fin 2) (b : Bundle), issues (32 + n) b s ∧ (s.chip.core (32 + n)).sup = true ∧ ctOp b.ct = 0x34 ∧
      onlyCt b ∧ s.chip.stewardIrq (32 + n) = true) ∧
    (∃ (s : State) (m : Fin 32) (b : Bundle), issues m b s ∧ 8 ≤ macOp b.ma ∧ b.mb = 0 ∧ b.ls = 0 ∧ b.ct = 0) ∧
    (∀ op ∈ [0x17, 0x1E, 0x1F, 0x22, 0x2F, 0x35, 0x3F], ∃ (s : State) (m : Fin 32) (b : Bundle), issues m b s ∧ ctOp b.ct = op ∧
      onlyCt b) := by
  unfold issues atBundle onlyCt
  refine ⟨fun op h => ⟨sS (bCt (ctWord op 5)), 1, bCt (ctWord op 5), ?_⟩,
    ⟨sS (bCt (ctWord 0x34 0)) id irq33, 1, bCt (ctWord 0x34 0), by decide⟩, ⟨sB (bMa 0x8000_0000), 31, bMa 0x8000_0000, by decide⟩,
    fun op h => ⟨sB (bCt (ctWord op 0)), 31, bCt (ctWord op 0), ?_⟩⟩
  · revert op h; decide
  · revert op h; decide

theorem witness_CoresStartHaltStepAndResume :
    (∃ s : State, s.chip.coreState 31 = 0 ∧ s.chip.en (pgCore 31) = true) ∧
    (∃ s : State, s.chip.coreState 31 ≠ 0) ∧ (∃ s : State, s.chip.en (pgCore 31) = false) ∧
    (∃ s : State, s.chip.coreState 31 = 1 ∧ (s.chip.core 31).drain = .none ∧ (s.chip.core 31).step = false) ∧
    (∃ s : State, (s.chip.core 31).drain = .halt ∧ s.chip.coreState 31 = 1 ∧ flightsDue 31 s) ∧
    (∃ s : State, s.chip.coreState 31 = 1 ∧ (s.chip.core 31).drain = .none ∧ s.chip.atBreak 31 = true ∧ flightsDue 31 s) ∧
    (∃ s : State, s.chip.coreState 31 = 4) ∧
    (∃ (s : State) (b : Bundle), s.chip.coreState 31 = 4 ∧ (s.chip.core 31).drain = .none ∧ (s.chip.core 31).flight = [] ∧
      (s.chip.core 31).branch = none ∧ (s.chip.core 31).lost = false ∧ ((s.chip.core 31).loop 0).active = false ∧
      ((s.chip.core 31).loop 1).active = false ∧ s.dev.fetch 31 = some b ∧ onlyCt b ∧ ctOp b.ct = 0x01 ∧
      (isSteward 31 = true → b.illegal = false)) ∧
    (∃ (s : State) (f : Flight), (s.chip.core 31).flight = [f] ∧ f.due ≤ (s.chip.core 31).issued) ∧
    bit 1 0 = true ∧ bit 2 0 = false := by
  unfold flightsDue onlyCt
  exact ⟨⟨sr [(Reg.CTRL (pgMEC 31), 1)], by decide⟩, ⟨sB (bCt 0), by decide⟩, ⟨State.reset, by decide⟩, ⟨sB (bCt 0), by decide⟩,
    ⟨sB (bCt 0) (fun x => { x with drain := .halt, flight := [{ due := 4, dest := .a 7, val := 1 }] }), by decide⟩,
    ⟨sB (bCt 0) (fun x => { x with pc := 0xFFF }) (·.wr (Reg.MEC_BRK 31) 0x8000_0FFF), by decide⟩,
    ⟨sB (bCt 0) id (·.wr (stateKey 31) 4), by decide⟩,
    ⟨sB (bCt (ctWord 1 0)) id (·.wr (stateKey 31) 4), bCt (ctWord 1 0), by decide⟩,
    ⟨sB (bCt 0) (fun x => { x with flight := [{ due := 0, dest := .d 1, val := 1 }] }), { due := 0, dest := .d 1, val := 1 },
      by decide⟩, by decide, by decide⟩

/-- An access of MEC 31 that waits. -/
def acc31 : RemoteAccess := { pc := 0, addr := 0x6000_0000, write := false, data := [], dests := [some (.d 1)], due := 3 }

theorem witness_RegisterWindowAndRemoteResponses :
    (∃ (s : State) (k : Nat), (s.chip.coreState k = 0 ∨ s.chip.coreState k = 4) ∧ s.chip.regSel k < 0x40) ∧
    (∃ (s : State) (k n : Nat), s.chip.coreState k = 4 ∧ n < 8 ∧ s.chip.regSel k = 0x40 + n) ∧
    (∃ (s : State) (k n : Nat), s.chip.coreState k = 4 ∧ n < 16 ∧ s.chip.regSel k = 0x50 + n) ∧
    (∃ (s : State) (k : Nat), s.chip.coreState k ≠ 0 ∧ s.chip.coreState k ≠ 4) ∧
    (∃ (s : State) (k : Nat) (a : RemoteAccess), (s.chip.core k).hold = .remote [a] none ∧ s.chip.coreState k = 3 ∧
      (s.chip.core k).step = false ∧ isSteward k = false ∧ a.dests = [some (.d 1)]) ∧
    (∃ (s : State) (k : Nat) (a : RemoteAccess), (s.chip.core k).hold = .remote [a] none ∧ s.chip.coreState k = 3 ∧
      (s.chip.core k).step = false ∧ isSteward k = true) :=
  ⟨⟨sr [(Reg.MEC_REGSEL 31, 0x3F)], 31, by decide⟩, ⟨sr [(Reg.MEC_REGSEL 31, 0x47), (stateKey 31, 4)], 31, 7, by decide⟩,
    ⟨sr [(Reg.MEC_REGSEL 31, 0x5F), (stateKey 31, 4)], 31, 15, by decide⟩, ⟨sr [(stateKey 31, 3)], 31, by decide⟩,
    ⟨sB (bCt 0) (fun x => { x with hold := .remote [acc31] none }) (·.wr (stateKey 31) 3), 31, acc31, by decide⟩,
    ⟨sS (bCt 0) (fun x => { x with hold := .remote [acc31] none }) (·.wr (stateKey 33) 3), 33, acc31, by decide⟩⟩

/-- A flip that locks the Shadow copies of the pages. -/
def lockedPages (s : State) : State :=
  s.chipTo { s.chip with snap := { snapReset with flip := some (flipAt 9 false false) } }

theorem witness_TablesTakeTheirEntries :
    (∃ (s : State) (ofs : BitVec 20), tableEntry ofs.toNat 0x4000 (s.chip.wsel pgPATCH) = none) ∧
    (∀ k ∈ [0, 0x00F, 0x018, 0x0FF, 0x310, 0x3FF], 
      tableEntry (0x4000 + 4 * k) 0x4000 false = some (false, k) ∧
        (k < 0x010 ∨ 0x018 ≤ k ∧ k < 0x100 ∨ 0x310 ≤ k ∧ k < 0x400)) ∧
    (∀ k ∈ [0x010, 0x017, 0x100, 0x30F, 0x400, 0xFFF],
      tableEntry (0x4000 + 4 * k) 0x4000 false = some (false, k) ∧ tableEntry (0x8000 + 4 * k) 0x4000 false = some (true, k) ∧
        (0x010 ≤ k ∧ k < 0x018 ∨ 0x100 ≤ k ∧ k < 0x310 ∨ 0x400 ≤ k ∧ k < 0x1000)) ∧
    (∃ s : State, s.chip.pageLocked pgPATCH = false ∧ s.chip.pageLocked pgDMIX = false) ∧
    (∃ s : State, s.chip.pageLocked pgPATCH = true ∧ s.chip.pageLocked pgDMIX = true) ∧
    (∃ (s : State) (ofs : BitVec 20), tableEntry ofs.toNat 0x2000 (s.chip.wsel pgDMIX) = none) ∧
    (∃ (s : State) (ofs : BitVec 20), tableEntry ofs.toNat 0x2000 (s.chip.wsel pgDMIX) = some (false, 2047)) ∧
    (∃ (s : State) (ofs : BitVec 20), tableEntry ofs.toNat 0x2000 (s.chip.wsel pgDMIX) = some (true, 2047)) ∧
    (∃ (s : State) (v : Word), v = (s.chip.xp 5).target) ∧ ∃ (s : State) (v : Word), v ≠ (s.chip.xp 5).target :=
  ⟨⟨State.reset, 0xF_FFFF, by decide⟩, by decide, by decide, ⟨State.reset, by decide⟩,
    ⟨lockedPages (sr [(Reg.SHADOW_CTL pgPATCH, 1), (Reg.SHADOW_CTL pgDMIX, 1)]), by decide⟩, ⟨State.reset, 0xF_FFFF, by decide⟩,
    ⟨State.reset, 0x3FFC, by decide⟩, ⟨State.reset, 0x5FFC, by decide⟩, ⟨State.reset, 0, by decide⟩, ⟨State.reset, 1, by decide⟩⟩

/-- The reset state with a step of crosspoint `k` to `g` pending. -/
def sXp (k : Nat) (g : Word) (l : List (Nat × Word)) : State :=
  (sr l).chipTo { (sr l).chip with dmix := { dmixReset with xp := [(k, { zcReset with pend := some g })], x := [(63, 0x7FFF_FFFF)] } }

theorem witness_CrosspointTimeoutKeepsTheSumExact :
    (∃ (s : State) (k : Nat), (s.chip.xp k).pend = none) ∧
    (∃ (s : State) (g : Word), (s.chip.xp (64 * 31 + 63)).pend = some g ∧ s.chip.freeze pgDMIX = false ∧ s.chip.en pgDMIX = true ∧
      s.chip.quiet = false ∧
      2 ^ 31 ≤ (look 0 s.chip.dmix.s 31 + g.toInt * (look 0 s.chip.dmix.x 63).toInt + 2 ^ 27) / 2 ^ 28) ∧
    (∃ (s : State) (g : Word), (s.chip.xp (64 * 31 + 63)).pend = some g ∧ s.chip.freeze pgDMIX = true ∧
      (look 0 s.chip.dmix.s 31 + g.toInt * (look 0 s.chip.dmix.x 63).toInt + 2 ^ 27) / 2 ^ 28 < 2 ^ 31) :=
  ⟨⟨State.reset, 0, by decide⟩, ⟨sXp 2047 0x7FFF_FFFF [(Reg.CTRL pgDMIX, 1)], 0x7FFF_FFFF, by decide⟩,
    ⟨sXp 2047 1 [(Reg.CTRL pgDMIX, 8)], 1, by decide⟩⟩

/-- A sink in its fade from source 0x100 to source 0x2FF. -/
def fadeSink : SinkSt := { b := 0x2FF, a := 0x100, len := 32, pos := 0, pend := none }

theorem witness_StrobesPlayTheSelectedSources :
    (∃ s : State, 2 ≤ s.chip.pstate) ∧ (∃ s : State, s.chip.pstate = 1) ∧
    (∃ (s : State) (x : SinkSt), s.chip.pstate = 0 ∧ rising s.chip.patch.src = true ∧
      x = (look sinkReset s.chip.patch.sinks 0x400).strobe s.chip.patch.flip (look 0 s.chip.patch.live 0x400) ∧ x.len = 0 ∧
      (0x100 ≤ x.b ∧ x.b < 0x300 ∨ x.b < 0x008)) ∧
    (∃ (s : State) (x : SinkSt), s.chip.pstate = 0 ∧ rising s.chip.patch.src = true ∧
      x = (look sinkReset s.chip.patch.sinks 0x400).strobe s.chip.patch.flip (look 0 s.chip.patch.live 0x400) ∧ x.len ≠ 0 ∧
      (0x100 ≤ x.b ∧ x.b < 0x300 ∨ x.b < 0x008) ∧ (0x100 ≤ x.a ∧ x.a < 0x300 ∨ x.a < 0x008)) ∧
    (∃ s : State, s.chip.tickRuns = false ∧ s.chip.tick.feed = false) ∧ (∃ s : State, s.chip.tickRuns = true) ∧
    (∃ s : State, s.chip.tick.feed = true) :=
  ⟨⟨sr [(Reg.CLKPWR_PSTAT, 2)], by decide⟩, ⟨sr [(Reg.CLKPWR_PSTAT, 1)], by decide⟩,
    ⟨State.reset, (look sinkReset State.reset.chip.patch.sinks 0x400).strobe State.reset.chip.patch.flip
      (look 0 State.reset.chip.patch.live 0x400), by decide⟩,
    ⟨st fun c => { c with patch := { patchReset with sinks := [(0x400, fadeSink)], live := [(0x400, 0x2FF)] } },
      fadeSink.strobe false 0x2FF, by decide⟩,
    ⟨State.reset, by decide⟩, ⟨sPhase 1, by decide⟩, ⟨st fun c => { c with tick := { tickReset with feed := true } }, by decide⟩⟩

/-! Witnesses: the audio ports. -/

/-- The reset state with these registers and port 15 as given. -/
def sSap (l : List (Nat × Word)) (f : SapSt → SapSt) : State :=
  (sr l).chipTo { (sr l).chip with sap := [(15, f sapReset)] }

/-- A frame that holds a preamble in its first pair, of `b` BCLK periods. -/
def fSap (b : Nat) (v : Slip) : SapFrame :=
  { words := [0xF872_0000, 0x4E1F_0000], bclks := b, dIn := 0xFFFF, slip := v, start := 7 }

theorem witness_SerialPortFramesAreDelivered :
    (∃ s : State, s.chip.en (pgSAP 15) = true) ∧ (∃ s : State, s.chip.en (pgSAP 15) = false ∧ s.chip.sapValid 15 = false) ∧
    (∃ s : State, s.chip.en (pgSAP 15) = false ∧ s.chip.sapValid 15 = true) ∧
    (∀ v : Slip, ∃ (s : State) (f : SapFrame) (x : SapSt), x = s.chip.sapSt 15 ∧
      s.chip.en (pgSAP 15) = true ∧ s.chip.idleAck (pgSAP 15) = false ∧ x.lost = false ∧ x.back = false ∧ x.inFin = 32 ∧
      s.chip.rateMismatch 15 = false ∧ s.chip.sapAsync 15 = false ∧ feedEn (s.chip.rd (Reg.SAP_QIN 15)) = false ∧
      s.chip.rd (Reg.SAP_NA_NOW 15) = 0 ∧ s.chip.sapDataW 15 ≤ s.chip.sapSlotW 15 ∧ s.chip.rdb (Reg.SAP_FMT 15) 19 = false ∧
      f.bclks = s.chip.sapSlots 15 * s.chip.sapSlotW 15 ∧ f.slip = v ∧ s.chip.freeze (pgSAP 15) = false) ∧
    (∃ (s : State) (f : SapFrame) (x : SapSt), x = s.chip.sapSt 15 ∧
      s.chip.en (pgSAP 15) = true ∧ s.chip.idleAck (pgSAP 15) = false ∧ x.lost = false ∧ x.back = false ∧ x.inFin = 32 ∧
      s.chip.rateMismatch 15 = false ∧ s.chip.sapAsync 15 = false ∧ feedEn (s.chip.rd (Reg.SAP_QIN 15)) = false ∧
      s.chip.rd (Reg.SAP_NA_NOW 15) = 0 ∧ s.chip.sapDataW 15 ≤ s.chip.sapSlotW 15 ∧ s.chip.rdb (Reg.SAP_FMT 15) 19 = true ∧
      f.bclks = s.chip.sapSlots 15 * s.chip.sapSlotW 15 ∧ f.slip = .none ∧ 2 * 0 + 1 < s.chip.sapSlots 15 ∧
      fld (f.words[0]?.getD 0) 31 16 = 0xF872 ∧ fld (f.words[1]?.getD 0) 31 16 = 0x4E1F) ∧
    (∃ (s : State) (f : SapFrame) (x : SapSt), x = s.chip.sapSt 15 ∧
      s.chip.en (pgSAP 15) = true ∧ s.chip.idleAck (pgSAP 15) = false ∧ x.lost = false ∧ x.back = false ∧ x.inFin = 32 ∧
      s.chip.rateMismatch 15 = false ∧ s.chip.sapAsync 15 = false ∧ feedEn (s.chip.rd (Reg.SAP_QIN 15)) = false ∧
      s.chip.rd (Reg.SAP_NA_NOW 15) = 0 ∧ s.chip.sapDataW 15 ≤ s.chip.sapSlotW 15 ∧ s.chip.sapMaster 15 = false ∧
      f.bclks ≠ s.chip.sapSlots 15 * s.chip.sapSlotW 15 ∧ s.chip.freeze (pgSAP 15) = false) ∧
    (∃ s : State, s.chip.en (pgSAP 15) = true ∧ s.chip.sapMaster 15 = false ∧ (s.chip.sapSt 15).lost = false) ∧
    (∃ s : State, s.chip.en (pgSAP 15) = true ∧ (s.chip.sapSt 15).lost = true ∧ s.chip.pstate < 2 ∧
      s.chip.inSlot 15 0 = true ∧ s.chip.rateMismatch 15 = false ∧ s.chip.sapAsync 15 = false ∧ (s.chip.sapSt 15).inK < 32) :=
  ⟨⟨sr [(Reg.CTRL (pgSAP 15), 1)], by decide⟩, ⟨sr [(Reg.SAP_FMT 15, 0xFFFF_FFFF)], by decide⟩, ⟨State.reset, by decide⟩,
    fun v => ⟨sr [(Reg.CTRL (pgSAP 15), 1), (Reg.SAP_FMT 15, 0)],
      fSap ((sr [(Reg.SAP_FMT 15, 0)]).chip.sapSlots 15 * (sr [(Reg.SAP_FMT 15, 0)]).chip.sapSlotW 15) v, sapReset, by
        cases v <;> decide⟩,
    ⟨sr [(Reg.CTRL (pgSAP 15), 1)], fSap (State.reset.chip.sapSlots 15 * State.reset.chip.sapSlotW 15) .none, sapReset, by decide⟩,
    ⟨sr [(Reg.CTRL (pgSAP 15), 1)], fSap 1 .none, sapReset, by decide⟩, ⟨sr [(Reg.CTRL (pgSAP 15), 1)], by decide⟩,
    ⟨sSap [(Reg.CTRL (pgSAP 15), 1), (Reg.SAP_INMASK_ACT 15, 1)] fun x => { x with lost := true, inK := 31 }, by decide⟩⟩

/-- The reset state with these registers and AES3 port 3 as given. -/
def sAes (l : List (Nat × Word)) (f : AesSt → AesSt) : State :=
  (sr l).chipTo { (sr l).chip with aes := [(3, f aesReset)] }

theorem witness_OutputFramesObeyMaskTrimAndMutePath :
    (∃ s : State, s.chip.en (pgSAP 15) = true ∧ s.chip.idleAck (pgSAP 15) = false ∧ (s.chip.sapSt 15).lost = false ∧
      (s.chip.sapSt 15).back = false ∧ s.chip.sapPinned 15 = true) ∧
    (∃ s : State, s.chip.en (pgSAP 15) = true ∧ s.chip.idleAck (pgSAP 15) = false ∧ (s.chip.sapSt 15).lost = false ∧
      (s.chip.sapSt 15).back = false ∧ s.chip.sapPinned 15 = false ∧ s.chip.rd (Reg.SAP_OUTMASK 15) ≠ 0 ∧
      s.chip.sapAsync 15 = false) ∧
    (∃ s : State, s.chip.aesTx 3 = true ∧ s.chip.aesPinned 3 = true) ∧
    (∃ s : State, s.chip.aesTx 3 = true ∧ s.chip.aesPinned 3 = false) :=
  ⟨⟨sr [(Reg.CTRL (pgSAP 15), 1)], by decide⟩,
    ⟨(sr [(Reg.CTRL (pgSAP 15), 1), (Reg.SAP_OUTMASK 15, 0x8000_0000)]).chipTo
      { (sr [(Reg.CTRL (pgSAP 15), 1), (Reg.SAP_OUTMASK 15, 0x8000_0000), (Reg.FG_STATE, 1)]).chip with
        fg := { fgReset with soft := false } }, by decide⟩,
    ⟨sr [(Reg.CTRL (pgAES 3), 1), (Reg.AES_CFG 3, 0x3)], by decide⟩,
    ⟨(sr [(Reg.CTRL (pgAES 3), 1), (Reg.AES_CFG 3, 0x3)]).chipTo
      { (sr [(Reg.CTRL (pgAES 3), 1), (Reg.AES_CFG 3, 0x3), (Reg.FG_STATE, 1)]).chip with
        fg := { fgReset with soft := false } }, by decide⟩⟩

/-- A frame of an AES3 receiver with full-scale words. -/
def fAes (pe v : Bool) : AesFrame :=
  { a := { audio := 0x7F_FFFF, v := v, cs := false, user := false, parityErr := pe },
    b := { audio := 0x80_0000, v := v, cs := false, user := false, parityErr := pe },
    z := true, valid := true, biphase := 0, dIn := 1, slip := .none, start := 0 }

theorem witness_AesReceiversAndAsrcGroups :
    (∃ s : State, s.chip.aesRx 3 = true ∧ s.chip.aesLocked 3 = false ∧ s.chip.freeze (pgAES 3) = false) ∧
    (∃ s : State, s.chip.aesLocked 3 = true) ∧
    (∃ (s : State) (f : AesFrame) (x : AesSt), x = s.chip.aesSt 3 ∧ s.chip.aesRx 3 = true ∧ s.chip.aesSync 3 = true ∧
      f.valid = true ∧ x.back = false ∧ x.inFin = 32 ∧ x.naCs = false ∧ x.naPre = false ∧ s.chip.rdb (Reg.AES_CFG 3) 4 = false ∧
      f.slip = .none ∧ feedEn (s.chip.rd (Reg.AES_RXQ 3)) = false ∧ f.a.parityErr = true) ∧
    (∃ (s : State) (x : AesSt), x = s.chip.aesSt 3 ∧ s.chip.aesRx 3 = true ∧ ((look [] x.cs 0)[0]?).getD false = false ∧
      ((look [] x.cs 1)[0]?).getD false = false ∧ s.chip.rd (Reg.AES_RXCS_A 3 5) ≠ bitsWord (look [] x.cs 0) 5) ∧
    (∃ s : State, (s.chip.aesSt 3).commit = true) ∧ (∃ s : State, (s.chip.aesSt 3).commit = false) ∧
    (∃ (s : State) (ratio : Word), s.chip.asrcOn 7 = true ∧ 2 ^ 21 ≤ ratio.toNat ∧ ratio.toNat ≤ 2 ^ 27 ∧
      s.chip.rdb (Reg.ASRC_G_STAT 7) 0 = false) ∧
    (∃ (s : State) (ratio : Word), s.chip.asrcOn 7 = true ∧ 2 ^ 27 < ratio.toNat) ∧
    (∃ s : State, s.chip.rdb (Reg.ASRC_G_STAT 7) 0 = true) :=
  ⟨⟨sr [(Reg.CTRL (pgAES 3), 1), (Reg.AES_CFG 3, 0x3)], by decide⟩, ⟨sr [(Reg.AES_RXSTAT 3, 1)], by decide⟩,
    ⟨sr [(Reg.CTRL (pgAES 3), 1), (Reg.AES_CFG 3, 0x3), (Reg.AES_RXSTAT 3, 0x177_0001)], fAes true false, aesReset, by decide⟩,
    ⟨sAes [(Reg.CTRL (pgAES 3), 1), (Reg.AES_CFG 3, 0x3), (Reg.AES_RXCS_A 3 5, 1)] id, aesReset, by decide⟩,
    ⟨sAes [] fun x => { x with commit := true }, by decide⟩, ⟨State.reset, by decide⟩,
    ⟨sr [(Reg.CTRL pgASRC, 1), (Reg.ASRC_G_CFG 7, 1)], 0x800_0000, by decide⟩,
    ⟨sr [(Reg.CTRL pgASRC, 1), (Reg.ASRC_G_CFG 7, 1)], 0x800_0001, by decide⟩, ⟨sr [(Reg.ASRC_G_STAT 7, 1)], by decide⟩⟩

/-! Witnesses: jacks, Aster, lanes and Iris. -/

/-- The reset state with Jack Sense as given and these registers. -/
def sJack (l : List (Nat × Word)) (f : JackSt → JackSt) : State :=
  (sr l).chipTo { (sr l).chip with jack := f jackReset }

/-- An event, and sixteen of them. -/
def jEvt : JackEvent := { info := 0x100, time := 7 }
def jFull : List JackEvent := List.replicate 16 jEvt

/-- Jack 1 watched; with a plug of class 2 and its buttons. -/
def jl : List (Nat × Word) := [(Reg.CTRL pgJACK, 1), (Reg.JACK_CFG, 0x1F_140A)]
def jb : List (Nat × Word) := jl ++ [(Reg.JACK_STAT 1, 5)]

theorem witness_JackEventsAndClasses :
    (∃ (s : State) (det : Bool), s.chip.jackOn 1 = true ∧ (det == s.chip.rdb Reg.JACK_CFG 20) = s.chip.jackIn 1) ∧
    (∃ (s : State) (det : Bool), s.chip.jackOn 1 = true ∧ det = s.chip.rdb Reg.JACK_CFG 20 ∧ s.chip.jackIn 1 = false ∧
      s.chip.jack.evts.length < 16) ∧
    (∃ (s : State) (det : Bool), s.chip.jackOn 1 = true ∧ det = s.chip.rdb Reg.JACK_CFG 20 ∧ s.chip.jackIn 1 = false ∧
      16 ≤ s.chip.jack.evts.length) ∧
    (∃ (s : State) (det : Bool), s.chip.jackOn 1 = true ∧ det ≠ s.chip.rdb Reg.JACK_CFG 20 ∧ s.chip.jackIn 1 = true ∧
      s.chip.rdf (Reg.JACK_STAT 1) 7 4 = 0 ∧ s.chip.jack.evts.length < 16) ∧
    (∃ (s : State) (x : JackChan), x = s.chip.jackSt 1 ∧ s.chip.jackOn 1 = true ∧ x.busy = true ∧ x.sets < 8 ∧
      x.rounds.length < 2) ∧
    (∃ (s : State) (x : JackChan) (tip : BitVec 10), x = s.chip.jackSt 1 ∧ s.chip.jackOn 1 = true ∧ x.busy = true ∧ x.sets < 8 ∧
      s.chip.rdf Reg.JACK_THR0 25 16 ≤ tip.toNat ∧ x.rounds = [4, 4] ∧ s.chip.jack.evts.length < 16) ∧
    (∃ (s : State) (x : JackChan) (tip : BitVec 10), x = s.chip.jackSt 1 ∧ s.chip.jackOn 1 = true ∧ x.busy = true ∧ x.sets < 8 ∧
      s.chip.rdf Reg.JACK_THR0 25 16 ≤ tip.toNat ∧ x.rounds = [4, 5]) ∧
    (∃ s : State, s.chip.jackOn 1 = true ∧ s.chip.jackIn 1 = true) ∧
    (∃ (s : State) (code : BitVec 10), s.chip.buttonsOn 1 = true ∧ code.toNat ≤ s.chip.rdf Reg.JACK_BTN0 9 0) ∧
    (∃ (s : State) (code : BitVec 10), s.chip.buttonsOn 1 = true ∧ s.chip.rdf Reg.JACK_BTN1 25 16 < code.toNat ∧
      code.toNat < s.chip.rdf Reg.JACK_THR1 9 0 ∧ s.chip.rdf Reg.JACK_BTN0 9 0 < code.toNat ∧
      s.chip.rdf Reg.JACK_BTN0 25 16 < code.toNat ∧ s.chip.rdf Reg.JACK_BTN1 9 0 < code.toNat) ∧
    (∃ (s : State) (k : Nat), s.chip.buttonsOn 1 = true ∧ k < 4 ∧ (s.chip.jackSt 1).code = k + 1 ∧
      s.chip.rdf (Reg.JACK_STAT 1) 7 4 = 0 ∧ s.chip.jack.evts.length < 16) ∧
    (∃ s : State, s.chip.jack.evts = [] ∧ s.chip.jack.raws = []) ∧
    (∃ (s : State) (e : JackEvent) (t : List JackEvent), s.chip.jack.evts = e :: t) ∧
    (∃ s : State, s.chip.rdb Reg.JACK_RAWCFG 0 = true ∧ s.chip.en pgJACK = true ∧ ¬ s.chip.jack.raws.length < 16) ∧
    (∃ (s : State) (r : Nat) (t : List Nat), s.chip.jack.raws = r :: t) :=
  ⟨⟨sJack jl id, false, by decide⟩, ⟨sJack jl id, true, by decide⟩, ⟨sJack jl fun x => { x with evts := jFull }, true, by decide⟩,
    ⟨sJack (jl ++ [(Reg.JACK_STAT 1, 1)]) id, false, by decide⟩,
    ⟨sJack jl fun x => { x with jacks := [(1, { jackChanReset with busy := true, sets := 7 })] },
      { jackChanReset with busy := true, sets := 7 }, by decide⟩,
    ⟨sJack jl fun x => { x with jacks := [(1, { jackChanReset with busy := true, rounds := [4, 4] })] },
      { jackChanReset with busy := true, rounds := [4, 4] }, 0x3FF, by decide⟩,
    ⟨sJack jl fun x => { x with jacks := [(1, { jackChanReset with busy := true, rounds := [4, 5] })] },
      { jackChanReset with busy := true, rounds := [4, 5] }, 0x3FF, by decide⟩,
    ⟨sJack (jl ++ [(Reg.JACK_STAT 1, 1)]) id, by decide⟩,
    ⟨sJack jb id, 0, by decide⟩,
    ⟨sJack (jb ++ [(Reg.JACK_THR1, 0x3FF), (Reg.JACK_BTN0, 0), (Reg.JACK_BTN1, 0)]) id, 1, by decide⟩,
    ⟨sJack jb fun x => { x with jacks := [(1, { jackChanReset with code := 4 })] }, 3, by decide⟩, ⟨State.reset, by decide⟩,
    ⟨sJack [] fun x => { x with evts := jFull }, jEvt, List.replicate 15 jEvt, by decide⟩,
    ⟨sJack (jl ++ [(Reg.JACK_RAWCFG, 1)]) fun x => { x with raws := List.replicate 16 5 }, by decide⟩,
    ⟨sJack [] fun x => { x with raws := [5] }, 5, [], by decide⟩⟩

/-- Reference `r` selected and qualified, in state `v`, with Aster as given. -/
def sAst (r v : Nat) (l : List (Nat × Word)) (f : AsterSt → AsterSt := id) : State :=
  (sr (l ++ [(Reg.ASTER_QSTAT, word (2 ^ r)), (Reg.ASTER_STATE, word v)])).chipTo
    { (sr (l ++ [(Reg.ASTER_QSTAT, word (2 ^ r)), (Reg.ASTER_STATE, word v)])).chip with
      aster := f { asterReset with sel := some r } }

theorem witness_AsterSelectsAndHolds :
    (∃ s : State, s.chip.refEn 11 = true) ∧ (∃ s : State, s.chip.refEn 11 = false) ∧
    (∃ (s : State) (r r0 : Nat), steadyOn r0 s.chip ∧ r ≠ r0 ∧ s.chip.refQual r = true) ∧
    (∃ (s : State) (r : Fin 12), s.chip.aster.recal = false ∧ s.chip.rdb Reg.ASTER_REFSEL 8 = false ∧
      s.chip.aster.sel = some r.val ∧ ∀ m, m < 12 → m ≠ r.val → s.chip.refQual m = false) ∧
    (∀ b : Bool, ∃ (s : State) (r : Fin 12), s.chip.aster.wtr.any (fun e => e.1 == r.val) = true ∧ s.chip.aster.build = false ∧
      s.chip.aster.recal = false ∧ s.chip.rdb Reg.ASTER_REFSEL 8 = b) ∧
    (∃ (s : State) (r r0 : Nat), s.chip.rdb Reg.ASTER_REFSEL 8 = false ∧ s.chip.aster.recal = false ∧
      s.chip.aster.build = false ∧ s.chip.asterRail = false ∧ s.chip.aster.sel = some r0 ∧ s.chip.refQual r0 = true ∧
      s.chip.refQual r = true ∧ s.chip.refRank r < s.chip.refRank r0 ∧ s.chip.aster.wtr.any (fun e => e.1 == r) = true ∧
      ∀ m, m < 12 → m ≠ r → s.chip.refQual m = true → s.chip.refRank r0 ≤ s.chip.refRank m) ∧
    (∀ v ∈ [1, 3], ∃ (s : State) (m : AsterMeas), steadyOn 11 s.chip ∧ m.offsets = [] ∧ s.chip.asterState = v ∧
      s.chip.aster.build = false ∧ s.chip.refEn 10 = false ∧ s.chip.freeze pgASTER = false ∧
      m.phErr.toInt.natAbs ≤ s.chip.rdf Reg.ASTER_LOCK 15 0 ∧
      s.chip.aster.locks + 1 < max 1 (s.chip.rdf Reg.ASTER_LOCK 23 16)) ∧
    (∃ (s : State) (m : AsterMeas), steadyOn 11 s.chip ∧ m.offsets = [] ∧ s.chip.asterState = 3 ∧
      s.chip.aster.build = false ∧ s.chip.refEn 10 = false ∧ s.chip.freeze pgASTER = false ∧
      m.phErr.toInt.natAbs ≤ s.chip.rdf Reg.ASTER_LOCK 15 0 ∧
      max 1 (s.chip.rdf Reg.ASTER_LOCK 23 16) ≤ s.chip.aster.locks + 1) ∧
    (∃ s : State, s.chip.aster.build = false) ∧ (∃ s : State, steadyOn 11 s.chip ∧ s.chip.aster.build = true) := by
  unfold steadyOn
  exact ⟨⟨sr [(Reg.ASTER_REF_CFG 11, 1)], by decide⟩, ⟨State.reset, by decide⟩,
    ⟨sAst 11 2 [(Reg.ASTER_REF_CFG 0, 0xF0)] (fun x => x) |>.chipTo
      { (sAst 11 2 [(Reg.ASTER_REF_CFG 0, 0xF0)]).chip.wr Reg.ASTER_QSTAT 0x801 with aster := { asterReset with sel := some 11 } },
      0, 11, by decide⟩,
    ⟨sAst 11 2 [], 11, by decide⟩, fun b => match b with
      | false => ⟨sAst 0 0 [] fun x => { x with wtr := [(11, 0)] }, 11, by decide⟩
      | true => ⟨sAst 0 0 [(Reg.ASTER_REFSEL, 0x100)] fun x => { x with wtr := [(11, 0)] }, 11, by decide⟩,
    ⟨(sAst 11 2 []).chipTo { ((sAst 11 2 []).chip.wr Reg.ASTER_QSTAT 0x801).wr (Reg.ASTER_REF_CFG 11) 0xF0 with
      aster := { asterReset with sel := some 11, wtr := [(0, 5)] } }, 0, 11, by decide⟩,
    fun v h => ⟨sAst 11 v [(Reg.ASTER_LOCK, 0x2_000A)], { offsets := [], phErr := -10, ref := some 11 }, by revert v h; decide⟩,
    ⟨sAst 11 3 [(Reg.ASTER_LOCK, 0x2_000A)] fun x => { x with locks := 1 }, { offsets := [], phErr := 10, ref := some 11 }, by decide⟩,
    ⟨State.reset, by decide⟩, ⟨sAst 11 1 [] fun x => { x with build := true }, by decide⟩⟩

theorem witness_AsterCommandsAndFrameOutput :
    (∃ s : State, s.chip.asterState = 0) ∧ (∃ s : State, s.chip.asterState = 4) ∧
    (∃ s : State, s.chip.asterState ≠ 0 ∧ s.chip.asterState ≠ 4) ∧
    (∃ s : State, s.chip.aster.recal = true ∧ s.chip.aster.sel = none ∧ ∀ m, m < 12 → s.chip.refQual m = false) ∧
    (∃ (s : State) (r : Nat) (c0 : Chip), c0 = s.chip.wrb Reg.ASTER_STATE 4 false ∧ steadyOn r c0) ∧
    (∃ s : State, s.chip.aster.missed = false ∧ 0 ≤ (s.chip.rd Reg.ASTER_FRAME_OFS).toInt ∧
      (s.chip.rd Reg.ASTER_FRAME_OFS).toInt ≤ 500000) ∧
    (∃ (s : State) (t : Word), s.chip.aster.due = some t) := by
  unfold steadyOn
  exact ⟨⟨sr [(Reg.ASTER_STATE, 0)], by decide⟩, ⟨sr [(Reg.ASTER_STATE, 4)], by decide⟩, ⟨sr [(Reg.ASTER_STATE, 3)], by decide⟩,
    ⟨st fun c => { c with aster := { asterReset with recal := true } }, by decide⟩,
    ⟨sAst 11 0x12 [], 11, (sAst 11 0x12 []).chip.wrb Reg.ASTER_STATE 4 false, rfl, by decide⟩,
    ⟨sr [(Reg.ASTER_FRAME_OFS, 500000)], by decide⟩, ⟨st fun c => { c with aster := { asterReset with due := some 9 } }, 9, by decide⟩⟩

/-- Lane `n` in state `v`, with these registers and the lane as given. -/
def sLane (n v : Nat) (l : List (Nat × Word)) (f : LaneSt → LaneSt := id) : State :=
  (sr (l ++ [(Reg.LANE_STAT n, word v)])).chipTo
    { (sr (l ++ [(Reg.LANE_STAT n, word v)])).chip with lanes := [(n, f laneReset)] }

theorem witness_LanesFollowTheirSignal :
    (∃ (s : State) (n : Fin 10), s.chip.en (pgLANE n) = false ∧ (s.chip.rdb (Reg.LANE_CFG n) 5 = true → 4 ≤ n.val ∧ n.val ≤ 7) ∧
      s.chip.mgldRefuses n = false ∧ s.chip.rdb (Reg.LANE_CFG n) 1 = true ∧ s.chip.rdb (Reg.LANE_CFG n) 2 = true ∧
      s.chip.rdb (Reg.LANE_STAT n) 3 = true) ∧
    (∃ (s : State) (n : Fin 10), s.chip.en (pgLANE n) = false ∧ s.chip.rdb (Reg.LANE_CFG n) 5 = true ∧ (n.val < 4 ∨ 7 < n.val)) ∧
    (∃ (s : State) (n : Fin 10), s.chip.en (pgLANE n) = false ∧ s.chip.mgldRefuses n = true) ∧
    (∃ (s : State) (n : Fin 10), s.chip.laneState n = 5 ∧ s.chip.fastIdle n = true) ∧
    (∃ (s : State) (n : Fin 10), 3 ≤ s.chip.laneState n ∧ s.chip.laneState n ≠ 5) ∧
    (∃ (s : State) (n : Fin 10), s.chip.laneState n = 5 ∧ s.chip.fastIdle n = false) ∧
    (∃ (s : State) (n : Fin 10), s.chip.laneState n < 3) ∧
    (∃ (s : State) (n : Fin 10) (f : Word), s.chip.laneState n = 3 ∧ f.toInt.natAbs ≤ 30000) ∧
    (∃ (s : State) (n : Fin 10) (f : Word), s.chip.laneState n = 3 ∧ 30000 < f.toInt.natAbs) ∧
    (∃ (s : State) (n : Fin 10), s.chip.laneState n = 4 ∧ (s.chip.lane n).run + 1 < 64 ∧ s.chip.freeze (pgLANE n) = false) ∧
    (∃ (s : State) (n : Fin 10), s.chip.laneState n = 4 ∧ 64 ≤ (s.chip.lane n).run + 1) ∧
    (∃ (s : State) (n : Fin 10) (h : BitVec 2) (w : List Bool), s.chip.laneState n = 5 ∧ h = 3 ∧
      w = ((h == 0 || h == 3) :: (s.chip.lane n).win).take 64 ∧ 16 ≤ (w.filter id).length) ∧
    (∃ (s : State) (n : Fin 10) (h : BitVec 2) (w : List Bool), s.chip.laneState n = 5 ∧ h = 3 ∧
      w = ((h == 0 || h == 3) :: (s.chip.lane n).win).take 64 ∧ (w.filter id).length < 16) :=
  ⟨⟨sLane 7 8 [(Reg.LANE_CFG 7, 0x26)], 7, by decide⟩, ⟨sLane 8 0 [(Reg.LANE_CFG 8, 0x20)], 8, by decide⟩,
    ⟨sLane 9 0 [(Reg.CTRL pgMGLD, 1), (Reg.LANE_CFG 9, 1)], 9, by decide⟩, ⟨sLane 7 5 [(Reg.LANE_CFG 7, 0x20)], 7, by decide⟩,
    ⟨sLane 7 3 [], 7, by decide⟩, ⟨sLane 9 5 [], 9, by decide⟩, ⟨sLane 9 2 [], 9, by decide⟩,
    ⟨sLane 9 3 [], 9, -30000, by decide⟩, ⟨sLane 9 3 [], 9, 30001, by decide⟩,
    ⟨sLane 9 4 [] fun x => { x with run := 62 }, 9, by decide⟩, ⟨sLane 9 4 [] fun x => { x with run := 63 }, 9, by decide⟩,
    ⟨sLane 9 5 [] fun x => { x with win := List.replicate 15 true }, 9, 3, List.replicate 16 true, by decide⟩,
    ⟨sLane 9 5 [] fun x => { x with win := List.replicate 14 true }, 9, 3, List.replicate 15 true, by decide⟩⟩

theorem witness_LaneIdleAndIrisScans :
    (∃ s : State, s.chip.autoIdle 7 = true) ∧ (∃ s : State, s.chip.fastIdle 7 = false) ∧
    (∀ b : Bool, ∃ s : State, s.chip.autoIdle 7 = false ∧ s.chip.fastIdle 7 = true ∧ s.chip.rdb (Reg.LANE_CFG 7) 1 = true ∧
      s.chip.en (pgLANE 7) = true ∧ (s.chip.lane 7).fast = false ∧ (s.chip.lane 7).burst = b) ∧
    (∃ s : State, (s.chip.lane 7).fast = false) ∧ (∃ s : State, s.chip.autoIdle 7 = false ∧ (s.chip.lane 7).fast = true) ∧
    (∀ b : Bool, ∃ s : State, (s.chip.lane 7).burst = true ∧ (s.chip.lane 7).want = b) ∧
    (∃ s : State, s.chip.laneState 7 = 1) ∧ (∃ s : State, s.chip.irisRuns = true) ∧
    (∃ s : State, s.chip.irisRuns = false ∧ s.chip.irisInvalid = true) ∧
    (∃ s : State, s.chip.irisRuns = false ∧ s.chip.irisInvalid = false ∧ s.chip.laneState s.chip.irisLane < 4) ∧
    (∃ s : State, s.chip.irisRuns = false ∧ s.chip.irisInvalid = false ∧ 4 ≤ s.chip.laneState s.chip.irisLane) ∧
    (∃ s : State, s.chip.irisRuns = true ∧ s.chip.iris.length < 256 ∧ 0 < axisCount s.chip.irisV ∧
      s.chip.rdf Reg.IRIS_STAT 31 16 + 1 < s.chip.irisPoints) ∧
    (∃ s : State, s.chip.irisRuns = true ∧ s.chip.iris.length < 256 ∧ 0 < axisCount s.chip.irisV ∧
      s.chip.irisPoints ≤ s.chip.rdf Reg.IRIS_STAT 31 16 + 1) ∧
    (∃ s : State, s.chip.iris = []) ∧ (∃ (s : State) (w : Word) (t : List Word), s.chip.iris = w :: t) :=
  ⟨⟨sr [(Reg.CTRL (pgSTM 3), 1), (Reg.STM_CFG 3, 0x10)], by decide⟩, ⟨State.reset, by decide⟩,
    fun b => ⟨sLane 7 0x45 [(Reg.CTRL (pgLANE 7), 1), (Reg.LANE_CFG 7, 0x26)] fun x => { x with burst := b }, by
      revert b; decide⟩,
    ⟨State.reset, by decide⟩, ⟨sLane 7 0x45 [] fun x => { x with fast := true }, by decide⟩,
    fun b => ⟨sLane 7 5 [] fun x => { x with burst := true, want := b }, by revert b; decide⟩,
    ⟨sLane 7 1 [], by decide⟩, ⟨sr [(Reg.IRIS_STAT, 1)], by decide⟩, ⟨sr [(Reg.IRIS_PH, 1)], by decide⟩,
    ⟨State.reset, by decide⟩, ⟨sLane 0 4 [], by decide⟩, ⟨sr [(Reg.IRIS_STAT, 1), (Reg.IRIS_V, 0x100)], by decide⟩,
    ⟨sr [(Reg.IRIS_STAT, 1), (Reg.IRIS_PH, 0), (Reg.IRIS_V, 0)], by decide⟩, ⟨State.reset, by decide⟩, ⟨st fun c => { c with iris := [9] }, 9, [], by decide⟩⟩

/-! Witnesses: Ethernet, CB0 and the streams. -/

/-- The reset state with these registers, port 3 as given and these bytes in memory. -/
def sEth (l : List (Nat × Word)) (f : EthSt → EthSt := id) (m : List Host.Cell := []) : State :=
  { State.reset with dev := { mem := { memReset with cells := m }, chip := { (sr l).chip with eth := [(3, f ethReset)] } } }

/-- A gate list, one that ends its cycle. -/
def gates9 (start : Word) : GateList := { len := 2, cycle := 100, start := start }

theorem witness_EthernetRingsGatesAndPauses :
    (∃ s : State, s.chip.ringEn 3 true 15 = false ∧ ∀ f, (s.chip.ethSt 3).sending = some f → f.ring ≠ 15) ∧
    (∃ (s : State) (v w : Word), w = (v ||| 1) &&& 0x0017_0F01 ∧ s.chip.ringEn 3 true 15 = true ∧
      s.chip.rd (ringKey 3 true 15 0x08) = w) ∧
    (∃ (s : State) (v w : Word), w = (v ||| 1) &&& 0x0017_0F01 ∧ s.chip.ringEn 3 true 15 = true ∧
      s.chip.rd (ringKey 3 true 15 0x08) ≠ w) ∧
    (∃ (s : State) (v : Word), fld v 11 0 < s.chip.ringSize 3 true 15 ∧ fld v 11 0 = 3) ∧
    (∃ (s : State) (v : Word), s.chip.ringSize 3 true 15 ≤ fld v 11 0 ∧ fld v 11 0 = 4) ∧
    (∃ s : State, s.chip.laneState 3 = 5 ∧ s.chip.ethLink 3 = false) ∧ (∃ s : State, s.chip.ethLink 3 = true) ∧
    (∃ s : State, (s.chip.ethSt 3).armed.isSome = true) ∧
    (∃ s : State, (s.chip.ethSt 3).armed = none ∧ s.chip.rdf (Reg.ETH_GCL_LEN 3) 9 0 = 513) ∧
    (∃ s : State, (s.chip.ethSt 3).armed = none ∧ s.chip.rdf (Reg.ETH_GCL_LEN 3) 9 0 = 512 ∧
      (s.chip.rd (Reg.ETH_GCL_CYCLE 3)).toNat = 1000000001) ∧
    (∃ (s : State), (s.chip.ethSt 3).armed = none ∧ 1 ≤ s.chip.rdf (Reg.ETH_GCL_LEN 3) 9 0 ∧
      s.chip.rdf (Reg.ETH_GCL_LEN 3) 9 0 ≤ 512 ∧ 1 ≤ (s.chip.rd (Reg.ETH_GCL_CYCLE 3)).toNat ∧
      (s.chip.rd (Reg.ETH_GCL_CYCLE 3)).toNat ≤ 1000000000) ∧
    (∃ (s : State) (g : GateList), (s.chip.ethSt 3).armed = some g) ∧
    (∃ (s : State) (g : GateList) (x : EthSt) (o : Nat), x = s.chip.ethSt 3 ∧ x.list = some g ∧
      o = (x.entryAt - g.start).toNat + s.chip.gateInterval 3 x.entry ∧ x.entry + 1 < g.len ∧ o < g.cycle) ∧
    (∃ (s : State) (g : GateList) (x : EthSt), x = s.chip.ethSt 3 ∧ x.list = some g ∧ g.len ≤ x.entry + 1) ∧
    (bit 2 0 = false ∧ bit 1 0 = true) :=
  ⟨⟨State.reset, by decide⟩, ⟨sr [(ringKey 3 true 15 0x08, 1)], 0, 1, by decide⟩,
    ⟨sr [(ringKey 3 true 15 0x08, 1)], 0x101, 0x101, by decide⟩, ⟨State.reset, 3, by decide⟩, ⟨State.reset, 4, by decide⟩,
    ⟨sr [(Reg.LANE_STAT 3, 5)], by decide⟩, ⟨sr [(Reg.ETH_STAT 3, 1)], by decide⟩,
    ⟨sEth [] fun x => { x with armed := some (gates9 0) }, by decide⟩, ⟨sEth [(Reg.ETH_GCL_LEN 3, 513)], by decide⟩,
    ⟨sEth [(Reg.ETH_GCL_LEN 3, 512), (Reg.ETH_GCL_CYCLE 3, 1000000001)], by decide⟩,
    ⟨sEth [(Reg.ETH_GCL_LEN 3, 512), (Reg.ETH_GCL_CYCLE 3, 1000000000)], by decide⟩,
    ⟨sEth [] fun x => { x with armed := some (gates9 0) }, gates9 0, by decide⟩,
    ⟨sEth [] fun x => { x with list := some (gates9 0) }, gates9 0, { ethReset with list := some (gates9 0) }, 1, by decide⟩,
    ⟨sEth [] fun x => { x with list := some (gates9 0), entry := 1 }, gates9 0,
      { ethReset with list := some (gates9 0), entry := 1 }, by decide⟩, by decide⟩

/-- Port 3 receives and sends, with LINK; ring 15 of each side enabled, its base at the start of packet memory. -/
def el : List (Nat × Word) :=
  [(Reg.CTRL (pgETH 3), 1), (Reg.ETH_CFG 3, 0x6E), (Reg.ETH_STAT 3, 1), (ringKey 3 true 15 0x08, 1), (ringKey 3 true 15 0, 0x6200_0000),
    (ringKey 3 false 15 0x08, 1), (ringKey 3 false 15 0, 0x6200_0000), (ringKey 3 false 15 0x14, 1)]

/-- Descriptor 0: a frame of 4 bytes at 0x6200_0100, first and last. -/
def desc : List Host.Cell := [(0x6200_0001, 1), (0x6200_0003, 0x62), (0x6200_0008, 60), (0x6200_000A, 3)]

/-- A frame that waits to be sent, one on the line, and one received. -/
def txF (l : Option Word) : EthTx := { ring := 15, descs := [(0, true)], bytes := [1, 2], launch := l, due := true, late := false, atHead := true, dead := 0 }
def rxF (n : Nat) : EthRx := { ring := 15, bytes := List.replicate n 7, flags := 0, stamp := 9 }

/-- `n` bytes of a frame to FF.. with EtherType `t`. -/
def frame (n : Nat) (t : List Byte) : List Byte :=
  List.replicate 6 0xFF ++ List.replicate 6 0 ++ t ++ List.replicate (n - 12 - t.length) 0

set_option maxRecDepth 20000 in
theorem witness_EthernetFramesMove :
    (∃ s : State, s.mem.wf = true ∧ (s.chip.en (pgETH 3) = false ∨ s.chip.ringEn 3 true 15 = false)) ∧
    (∀ b : Bool, ∃ (s : State) (a : Nat) (ctl : Word), s.mem.wf = true ∧ a = s.chip.descAddr 3 true 15 0 ∧
      ctl = s.mem.word (a + 8) ∧ s.chip.en (pgETH 3) = true ∧ s.chip.ringEn 3 true 15 = true ∧
      s.chip.idleReq (pgETH 3) = false ∧ (s.chip.ethSt 3).txq = [] ∧ (s.chip.ethSt 3).sending = none ∧
      s.chip.ringHead 3 true 15 = 0 ∧ 0 < s.chip.ringSize 3 true 15 ∧
      s.chip.ringTail 3 true 15 < s.chip.ringSize 3 true 15 ∧ s.chip.ringTail 3 true 15 ≠ 0 ∧ inPacket a 16 ∧
      (b = true → fld ctl 13 0 = 0) ∧
      (b = false → 0 < fld ctl 13 0 ∧ bit ctl 16 = true ∧ bit ctl 17 = true ∧ bit ctl 18 = false ∧
        fld ctl 13 0 + 4 ≤ s.chip.rdf (Reg.ETH_MAXLEN 3) 13 0 ∧ inPacket (numAt s.mem a 5) (fld ctl 13 0) ∧
        s.chip.ethLink 3 = true)) ∧
    (∃ (s : State) (f : EthTx), s.chip.lineIdle 3 = true ∧ s.chip.ethLink 3 = true ∧ (s.chip.ethSt 3).strm = [] ∧
      (∀ g ∈ (s.chip.ethSt 3).txq, g.dead = 0 ∧ g.launch = none) ∧ (s.chip.ethSt 3).head 15 = some f ∧
      s.chip.ringEligible 3 15 = true ∧
      ∀ j, j < 16 → s.chip.ringEligible 3 j = true → s.chip.ringTc 3 j < s.chip.ringTc 3 15 ∨
        (s.chip.ringTc 3 j = s.chip.ringTc 3 15 ∧
          (15 + 15 * (look 15 (s.chip.ethSt 3).rr (s.chip.ringTc 3 15) + 1)) % 16 ≤
            (j + 15 * (look 15 (s.chip.ethSt 3).rr (s.chip.ringTc 3 15) + 1)) % 16)) ∧
    (∃ (s : State) (f : EthTx) (h : Nat) (irq : Bool), s.mem.wf = true ∧ (s.chip.ethSt 3).sending = some f ∧ f.descs = [(h, irq)] ∧
      f.ring < 16 ∧ (s.chip.ethSt 3).txq = [] ∧ (s.chip.ethSt 3).waiting = [] ∧ inPacket (s.chip.descAddr 3 true f.ring h + 16) 8) ∧
    (∃ (s : State) (f : EthTx) (l : Word), (s.chip.ethSt 3).head 15 = some f ∧ f.launch = some l ∧ f.dead = 0 ∧
      s.chip.ethLink 3 = true ∧ s.chip.paused 3 (s.chip.ringTc 3 15) = false ∧
      s.chip.gatePermits 3 (s.chip.ringTc 3 15) f.len = true ∧ ∀ g, (s.chip.ethSt 3).sending = some g → g.launch = none) ∧
    (∀ b : Bool, ∃ (s : State) (f : EthTx) (l : Word) (h : Nat) (irq : Bool), s.mem.wf = true ∧ (s.chip.ethSt 3).head 15 = some f ∧
      f.launch = some l ∧ f.dead = 0 ∧ s.chip.ethLink 3 = true ∧ s.chip.paused 3 (s.chip.ringTc 3 15) = true ∧
      s.chip.rdb (Reg.ETH_TX_CFG 3 15) 20 = b ∧ (s.chip.ethSt 3).txq = [f] ∧ (s.chip.ethSt 3).sending = none ∧
      f.descs = [(h, irq)] ∧ inPacket (s.chip.descAddr 3 true 15 h + 16) 4) ∧
    (∃ s : State, s.chip.rdb Reg.ETH0_WAKE_CFG 0 = false ∧ (s.chip.en (pgETH 3) = false ∨ s.chip.rdb (Reg.ETH_CFG 3) 2 = false)) ∧
    (∃ (s : State) (f : List Byte), s.chip.pstate < 2 ∧ s.chip.en (pgETH 3) = true ∧ s.chip.rdb (Reg.ETH_CFG 3) 2 = true ∧
      f.length = 63) ∧
    (∃ (s : State) (f : List Byte), s.chip.pstate < 2 ∧ s.chip.en (pgETH 3) = true ∧ s.chip.rdb (Reg.ETH_CFG 3) 2 = true ∧
      64 ≤ f.length ∧ f.length ≤ s.chip.rdf (Reg.ETH_MAXLEN 3) 13 0 ∧ s.chip.rdb (Reg.ETH_CFG 3) 7 = false ∧
      (s.chip.ethSt 3).rxBytes + f.length ≤ 32768 ∧ beAt f 12 2 ≠ 0x8808 ∧ s.chip.ethAccepts 3 f = false) ∧
    (∃ (s : State) (f : List Byte), s.chip.pstate < 2 ∧ s.chip.en (pgETH 3) = true ∧ s.chip.rdb (Reg.ETH_CFG 3) 2 = true ∧
      64 ≤ f.length ∧ f.length ≤ s.chip.rdf (Reg.ETH_MAXLEN 3) 13 0 ∧ (s.chip.ethSt 3).rxBytes + f.length ≤ 32768 ∧
      beAt f 12 2 = 0x8808 ∧ beAt f 14 2 = 1 ∧ s.chip.rdb (Reg.ETH_CFG 3) 8 = true ∧ (s.chip.ethSt 3).sending = none ∧
      (s.chip.ethSt 3).strmOut = none) ∧
    (∀ b : Bool, ∃ (s : State) (f : List Byte), s.chip.pstate < 2 ∧ s.chip.en (pgETH 3) = true ∧
      s.chip.rdb (Reg.ETH_CFG 3) 2 = true ∧ 64 ≤ f.length ∧ f.length ≤ s.chip.rdf (Reg.ETH_MAXLEN 3) 13 0 ∧
      (s.chip.ethSt 3).rxBytes + f.length ≤ 32768 ∧ beAt f 12 2 ≠ 0x8808 ∧ s.chip.ethAccepts 3 f = true ∧
      s.chip.claimFrom 3 f 256 0 = none ∧ s.chip.ringEn 3 false (s.chip.rxRing 3 f) = b) ∧
    (∃ (s : State) (f : List Byte), s.chip.pstate = 0 ∧ s.chip.pwr.entry = none ∧ s.chip.en (pgETH 0) = false ∧
      s.chip.ethAccepts 0 f = true ∧ s.chip.wakeFound f ≠ 0) ∧
    (∃ s : State, (s.chip.ethSt 3).rxq = []) ∧
    (∃ (s : State) (f : EthRx) (t : List EthRx), (s.chip.ethSt 3).rxq = f :: t ∧ s.chip.idleReq (pgETH 3) = false ∧ f.ring < 16 ∧
      s.chip.ringHead 3 false f.ring < s.chip.ringSize 3 false f.ring ∧
      s.chip.ringTail 3 false f.ring < s.chip.ringSize 3 false f.ring ∧
      s.chip.ringTail 3 false f.ring = s.chip.ringHead 3 false f.ring) ∧
    (∃ (s : State) (f : EthRx) (t : List EthRx) (a : Nat), s.mem.wf = true ∧ (s.chip.ethSt 3).rxq = f :: t ∧
      s.chip.idleReq (pgETH 3) = false ∧ f.ring < 16 ∧ a = s.chip.descAddr 3 false f.ring (s.chip.ringHead 3 false f.ring) ∧
      s.chip.ringHead 3 false f.ring < s.chip.ringSize 3 false f.ring ∧
      s.chip.ringTail 3 false f.ring < s.chip.ringSize 3 false f.ring ∧ s.chip.ringActive 3 false f.ring = true ∧
      s.chip.ringTail 3 false f.ring ≠ s.chip.ringHead 3 false f.ring ∧ inPacket a 24 ∧
      f.bytes.length ≤ fld (s.mem.word (a + 8)) 13 0 ∧ inPacket (numAt s.mem a 5) f.bytes.length ∧
      apart (numAt s.mem a 5) f.bytes.length a 24) := by
  unfold inPacket apart
  exact ⟨⟨State.reset, by decide⟩, fun b => match b with
      | true => ⟨sEth (el ++ [(ringKey 3 true 15 0x0C, 1)]), 0x6200_0000, 0, by decide⟩
      | false => ⟨sEth (el ++ [(ringKey 3 true 15 0x0C, 3)]) id desc, 0x6200_0000, 0x3_003C, by decide⟩,
    ⟨sEth el fun x => { x with txq := [txF none] }, txF none, by decide⟩,
    ⟨sEth el fun x => { x with sending := some (txF none) }, txF none, 0, true, by decide⟩,
    ⟨sEth el fun x => { x with txq := [txF (some 5)] }, txF (some 5), 5, by decide⟩, fun b => match b with
      | true => ⟨sEth (el ++ [(Reg.ETH_STAT 3, 9), (Reg.ETH_TX_CFG 3 15, 0x10_0001)]) fun x => { x with txq := [txF (some 5)] },
          txF (some 5), 5, 0, true, by decide⟩
      | false => ⟨sEth (el ++ [(Reg.ETH_STAT 3, 9)]) fun x => { x with txq := [txF (some 5)] }, txF (some 5), 5, 0, true, by decide⟩,
    ⟨State.reset, by decide⟩, ⟨sEth el, frame 63 [8, 0], by decide⟩,
    ⟨sEth (el ++ [(Reg.ETH_CFG 3, 6)]), frame 64 [8, 0], by decide⟩,
    ⟨sEth (el ++ [(Reg.ETH_CFG 3, 0x106)]), frame 64 [0x88, 8, 0, 1], by decide⟩, fun b => match b with
      | true => ⟨sEth (el ++ [(Reg.ETH_RXDEF 3, 15)]), frame 64 [8, 0], by decide⟩
      | false => ⟨sEth el, frame 64 [8, 0], by decide⟩,
    ⟨sr [(Reg.ETH_CFG 0, 0x20), (Reg.ETH0_WAKE_CFG, 0xF1), (Reg.ETH0_WAKE_MASK_LO 3, 0x40)], frame 64 [8, 0], by decide⟩, ⟨State.reset, by decide⟩,
    ⟨sEth el fun x => { x with rxq := [rxF 4] }, rxF 4, [], by decide⟩,
    ⟨sEth (el ++ [(ringKey 3 false 15 0x0C, 3)]) (fun x => { x with rxq := [rxF 60] }) desc, rxF 60, [], 0x6200_0000, by decide⟩⟩

/-- The reset state with CB0 enabled, as given. -/
def sCb0 (cfg : Word) (f : Cb0St → Cb0St) : State :=
  (sr [(Reg.CTRL pgCB0, 1), (Reg.CB0_CFG, cfg)]).chipTo
    { (sr [(Reg.CTRL pgCB0, 1), (Reg.CB0_CFG, cfg)]).chip with cb0 := f cb0Reset }

set_option maxRecDepth 20000 in
theorem witness_ControlBusFramesAndManagement :
    (∃ s : State, s.chip.en pgCB0 = false ∨ s.chip.rdb Reg.CB0_CFG 1 = false) ∧
    (∃ (s : State) (f : List Byte), s.chip.en pgCB0 = true ∧ s.chip.rdb Reg.CB0_CFG 1 = true ∧ f.length = 63) ∧
    (∃ (s : State) (f : List Byte), s.chip.en pgCB0 = true ∧ s.chip.rdb Reg.CB0_CFG 1 = true ∧ 64 ≤ f.length ∧ f.length ≤ 1522 ∧
      s.chip.cb0Accepts f = true ∧ s.chip.cb0.rx.length + 2 + (f.length - 1) / 4 ≤ 512) ∧
    (∃ s : State, s.chip.cb0.rx = []) ∧ (∃ (s : State) (e : Word × Bool) (t : List (Word × Bool)), s.chip.cb0.rx = e :: t) ∧
    (∃ s : State, s.chip.cb0Halted = true) ∧
    (∃ s : State, s.chip.cb0Halted = false ∧ 512 ≤ s.chip.cb0.tx.length) ∧
    (∀ v ∈ [13, 1519], ∃ s : State, s.chip.cb0Halted = false ∧ s.chip.cb0.need = 0 ∧ (fld (word v) 10 0 < 14 ∨ 1518 < fld (word v) 10 0)) ∧
    (∀ v ∈ [14, 1518], ∃ s : State, s.chip.cb0Halted = false ∧ s.chip.cb0.tx.length < 512 ∧ s.chip.cb0.need = 0 ∧
      14 ≤ fld (word v) 10 0 ∧ fld (word v) 10 0 ≤ 1518) ∧
    (∃ s : State, s.chip.cb0Halted = false ∧ s.chip.cb0.tx.length < 512 ∧ 0 < s.chip.cb0.need) ∧
    (bit 2 0 = false ∧ bit 1 0 = true) ∧ (∃ s : State, s.chip.rdb Reg.CB0_MDIO_STAT 0 = true) ∧
    (∃ s : State, s.chip.rdb Reg.CB0_MDIO_STAT 0 = false) ∧
    (∃ (s : State) (f : List Byte), s.chip.en pgCB0 = true ∧ s.chip.rdb Reg.CB0_CFG 0 = true ∧ s.chip.idleReq pgCB0 = false ∧
      s.chip.cb0.onLine = false ∧ s.chip.cb0.backoff = none ∧ s.chip.cb0.frame = some f) ∧
    (∀ b : Bool, ∃ (s : State) (h : Word) (t : List Word), s.chip.en pgCB0 = true ∧ s.chip.rdb Reg.CB0_CFG 0 = true ∧
      s.chip.idleReq pgCB0 = false ∧ s.chip.cb0.onLine = false ∧ s.chip.cb0.backoff = none ∧ s.chip.cb0.frame = none ∧
      s.chip.cb0.tx = h :: t ∧ (b = decide (t.length < (fld h 10 0 + 3) / 4))) ∧
    (∀ n ∈ [15, 16], ∃ s : State, s.chip.cb0.onLine = true ∧ s.chip.cb0.tries = n) ∧
    (∃ (s : State) (n : Nat), s.chip.cb0.backoff = some n) ∧ (∃ s : State, s.chip.rdb Reg.CB0_STAT 0 = true) ∧
    (∃ s : State, s.chip.rdb Reg.CB0_STAT 0 = false) := by
  refine ⟨⟨State.reset, by decide⟩, ⟨sCb0 2 id, List.replicate 63 0, by decide⟩, ⟨sCb0 6 id, List.replicate 64 0, by decide⟩,
    ⟨State.reset, by decide⟩, ⟨sCb0 2 fun x => { x with rx := [(7, true)] }, (7, true), [], by decide⟩,
    ⟨sr [(Reg.CB0_STAT, 4)], by decide⟩, ⟨sCb0 1 fun x => { x with tx := List.replicate 512 0 }, by decide⟩,
    fun v h => ⟨State.reset, by revert v h; decide⟩, fun v h => ⟨State.reset, by revert v h; decide⟩,
    ⟨sCb0 1 fun x => { x with need := 1 }, by decide⟩, by decide, ⟨sr [(Reg.CB0_MDIO_STAT, 1)], by decide⟩,
    ⟨State.reset, by decide⟩, ⟨sCb0 1 fun x => { x with frame := some [] }, [], by decide⟩, fun b => ?_,
    fun n h => ⟨sCb0 1 fun x => { x with onLine := true, tries := n }, by revert n h; decide⟩,
    ⟨sCb0 1 fun x => { x with backoff := some 1023 }, 1023, by decide⟩, ⟨sr [(Reg.CB0_STAT, 1)], by decide⟩,
    ⟨State.reset, by decide⟩⟩
  exact match b with
    | true => ⟨sCb0 1 fun x => { x with tx := [14, 0, 0, 0] }, 14, [0, 0, 0], by decide⟩
    | false => ⟨sCb0 1 fun x => { x with tx := [14, 0, 0, 0, 0] }, 14, [0, 0, 0, 0], by decide⟩

/-- Registers of the streams, and a stream's state beside them. -/
def sStrm (l : List (Nat × Word)) (f : StrmSt → StrmSt) (m : List Host.Cell := []) : State :=
  { State.reset with dev := { mem := { memReset with cells := m }, chip := { (sr l).chip with strm := f strmReset } } }

/-- An IPv4 packet on port 0 for stream 0 at sequence `q`: 12 bytes of one channel's six samples. -/
def rtp (q : Byte) : List Byte :=
  List.replicate 12 0 ++ [8, 0, 0x45] ++ List.replicate 8 0 ++ [17] ++ List.replicate 10 0 ++ [0, 0, 0, 0, 0, 32, 0, 0] ++
    [0x80, 0, 0, q] ++ List.replicate 24 0

/-- Stream 0 receives on plane A, its last sequence number 5 and 4 seen before it. -/
def rx5 (x : StrmSt) : StrmSt :=
  { x with regs := [(0x100, 0x11)], rx := [(0, { strmRxReset with hseq := some 5, seen := [5, 4] })] }

theorem witness_StreamsEnableSendAndMerge :
    (∃ (s : State) (v w : Word), w = v &&& 0x7F3F_7FFF ∧ s.chip.sb 0 (strmCfg false) 0 = true ∧ bit v 0 = true ∧
      s.chip.srd 0 (strmCfg false) = w) ∧
    (∃ (s : State) (v w : Word), w = v &&& 0x7F3F_7FFF ∧ s.chip.sb 0 (strmCfg false) 0 = true ∧ bit v 0 = true ∧
      s.chip.srd 0 (strmCfg false) ≠ w) ∧
    (∃ (s : State) (v : Word), s.chip.sb 0 (strmCfg false) 0 = true ∧ bit v 0 = false) ∧
    (∃ (s : State) (v : Word), s.chip.sb 0 (strmCfg false) 0 = false ∧ bit v 0 = false) ∧
    (∃ (s : State) (v : Word), s.chip.sb 0 (strmCfg false) 0 = false ∧ bit v 0 = true ∧
      2048 < s.chip.strmBase false 0 + (fld v 21 16 + 1)) ∧
    (∃ (s : State) (v : Word), s.chip.sb 0 (strmCfg false) 0 = false ∧ bit v 0 = true ∧ bit v 4 = false ∧ bit v 5 = false) ∧
    (∃ (s : State) (v : Word), s.chip.sb 0 (strmCfg false) 0 = false ∧ bit v 0 = true ∧
      s.chip.strmBase false 0 + (fld v 21 16 + 1) ≤ 2048 ∧ bit v 4 = true ∧
      s.chip.strmBufAt 0 + (fld v 21 16 + 1) * 2 ^ (fld v 14 12 + 6) * 4 ≤ 0x6240_0000) ∧
    (∃ (s : State) (v : Word) (rate : Nat), rate = s.chip.rdf Reg.TICK_CFG 2 0 ∧ s.chip.sb 0 (strmCfg true) 0 = false ∧
      bit v 0 = true ∧ s.chip.strmBase true 0 + (fld v 21 16 + 1) ≤ 2048 ∧ bit v 4 = true ∧
      ∀ b, bit v (4 + b2n b) = true →
        s.chip.tmplLen 0 b + (fld v 21 16 + 1) * (if bit v 3 then 3 else 2) * sppOf (fld v 2 1) rate ≤ 1514 ∧
          (tmplUdp (s.dev.template 0 b)).isSome = true) ∧
    (∃ s : State, (s.chip.strmTx 255).ready = []) ∧
    (∃ (s : State) (e : BitVec 64) (ws : List Word), (s.chip.strmTx 255).ready = [(e, ws)]) ∧
    (∃ s : State, s.chip.sb 255 0x138 2 = false) ∧ (∃ s : State, s.chip.sb 255 0x138 2 = true) ∧
    (∀ n ∈ [6, 4, 3, 0x99], ∃ (s : State) (f g l : List Byte) (u : Nat) (q : BitVec 16),
      (s.chip.strmRx 0).hseq = some 5 ∧ g = f.take (f.length - 4) ∧ udpAt g = some u ∧ q = BitVec.ofNat 16 (beAt g (u + 10) 2) ∧
      q = BitVec.ofNat 16 n ∧ s.chip.rtpPayload 0 g u = some l ∧ s.chip.rdb Reg.ETH0_WAKE_CFG 0 = false ∧ s.chip.pstate < 2 ∧
      s.chip.en (pgETH 0) = true ∧ s.chip.rdb (Reg.ETH_CFG 0) 2 = true ∧ 64 ≤ f.length ∧
      f.length ≤ s.chip.rdf (Reg.ETH_MAXLEN 0) 13 0 ∧ (s.chip.ethSt 0).rxBytes + f.length ≤ 32768 ∧ beAt f 12 2 ≠ 0x8808 ∧
      s.chip.ethAccepts 0 f = true ∧ s.chip.claimFrom 0 f 256 0 = some (0, false) ∧ s.chip.freeze pgSTRM = false) :=
  ⟨⟨sStrm [] fun x => { x with regs := [(0x100, 0x11)] }, 0x11, 0x11, by decide⟩,
    ⟨sStrm [] fun x => { x with regs := [(0x100, 0x11)] }, 0x13, 0x13, by decide⟩,
    ⟨sStrm [] fun x => { x with regs := [(0x100, 0x11)] }, 0, by decide⟩, ⟨State.reset, 0, by decide⟩,
    ⟨sStrm [] fun x => { x with regs := [(0x104, 0x7C1)] }, 0x3F_0011, by decide⟩, ⟨State.reset, 1, by decide⟩,
    ⟨sStrm [] fun x => { x with regs := [(0x104, 0x7C0)] }, 0x3F_0011, by decide⟩,
    ⟨sStrm [] (fun x => { x with regs := [(0x088, 0x3600_0000)] }) ((0x6200_000C, 8) :: (0x6200_000E, 0x45) :: [(0x6200_0017, 17)]), 0x11,
      State.reset.chip.rdf Reg.TICK_CFG 2 0, by decide⟩,
    ⟨State.reset, by decide⟩, ⟨sStrm [] fun x => { x with tx := [(255, { strmTxReset with ready := [(7, [])] })] }, 7, [], by decide⟩,
    ⟨State.reset, by decide⟩, ⟨sStrm [] fun x => { x with regs := [(0xF_F138, 4)] }, by decide⟩,
    fun n h => ⟨sStrm [(Reg.CTRL pgSTRM, 1), (Reg.CTRL (pgETH 0), 1), (Reg.ETH_CFG 0, 0x6E)] rx5, rtp (BitVec.ofNat 8 n),
      (rtp (BitVec.ofNat 8 n)).take 66, List.replicate 12 0, 34, BitVec.ofNat 16 n, by revert n h; decide⟩⟩

/-! Witnesses: Stem links, speaker channels and Foxglove. -/

/-- Stem link 3 on with lane 7 LOCKED, the Tick Unit on, these registers and the link's state. -/
def sStem (l : List (Nat × Word)) (f : StemSt → StemSt) : State :=
  (srOn ([(Reg.CTRL (pgSTM 3), 1), (Reg.LANE_STAT 7, 5)] ++ l)).chipTo
    { (srOn ([(Reg.CTRL (pgSTM 3), 1), (Reg.LANE_STAT 7, 5)] ++ l)).chip with stem := [(3, f stemReset)] }

/-- A frame without channels at tick 5, of rate code `r`, with the check word `crc`, broken or not. -/
def stemF (r : Nat) (crc : Word) (broken : Bool) : StemFrame :=
  { header := BitVec.ofNat 56 (r * 2 ^ 45 + 5), control := List.replicate 16 0, payload := [], crc := crc, blocks := 0
    broken := broken, start := 0 }

set_option maxRecDepth 20000 in
theorem witness_StemLinksSendAndReceiveFrames :
    (∃ s : State, s.chip.en (pgSTM 3) = true) ∧
    (∃ (s : State) (o : Nat), s.chip.en (pgSTM 3) = false ∧ s.chip.stemBad 3 = some o) ∧
    (∃ s : State, s.chip.en (pgSTM 3) = false ∧ s.chip.stemBad 3 = none ∧ s.chip.stemLink 3 = 0) ∧
    (∃ s : State, (s.chip.stemSt 3).full = []) ∧
    (∃ (s : State) (x : StemSt) (t : Word) (ws : List Word) (r : List (Word × List Word)), x = s.chip.stemSt 3 ∧
      x.full = (t, ws) :: r ∧ s.chip.idleReq (pgSTM 3) = false ∧ s.chip.en (pgSTM 3) = true ∧ s.chip.stemCfg 3 1 = true ∧
      s.chip.tickRuns = true ∧ s.chip.stemMismatch 3 = false ∧ x.rate < 8 ∧ x.nlog < 8) ∧
    (∀ b : Bool, ∃ s : State, s.chip.autoIdle 7 = true ∧ (s.chip.lane 7).fast = b) ∧
    (∀ k ∈ [7, 8], ∃ s : State, (s.chip.stemSt 3).ctx.length = k) ∧ bit (1 : Word) 0 = true ∧
    (∃ s : State, (s.chip.stemSt 3).crx = []) ∧
    (∃ (s : State) (a0 a1 a2 a3 t : Word) (r : List (List Word × Word)),
      (s.chip.stemSt 3).crx = ([a0, a1, a2, a3], t) :: r ∧ r.length < 8) ∧
    (∀ k ∈ [1, 2], ∃ s : State, s.chip.stemLink 3 = k) ∧
    (∃ s : State, s.chip.en (pgSTM 3) = true ∧ s.chip.stemCfg 3 2 = true ∧ s.chip.stemLaneUp 3 = false) ∧
    (∃ (s : State) (f : StemFrame), s.chip.en (pgSTM 3) = true ∧ s.chip.stemCfg 3 2 = true ∧ s.chip.stemLaneUp 3 = true ∧
      stemFWhole f = false) ∧
    (∃ (s : State) (f : StemFrame), s.chip.en (pgSTM 3) = true ∧ s.chip.stemCfg 3 2 = true ∧ s.chip.stemLaneUp 3 = true ∧
      stemFWhole f = true ∧ stemCrc f.header f.control f.payload ≠ f.crc) ∧
    (∃ (s : State) (f : StemFrame), s.chip.en (pgSTM 3) = true ∧ s.chip.stemCfg 3 2 = true ∧ s.chip.stemLaneUp 3 = true ∧
      stemFWhole f = true ∧ stemCrc f.header f.control f.payload = f.crc ∧ stemFFld f 47 45 ≠ (s.chip.stemSt 3).rate) ∧
    (∃ (s : State) (x : StemSt) (f : StemFrame), x = s.chip.stemSt 3 ∧ s.chip.en (pgSTM 3) = true ∧ s.chip.stemCfg 3 2 = true ∧
      s.chip.stemLaneUp 3 = true ∧
      stemFWhole f = true ∧ stemCrc f.header f.control f.payload = f.crc ∧ stemFFld f 47 45 = x.rate ∧
      stemFFld f 44 42 = x.nlog ∧ stemFFld f 51 51 = 0 ∧ stemFFld f 50 50 = 0 ∧ s.chip.stemLink 3 = 2 ∧ x.ofs = none ∧
      (∀ u, x.last = some u → before u (stemFTick f) = true) ∧
      (∀ u, x.gapFrom = some u → stemFTick f = u + 1) ∧ s.mem.wf = true) :=
  ⟨⟨sStem [] id, by decide⟩, ⟨sr [(Reg.STM_CFG 3, 0)], 0x040, by decide⟩,
    ⟨State.reset, by decide⟩, ⟨State.reset, by decide⟩,
    ⟨sStem [(Reg.STM_CFG 3, 2), (Reg.TICK_CFG, 0), (Reg.TICK_PHASE, 1)] fun x => { x with full := [(5, [7])] }, { stemReset with full := [(5, [7])] }, 5, [7], [],
      by decide⟩,
    fun b => ⟨(sStem [(Reg.STM_CFG 3, 0x10)] id).chipTo
      { (sStem [(Reg.STM_CFG 3, 0x10)] id).chip with lanes := [(7, { laneReset with fast := b })] }, by revert b; decide⟩,
    fun k h => ⟨sStem [] fun x => { x with ctx := List.replicate k [0, 0, 0, 0] }, by revert k h; decide⟩, by decide,
    ⟨State.reset, by decide⟩, ⟨sStem [] fun x => { x with crx := [([1, 2, 3, 4], 5)] }, 1, 2, 3, 4, 5, [], by decide⟩,
    fun k h => ⟨sStem [(Reg.STM_STAT 3, word k)] id, by revert k h; decide⟩,
    ⟨sStem [(Reg.STM_CFG 3, 4), (Reg.LANE_STAT 7, 2)] id, by decide⟩,
    ⟨sStem [(Reg.STM_CFG 3, 4)] id, stemF 0 0 true, by decide⟩, ⟨sStem [(Reg.STM_CFG 3, 4)] id, stemF 0 0 false, by decide⟩,
    ⟨sStem [(Reg.STM_CFG 3, 4)] id, stemF 1 (stemCrc (stemF 1 0 false).header (List.replicate 16 0) []) false, by decide⟩,
    ⟨sStem [(Reg.STM_CFG 3, 4), (Reg.STM_STAT 3, 2)] fun x => { x with last := some 4, gapFrom := some 4 },
      { stemReset with last := some 4, gapFrom := some 4 },
      stemF 0 (stemCrc (stemF 0 0 false).header (List.replicate 16 0) []) false, by decide, by decide, by decide, by decide, by decide,
      by decide, by decide, by decide, by decide, by decide, by decide, by decide,
      fun u h => by cases Option.some.inj h; decide, fun u h => by cases Option.some.inj h; decide, by decide⟩⟩

/-- Speaker channel 15 in state `k` with a valid configuration and its pin path released, these registers and its state. -/
def sSpk (k : Nat) (l : List (Nat × Word)) (f : SpkSt → SpkSt := id) : State :=
  (sr ([(Reg.SPK_STAT 15, word k), (Reg.SPK_CFG 15, 1200), (Reg.SPK_MOD 15, 1), (Reg.SPK_SENSE 15, 0x1_0001),
      (Reg.SPK_LOOP 15, 1), (Reg.FG_STATE, 1)] ++ l)).chipTo
    { (sr ([(Reg.SPK_STAT 15, word k), (Reg.SPK_CFG 15, 1200), (Reg.SPK_MOD 15, 1), (Reg.SPK_SENSE 15, 0x1_0001),
      (Reg.SPK_LOOP 15, 1), (Reg.FG_STATE, 1)] ++ l)).chip with spk := [(15, f spkReset)], fg := { fgReset with soft := false } }

set_option maxRecDepth 20000 in
theorem witness_SpeakerChannelsChangeState :
    (∀ k, k < 8 → ∃ s : State, s.chip.spkState 15 = k) ∧
    (∃ s : State, s.chip.spkState 15 = 1 ∧ s.chip.spkHeld 15 = true) ∧
    (∀ play : Bool, ∃ (s : State) (k : Nat), s.chip.spkState 15 = 1 ∧ s.chip.spkHeld 15 = false ∧ s.chip.spkInvalid 15 play = some k) ∧
    (∀ play : Bool, ∃ s : State, s.chip.spkState 15 = 1 ∧ s.chip.spkHeld 15 = false ∧ s.chip.spkInvalid 15 play = none ∧
      s.chip.spkFreq 15 = none) ∧
    (∀ play avoid : Bool, ∃ (s : State) (f : Nat), s.chip.spkState 15 = 1 ∧ s.chip.spkHeld 15 = false ∧ s.chip.spkInvalid 15 play = none ∧
      s.chip.spkFreq 15 = some f ∧ s.chip.rdb (Reg.SPK_CFG 15) 16 = avoid) ∧
    (∃ s : State, s.chip.spkState 15 = 7 ∧ s.chip.spkHeld 15 = false ∧ s.chip.spkInvalid 15 false = none) ∧
    (∀ b : Bool, ∃ (s : State) (x : SpkSt), x = s.chip.spkSt 15 ∧ s.chip.spkState 15 = 3 ∧ x.switch = b) ∧
    (∃ s : State, s.chip.spkState 15 = 6 ∧ s.chip.spkRetries 15 < 3) ∧
    (∀ k ∈ [62, 63], ∀ cl ∈ [0, 1], ∃ (s : State) (x : SpkSt) (v i : BitVec 32), x = s.chip.spkSt 15 ∧
      playingState (s.chip.spkState 15) = true ∧ x.switch = true ∧ x.low = k ∧ x.clean = cl ∧
      s.chip.rdf (Reg.SPK_ILIM 15) 15 0 * 10 < i.toInt.natAbs ∧ s.chip.rdf (Reg.SPK_ILIM 15) 15 0 ≠ 0 ∧
      10 * v.toInt.natAbs < s.chip.rdf (Reg.SPK_DIAG_LIM 15) 7 0 * i.toInt.natAbs) ∧
    (∀ bk ∈ [1, 7], ∃ (s : State) (f : DiagFinding), s.chip.spkState 15 = 2 ∧ (s.chip.spkSt 15).back = bk ∧ (s.chip.spkSt 15).phase < 4 ∧
      s.chip.diagFinding 15 f = none) ∧
    (∃ (s : State) (f : DiagFinding), s.chip.spkState 15 = 2 ∧ (s.chip.spkSt 15).back = 1 ∧ (s.chip.spkSt 15).phase = 4 ∧
      s.chip.diagFinding 15 f = none) ∧
    (∀ d : Bool, ∃ (s : State) (f : DiagFinding) (code : Nat), s.chip.spkState 15 = 2 ∧ (s.chip.spkSt 15).back = 1 ∧
      s.chip.diagFinding 15 f = some (code, some d)) :=
  ⟨fun k h => ⟨sSpk k [], by revert k h; decide⟩, ⟨sSpk 1 [(Reg.FG_STATE, 3)], by decide⟩,
    fun p => ⟨sSpk 1 [(Reg.SPK_CFG 15, 1201)], Reg.SPK_CFG 15, by revert p; decide⟩,
    fun p => ⟨sSpk 1 [(Reg.SPK_CFG 15, 0x1_0000 + 600), (Reg.SPKC_SA_EN, 1), (Reg.SPKC_SA_F 0, 600), (Reg.SPKC_SA_CFG, 1)], by revert p; decide⟩,
    fun p a => ⟨sSpk 1 [(Reg.SPK_CFG 15, (if a then 0x1_0000 else 0) + 600)], 600, by revert p a; decide⟩,
    ⟨sSpk 7 [], by decide⟩, fun b => ⟨sSpk 3 [] fun x => { x with switch := b }, { spkReset with switch := b }, by revert b; decide⟩,
    ⟨sSpk 6 [], by decide⟩,
    fun k h cl g => ⟨sSpk 4 [(Reg.SPK_ILIM 15, 1), (Reg.SPK_DIAG_LIM 15, 255)] fun x => { x with switch := true, low := k, clean := cl },
      { spkReset with switch := true, low := k, clean := cl }, 0, 500, by revert cl g; revert k h; decide⟩,
    fun b h => ⟨sSpk 2 [] fun x => { x with back := b, phase := 3 }, ⟨false, false, false, false, 800⟩, by revert b h; decide⟩,
    ⟨sSpk 2 [(Reg.SPK_DIAG_LIM 15, 0xFFFF_0001)] fun x => { x with phase := 4 }, ⟨false, false, false, false, 800⟩, by decide⟩,
    fun d => ⟨sSpk 2 [] fun x => { x with phase := b2n d }, ⟨true, false, false, false, 800⟩, 2, by revert d; decide⟩⟩

/-- Foxglove in state `k` with these registers and its state beside them. -/
def sFg (k : Nat) (l : List (Nat × Word)) (f : FgSt → FgSt := id) : State :=
  (sr ((Reg.FG_STATE, word k) :: l)).chipTo { (sr ((Reg.FG_STATE, word k) :: l)).chip with fg := f fgReset }

set_option maxRecDepth 20000 in
theorem witness_FoxgloveStatesFollowCausesAndCommands :
    fld (0xF0C5_001F : Word) 31 16 = 0xF0C5 ∧ (∀ b, b < 5 → bit (0xF0C5_001F : Word) b = true ∧ bit (0xF0C5_0000 : Word) b = false) ∧
    (∀ k, k < 4 → ∃ s : State, s.chip.fgState = k) ∧ (∃ s : State, s.chip.fgState = 0 ∧ s.chip.sealed = false) ∧
    (∀ b : Bool, ∃ s : State, s.chip.fgState = 0 ∧ s.chip.sealed = true ∧ s.chip.rdb Reg.GUARD_STAT 1 = b) ∧
    (∀ b : Bool, ∃ s : State, s.chip.windowOpen = true ∧ s.chip.ledger.ok = true ∧ s.chip.freeze pgFG = false ∧ s.chip.fg.fedAny = true ∧
      s.chip.fg.fed = b ∧ 2000 ≤ min 2000 (max 20 (s.chip.rdf Reg.FG_WDOG 10 0)) ∧
      min 2000 (max 20 (s.chip.rdf Reg.FG_WDOG 10 0)) < 2001) ∧
    (∀ b : Bool, ∃ s : State, s.chip.fgCause 0 = b ∧ s.chip.freeze pgFG = false) ∧
    (∃ s : State, s.chip.fg.fqiAt ≠ none ∨ s.chip.mgldRole ≠ 1 ∨ s.chip.fg.takeAt = none) ∧
    (∀ b : Bool, ∃ s : State, s.chip.paired = true ∧ s.chip.roleActive = b) ∧
    (∃ s : State, s.chip.rdb Reg.GUARD_STAT 1 = true ∧ s.chip.fg.copyA ≠ s.chip.sealedWords) ∧
    (∃ s : State, s.chip.rdb Reg.GUARD_STAT 1 = false) ∧
    (∃ s : State, s.chip.fgState = 3 ∨ s.chip.fuseDone = true ∧ s.chip.resetMap 4 = 0) :=
  ⟨by decide, by decide, fun k h => ⟨sFg k [], by revert k h; decide⟩, ⟨sFg 0 [], by decide⟩,
    fun b => ⟨sFg 0 [(Reg.GUARD_STAT, if b then 3 else 1)], by revert b; decide⟩,
    fun b => ⟨(sFg 1 [(Reg.TICK_PHASE, 2), (Reg.FG_WDOG, 2047)] fun x => { x with fed := b, fedAny := true }).chipTo
      (let c := (sFg 1 [(Reg.TICK_PHASE, 2), (Reg.FG_WDOG, 2047)] fun x => { x with fed := b, fedAny := true }).chip
       { c with ledger := { c.ledger with ok := true } }), by revert b; decide⟩,
    fun b => ⟨sFg 1 [(Reg.FG_QCAUSE, if b then 1 else 0)], by revert b; decide⟩, ⟨State.reset, by decide⟩,
    fun b => ⟨sFg 1 [(Reg.FG_CFG, 0x1_0000), (Reg.MGLD_ROLE, if b then 1 else 2)], by revert b; decide⟩,
    ⟨sFg 1 [(Reg.GUARD_STAT, 3)], by decide⟩, ⟨State.reset, by decide⟩, ⟨sFg 3 [], by decide⟩⟩

set_option maxRecDepth 20000 in
theorem witness_GuardsSealTripAndClear :
    fld (0x5EA1_0001 : Word) 31 16 = 0x5EA1 ∧ bit (0x5EA1_0001 : Word) 0 = true ∧
    (∀ b : Bool, ∃ s : State, s.chip.sealed = b) ∧ (∀ b : Bool, ∃ s : State, s.chip.rdb Reg.GUARD_STAT 2 = b) ∧
    (∃ (s : State) (x : GuardSt), x = s.chip.guard 535 ∧ x.win = none) ∧
    (∀ b : Bool, ∃ (s : State) (x : GuardSt) (sum : Int) (n : Nat), x = s.chip.guard 535 ∧ x.win = some (sum, n) ∧
      decide (s.chip.dcThr 535 * 2 ^ 19 * n < sum.natAbs) = b ∧ s.chip.rdf (Reg.GUARD_G 535) 26 24 = x.dcRun) ∧
    (∃ s : State, s.chip.fgBoth = true ∨ s.chip.tripped 535 = true) ∧
    (∀ k, k < 2 → ∃ (s : State) (mean : BitVec 32), s.chip.fgBoth = false ∧ s.chip.tripped 535 = false ∧
      s.chip.dcThr 535 * 2 ^ 19 < mean.toInt.natAbs ∧ (s.chip.guard 535).duty = k) ∧
    (∃ s : State, s.chip.fgSoft = true) ∧ (∀ b : Bool, ∃ s : State, s.chip.softTrip 535 = b) ∧
    (∃ s : State, 535 / 32 = 16 ∧ bit (0x0080_0000 : Word) (535 % 32) = true ∧ s.chip.tripped 535 = true ∧ s.chip.lockedOut 535 = false) ∧
    (∃ s : State, s.chip.lockedOut 535 = true) :=
  ⟨by decide, by decide, fun b => ⟨sr [(Reg.GUARD_STAT, if b then 1 else 0)], by revert b; decide⟩,
    fun b => ⟨sr [(Reg.GUARD_STAT, if b then 4 else 0)], by revert b; decide⟩, ⟨State.reset, guardReset, by decide⟩,
    fun b => ⟨sFg 1 [(Reg.GUARD_G 535, 0x0001_0000)] fun x => { x with guards := [(535, { guardReset with win := some (if b then 524289 else 524288, 1) })] },
      { guardReset with win := some (if b then 524289 else 524288, 1) }, if b then 524289 else 524288, 1, by revert b; decide⟩,
    ⟨State.reset, by decide⟩,
    fun k h => ⟨sFg 1 [(Reg.GUARD_G 535, 0x0001_0000)] fun x => { x with guards := [(535, { guardReset with duty := k })] }, 524289,
      by revert k h; decide⟩,
    ⟨sFg 2 [(Reg.FG_QCAUSE, 0x10)], by decide⟩,
    fun b => ⟨sFg 1 [(Reg.GUARD_TRIP 16, if b then 0x0080_0000 else 0)] fun x => { x with cause := [(535, 2)] }, by revert b; decide⟩,
    ⟨sFg 1 [(Reg.GUARD_TRIP 16, 0x0080_0000)], by decide⟩, ⟨sFg 1 [(Reg.GUARD_LOCK 16, 0x0080_0000)], by decide⟩⟩

/-! Witnesses: Marigold and the DRAM controllers. -/

/-- Marigold on in the role `r`, the Tick Unit running, with these registers, its state and memory. -/
def sMg (r : Nat) (l : List (Nat × Word)) (f : MgldSt → MgldSt := id) (m : List Host.Cell := []) : State :=
  { State.reset with dev := { mem := { memReset with cells := m }, chip :=
      { (srOn ([(Reg.CTRL pgMGLD, 1), (Reg.MGLD_ROLE, word r), (Reg.TICK_PHASE, 1)] ++ l)).chip with mgld := f mgldReset } } }

/-- A record of tick `t` with 8 bytes that say that it is empty. -/
def recOf (t : Word) (e : Nat) : MirrorRecord :=
  { tick := t, epoch := BitVec.ofNat 16 e, flags := 2, data := List.replicate 8 0, crc := crc32 (List.replicate 8 0), blocks := 1 }

/-- Pair 0 takes its words from queue 1023, which holds one. -/
def sPair (f : MgldSt → MgldSt) : State :=
  (sMg 1 [(Reg.MGLD_CFG, 1), (Reg.MGLD_PAIR 0, 0x3FF), (Reg.CTRL pgQF, 1)] f).chipTo
    (let c := (sMg 1 [(Reg.MGLD_CFG, 1), (Reg.MGLD_PAIR 0, 0x3FF), (Reg.CTRL pgQF, 1)] f).chip
     { c with qf := { qs := [(1023, { qOf 1 8 with push := 1, vis := 1, commit := 1 })] } })

set_option maxRecDepth 20000 in
theorem witness_MarigoldRolesAndRecords :
    (∃ s : State, s.chip.en pgMGLD = true) ∧
    (∃ (s : State) (r : Nat), s.chip.en pgMGLD = false ∧ r = s.chip.rdf (Reg.LANE_CFG 8) 0 0 ∧
      r = s.chip.rdf (Reg.LANE_CFG 9) 0 0 ∧ s.chip.rdf (Reg.LANE_CFG 8) 2 1 = 3 ∧
      s.chip.rdf (Reg.LANE_CFG 9) 2 1 = 3 ∧ s.chip.recordFits r 2 = true ∧ s.chip.windowsOk = true) ∧
    (∃ s : State, s.chip.en pgMGLD = false ∧ s.chip.rdf (Reg.LANE_CFG 8) 2 1 ≠ 3) ∧
    (∀ b, b < 3 → fld (0x6D67_0007 : Word) 31 16 = 0x6D67 ∧ bit (0x6D67_0007 : Word) b = true ∧ bit (0x6D67_0000 : Word) b = false) ∧
    (∀ r, r < 5 → ∃ s : State, s.chip.mgldRole = r ∧ s.chip.en pgMGLD = true) ∧
    (∃ s : State, s.chip.mgldRole = 1 ∧ s.chip.fg.fqiAt = none ∧ s.chip.fg.takeAt = some 10000 ∧ s.chip.now64 < 20000) ∧
    (∃ (s : State) (t : Nat), s.chip.mgldRole = 1 ∧ s.chip.fg.fqiAt = none ∧ s.chip.fg.takeAt = some t ∧ 10000 ≤ s.chip.now64 - t) ∧
    (∀ owe ∈ [0, 1], ∀ skip ∈ [0, 1], ∃ (s : State) (w : Word) (d1 : Dev), s.dev.pop (s.chip.pairIn 0) 8 0 = (.served, w, d1) ∧
      (0 : Nat) < s.chip.npair ∧ s.chip.en pgMGLD = true ∧ s.chip.mgldRole = 1 ∧ look 0 s.chip.mgld.owe 0 = owe ∧
      look 0 s.chip.mgld.skip 0 = skip) ∧
    (∃ s : State, s.chip.npair ≤ 31) ∧ (∃ s : State, s.chip.en pgMGLD = false) ∧
    (∃ s : State, s.chip.en pgMGLD = true ∧ s.chip.tickRuns = true ∧ s.chip.mgldRole ≠ 1 ∧ s.chip.mgld.state = none) ∧
    (∃ (s : State) (n a p : Nat), s.chip.en pgMGLD = true ∧ s.chip.tickRuns = true ∧ s.chip.nwin = 1 ∧ n = s.chip.winBytes 0 ∧
      a = s.chip.winBase 0 ∧ banksOn s.chip ∧ 0 < n ∧ n ≤ 1024 ∧ inBanks a n ∧ inBanks p n ∧ s.mem.wf = true ∧
      s.chip.mgldRole = 1 ∧ s.chip.mgld.state = none ∧ p = s.chip.bufPiece (1 - s.chip.mgld.stream) 0) ∧
    (∃ (s : State) (n a p : Nat), s.chip.en pgMGLD = true ∧ s.chip.tickRuns = true ∧ s.chip.nwin = 1 ∧ n = s.chip.winBytes 0 ∧
      a = s.chip.winBase 0 ∧ banksOn s.chip ∧ 0 < n ∧ n ≤ 1024 ∧ inBanks a n ∧ inBanks p n ∧ s.mem.wf = true ∧
      s.chip.mgldRole ≠ 1 ∧ s.chip.mgld.state = some n ∧ s.chip.ledger.ok = true ∧ p = s.chip.bufPiece 2 0) ∧
    (∃ s : State, s.chip.mgld.recTick = none) ∧
    (∃ (s : State) (t : BitVec 48) (one : Bool), s.chip.mgld.recTick = some t ∧ s.chip.en pgMGLD = true ∧ s.chip.tickRuns = true ∧
      s.chip.mgldRole = 1 ∧ banksOn s.chip ∧ one = !s.chip.bothLanes s.chip.mgld.peer.toNat ∧ one = true ∧
      s.chip.rdb Reg.MGLD_ROLE 11 = false ∧ s.chip.mgld.hand = false) ∧
    (∃ (s : State) (r : MirrorRecord), s.chip.en pgMGLD = true ∧ s.chip.mgldReceives = true ∧ r.crc ≠ crc32 r.data) ∧
    (∃ (s : State) (r : MirrorRecord) (now : Word), now = s.chip.tick.count.setWidth 32 ∧ recordSound r s.chip ∧ s.chip.tickRuns = true ∧
      before r.tick now = true) ∧
    (∃ (s : State) (r : MirrorRecord) (now : Word), now = s.chip.tick.count.setWidth 32 ∧ recordSound r s.chip ∧ s.chip.tickRuns = true ∧
      before r.tick now = false ∧ r.tick ≠ now) ∧
    (∃ (s : State) (r : MirrorRecord) (now : Word) (ws : List Word) (js : List (Word × Word)) (st : List Byte) (d1 : Dev),
      now = s.chip.tick.count.setWidth 32 ∧ recordSound r s.chip ∧ s.chip.tickRuns = true ∧
      r.tick = now ∧ before r.tick now = false ∧ s.chip.windowOpen = false ∧ s.chip.mgld.applied = false ∧
      recordParts r.data = (ws, js, st) ∧ d1 = js.foldl Dev.replay (s.dev.recordPush ws)) :=
  ⟨⟨sMg 1 [], by decide⟩,
    ⟨srOn [(Reg.LANE_CFG 8, 7), (Reg.LANE_CFG 9, 7)], 1, by decide⟩, ⟨sr [(Reg.LANE_CFG 8, 3)], by decide⟩, by decide,
    fun r h => ⟨sMg r [], by revert r h; decide⟩,
    ⟨(sMg 1 []).chipTo { (sMg 1 []).chip with fg := { fgReset with takeAt := some 10000 } }, by decide⟩,
    ⟨(sMg 1 []).chipTo { (sMg 1 []).chip with tb := { (sMg 1 []).chip.tb with epoch := 1 }, fg := { fgReset with takeAt := some 0 } }, 0, by decide⟩,
    fun o ho k hk => ⟨sPair fun x => { x with owe := [(0, o)], skip := [(0, k)] }, 0, _, Prod.ext (by revert k hk; revert o ho; decide) (Prod.ext (by revert k hk; revert o ho; decide) rfl),
      by revert k hk; revert o ho; decide⟩,
    ⟨State.reset, by decide⟩, ⟨State.reset, by decide⟩, ⟨sMg 3 [], by decide⟩,
    ⟨sMg 1 [(Reg.MGLD_CFG, 0x100), (Reg.MGLD_WIN_BASE 0, 0x2000_0000), (Reg.MGLD_WIN_SIZE 0, 32), (Reg.MGLD_BUF_BANKS_HI 1, 0x8000_0000)],
      1024, 0x2000_0000, 0x21F8_0000, by unfold banksOn inBanks; decide⟩,
    ⟨(sMg 2 [(Reg.MGLD_CFG, 0x100), (Reg.MGLD_WIN_BASE 0, 0x2000_0000), (Reg.MGLD_WIN_SIZE 0, 32), (Reg.MGLD_BUF_BANKS_HI 2, 0x8000_0000)]
      fun x => { x with state := some 1024 }).chipTo
      (let c := (sMg 2 [(Reg.MGLD_CFG, 0x100), (Reg.MGLD_WIN_BASE 0, 0x2000_0000), (Reg.MGLD_WIN_SIZE 0, 32),
         (Reg.MGLD_BUF_BANKS_HI 2, 0x8000_0000)] fun x => { x with state := some 1024 }).chip
       { c with ledger := { c.ledger with ok := true } }),
      1024, 0x2000_0000, 0x21F8_0000, by unfold banksOn inBanks; decide⟩,
    ⟨State.reset, by decide⟩, ⟨sMg 1 [] fun x => { x with recTick := some 7 }, 7, true, by unfold banksOn; decide⟩,
    ⟨sMg 2 [], { recOf 0 0 with crc := 0 }, by decide⟩, ⟨sMg 2 [], recOf 0xFFFF_FFFF 0, 0, by unfold recordSound; decide⟩,
    ⟨sMg 2 [], recOf 1 0, 0, by unfold recordSound; decide⟩,
    ⟨sMg 2 [], recOf 0 0, 0, [], [], [], _, by decide, by unfold recordSound; decide, by decide, by decide, by decide, by decide,
      by decide, by decide, rfl⟩⟩

/-- DRAM controller 1 in state `k` with these registers, its state and one transaction part waiting for it or none. -/
def sDr (k : Nat) (l : List (Nat × Word)) (f : DramSt → DramSt := id) (wait : Bool := false) : State :=
  (sr ([(Reg.DRAM_STAT 1, word k)] ++ l)).chipTo
    (let c := (sr ([(Reg.DRAM_STAT 1, word k)] ++ l)).chip
     { c with dram := [(1, f dramReset)], mtx := { c.mtx with acc := if wait then
         [{ master := 0, seq := 0, target := 9, lo := 0, n := 1, qos := 0, since := 0 }] else [] } })

set_option maxRecDepth 20000 in
theorem witness_DramControllersInitRefreshPauseAndSleep :
    (∀ k, k < 6 → ∃ s : State, s.chip.dramState 1 = k ∧ s.chip.dramLive 1 = (k == 2 || k == 3)) ∧
    (∃ s : State, s.chip.dramState 1 = 0 ∧ s.chip.rdf (Reg.DRAM_CFG 1) 1 0 = 3) ∧
    (∀ z : Bool, ∃ s : State, s.chip.dramState 1 = 5 ∧ s.chip.rdf (Reg.DRAM_CFG 1) 1 0 ≠ 3 ∧ s.chip.rdf (Reg.DRAM_CFG 1) 5 4 ≠ 3 ∧
      decide (s.chip.rdf (Reg.DRAM_TIM1 1) 12 0 = 0) = z) ∧
    (∀ b : Bool, ∃ (s : State) (x : DramSt), x = s.chip.dramSt 1 ∧ s.chip.dramState 1 = 4 ∧ x.cause = 3 ∧ x.resume = b) ∧
    (∃ f : DramSt → DramSt, ∀ y : DramSt, f y = if State.reset.chip.rdb (Reg.DRAM_CFG 1) 8 then
      { y with rot := (y.rot + 1) % 8, rows := drop (fun b => b % 8 == y.rot) y.rows } else { y with rows := [] }) ∧
    (∀ w : Bool, ∀ n ∈ [0, 4, 8], ∃ s : State, s.chip.dramState 1 = 2 ∧ s.chip.dramLive 1 = true ∧ s.chip.dramWaits 1 = w ∧
      s.chip.dramHot 1 = false ∧ s.chip.dramCrit 1 = false ∧ s.chip.postponed 1 = n) ∧
    (∃ (s : State) (p : MtxPart), s.chip.dramState 1 = 2 ∧ dramNext 1 s.chip p) ∧
    (∃ s : State, s.chip.dramState 1 = 2 ∧ s.chip.rdf (Reg.DRAM_RT_CFG 1) 7 0 ≠ 0 ∧ s.chip.rdb (Reg.DRAM_STAT 1) 14 = false) ∧
    (∃ s : State, s.chip.dramState 1 = 2 ∧ s.chip.rdb (Reg.DRAM_STAT 1) 15 = true ∧ s.chip.dramCrit 1 = false ∧
      s.chip.tickRuns = false ∧ s.chip.dramWaits 1 = false) ∧
    (∀ o sl : Bool, ∃ (s : State) (x : DramSt), x = s.chip.dramSt 1 ∧ s.chip.dramState 1 = 2 ∧ s.chip.rdb (Reg.DRAM_STAT 1) 15 = true ∧
      s.chip.dramCrit 1 = false ∧ s.chip.tickRuns = true ∧ s.chip.rdb Reg.TICK_DRAM_SLOT 1 = true ∧ x.slot = sl ∧
      s.chip.windowOpen = o) ∧
    (∃ (s : State) (x : DramSt) (op : BitVec 5) (band : Nat), x = s.chip.dramSt 1 ∧ s.chip.dramState 1 = 3 ∧ x.mr4 = some (op, band)) ∧
    (∃ (s : State) (x : DramSt), x = s.chip.dramSt 1 ∧ x.want = 2 ∧ ∃ m, m < 10 ∧ m ≠ 4 ∧ m ≠ 5 ∧ s.chip.draining m = true) ∧
    (∃ (s : State) (x : DramSt) (d : Dev), x = s.chip.dramSt 1 ∧ s.chip.dramLive 1 = true ∧ x.want = 2 ∧
      (∀ m, m < 10 → m ≠ 4 → m ≠ 5 → s.chip.draining m = false) ∧
      d = (s.chip.mtx.acc.filter (fun p => p.target == 9)).foldl (fun d p => d.servePart p) s.dev) ∧
    (∀ g : Bool, ∃ (s : State) (x : DramSt), x = s.chip.dramSt 1 ∧ s.chip.dramState 1 = 4 ∧ x.go = g) :=
  ⟨fun k h => ⟨sDr k [], by revert k h; decide⟩, ⟨sDr 0 [(Reg.DRAM_CFG 1, 3)], by decide⟩,
    fun z => ⟨sDr 5 [(Reg.DRAM_CFG 1, 0), (Reg.DRAM_TIM1 1, if z then 0 else 0x1FFF)], by revert z; decide⟩,
    fun b => ⟨sDr 4 [] fun x => { x with cause := 3, resume := b }, { dramReset with cause := 3, resume := b }, by revert b; decide⟩,
    ⟨_, fun y => rfl⟩,
    fun w n h => ⟨sDr 2 [(Reg.DRAM_STAT 1, word (2 + n * 2 ^ 8))] id w, by revert n h; revert w; decide⟩,
    ⟨sDr 2 [] id true, { master := 0, seq := 0, target := 9, lo := 0, n := 1, qos := 0, since := 0 }, by decide, by
      intro l sv rank old hl hsv hr ho
      subst hl hsv hr ho
      exact .inr ⟨by decide, [], [], by decide, by decide, by simp, by simp⟩⟩,
    ⟨sDr 2 [(Reg.DRAM_RT_CFG 1, 1)], by decide⟩, ⟨sDr 2 [(Reg.DRAM_STAT 1, 0x8002)], by decide⟩,
    fun o sl => ⟨sDr 2 [(Reg.DRAM_STAT 1, 0x8002), (Reg.TICK_PHASE, if o then 2 else 1), (Reg.TICK_DRAM_SLOT, 2)] fun x => { x with slot := sl },
      { dramReset with slot := sl }, by revert o sl; decide⟩,
    ⟨sDr 3 [] fun x => { x with mr4 := some (31, 3) }, { dramReset with mr4 := some (31, 3) }, 31, 3, by decide⟩,
    ⟨sDr 2 [(Reg.MTX_MP_STAT 9, 0x1_0000)] fun x => { x with want := 2 }, { dramReset with want := 2 }, by decide⟩,
    ⟨sDr 3 [] fun x => { x with want := 2 }, { dramReset with want := 2 }, _, by decide, by decide, by decide, by decide, rfl⟩,
    fun g => ⟨sDr 4 [] fun x => { x with go := g }, { dramReset with go := g }, by revert g; decide⟩⟩

/-! Witnesses: resets, power, fuses, boot, the Host Port and the flash. -/

/-- The reset state with these registers and the power and reset state as given. -/
def sPwr (l : List (Nat × Word)) (f : PwrSt → PwrSt) (m : List Host.Cell := []) : State :=
  { State.reset with dev := { mem := { memReset with cells := m }, chip := { (sr l).chip with pwr := f pwrReset } } }

/-- One of the two findings of the fuse load holds in every state: the fuse words are values that no proof can see. -/
theorem fuseBad_cases (c : Chip) : c.fuseBad = none ∨ ∃ w, c.fuseBad = some w := by
  cases h : c.fuseBad with
  | none => exact .inl rfl
  | some w => exact .inr ⟨w, rfl⟩

set_option maxRecDepth 20000 in
theorem witness_ResetsAndPowerStatesProceed :
    (∃ s : State, s.chip.pstate < 2 ∧ s.chip.pwr.entry.any (2 ≤ ·) = false) ∧
    (∀ b : Bool, ∃ s : State, s.chip.en pgMGLD = b ∧ s.chip.rdb Reg.FUSE_BOOT 1 = b ∧ s.chip.rdb (Reg.ST_WDOG_CFG 1) 31 = b ∧
      s.chip.coreState 33 ≠ 4) ∧
    fld (0x5E75_0003 : Word) 31 16 = 0x5E75 ∧ fld (0x5E75_0003 : Word) 1 0 ≠ 0 ∧
    (∀ m ∈ [0, 3, 4], ∃ s : State, s.chip.resetMap 8 = m) ∧
    (∀ k, k < 9 → k ≠ 3 → ∃ s : State, s.chip.pwr.seq = k) ∧
    (∀ b : Bool, ∃ s : State, s.chip.pwr.seq = 3 ∧ s.chip.fuseFault = b ∧ s.chip.heldAt 0 = false) ∧
    (∃ s : State, s.chip.pwr.seq = 3 ∧ s.chip.fuseFault = false ∧ s.chip.heldAt 0 = true) ∧
    (∀ src : Fin 13, src ≠ 10 → ∃ (s : State) (x : PwrSt), x = s.chip.pwr ∧ x.held.contains src.val = true ∧ x.seq = 0 ∧ x.level < 2 ∧
      x.waiting = none) ∧
    (∃ s : State, s.chip.pwr.level = 2 ∧ s.chip.heldAt 2 = false ∧
      (∀ m ∈ [0, 1, 2, 3, 6, 7, 8, 9], s.chip.draining m = false) ∧ (∀ k, k < 2 → (s.chip.dramSt k).want ≠ 2) ∧
      s.chip.rdb Reg.CLKPWR_PLL 0 = true) ∧
    (∃ s : State, s.mem.wf = true) ∧
    fld (0x9A17_0002 : Word) 31 16 = 0x9A17 ∧ 2 ≤ fld (0x9A17_0002 : Word) 1 0 ∧
    (∀ b : Bool, ∃ s : State, s.chip.rdb Reg.CLKPWR_PSTAT 2 = b) ∧ (∃ s : State, s.chip.pstate = 1 ∧ s.chip.rdb Reg.CLKPWR_PSTAT 2 = false) ∧
    (∀ r, r < 4 → ∃ (s : State) (x : PwrSt), x = s.chip.pwr ∧ x.entry = some r ∧ s.chip.tick.on = false ∧
      (∀ k, k < 2 → (s.chip.dramSt k).want = 0) ∧ (∀ k, k < 2 → ¬(s.chip.dramState k = 4 ∧ (s.chip.dramSt k).go = true)) ∧
      x.latched = []) ∧
    (∃ (s : State) (x : PwrSt), x = s.chip.pwr ∧ x.entry = some 3 ∧ s.chip.tick.on = false ∧ x.latched = [1]) ∧
    (∀ k ∈ [0, 1, 11, 12], ∃ (s : State) (x : PwrSt), x = s.chip.pwr ∧ x.waiting = some k) ∧
    (∃ s : State, s.chip.pwr.waiting = none ∧ s.chip.pwr.entry = none) :=
  ⟨⟨State.reset, by decide⟩,
    fun b => ⟨sr [(Reg.CTRL pgMGLD, if b then 1 else 0), (Reg.FUSE_BOOT, if b then 2 else 0),
      (Reg.ST_WDOG_CFG 1, if b then 0x8000_0000 else 0)], by revert b; decide⟩, by decide, by decide,
    fun m h => ⟨sr [(Reg.FUSE_RESET_MAP, word (m * 2 ^ 21))], by revert m h; decide⟩,
    fun k h _ => ⟨sPwr [] fun x => { x with seq := k }, rfl⟩,
    fun b => ⟨sPwr [(Reg.FUSE_STAT, if b then 4 else 2)] fun x => { x with seq := 3 }, by revert b; decide⟩,
    ⟨sPwr [(Reg.FUSE_STAT, 2)] fun x => { x with seq := 3, held := [1] }, by decide⟩,
    fun k _ => ⟨sPwr [] fun x => { x with seq := 0, held := [k.val] }, { pwrReset with seq := 0, held := [k.val] }, by revert k; decide⟩,
    ⟨sPwr [(Reg.CLKPWR_PLL, 7)] fun x => { x with level := 2 }, by decide⟩, ⟨State.reset, by decide⟩, by decide, by decide,
    fun b => ⟨sr [(Reg.CLKPWR_PSTAT, if b then 4 else 0)], by revert b; decide⟩, ⟨sr [(Reg.CLKPWR_PSTAT, 1)], by decide⟩,
    fun r h => ⟨sPwr [] fun x => { x with entry := some r }, { pwrReset with entry := some r }, by revert r h; decide⟩,
    ⟨sPwr [] fun x => { x with entry := some 3, latched := [1] }, { pwrReset with entry := some 3, latched := [1] }, by decide⟩,
    fun k h => ⟨sPwr [] fun x => { x with waiting := some k }, { pwrReset with waiting := some k }, by revert k h; decide⟩,
    ⟨State.reset, by decide⟩⟩

/-- A boot image of no segments: its header alone, with the wrong magic. -/
def badImage : List Byte := List.replicate 32 0

set_option maxRecDepth 20000 in
theorem witness_FusesBootHostPortAndFlashProceed :
    fld (0xF05E_0001 : Word) 31 16 = 0xF05E ∧ bit (0xF05E_0001 : Word) 0 = true ∧
    (∀ w ∈ [0, 11, 12, 15], ∃ s : State, s.chip.rdb Reg.FUSE_PGM_STAT 0 = true ∧ w = s.chip.rdf Reg.FUSE_PGM_ADDR 3 0) ∧
    (∃ s : State, s.chip.pwr.boot.waits = false) ∧
    (∃ (s : State) (x : PwrSt) (w : Word) (t : List Word), x = s.chip.pwr ∧ x.boot.waits = true ∧ s.chip.bootSel = 1 ∧ x.mboxIn = w :: t ∧
      w ≠ 1) ∧
    (∀ sel, sel < 5 → ∃ (s : State) (x : PwrSt) (placed : Bool) (l : List Byte) (d0 : Dev), x = s.chip.pwr ∧ x.boot.waits = true ∧
      ((s.chip.bootSel = 0 ∧ placed = false ∧ l = badImage ∧ d0 = s.dev) ∨
        (s.chip.bootSel = 1 ∧ placed = true ∧ l = s.mem.bytes headerArea 352 ∧
          ∃ t, x.mboxIn = 1 :: t ∧ d0 = { s.dev with chip := { s.chip with pwr := { x with mboxIn := t } } }) ∨
        (2 ≤ s.chip.bootSel ∧ placed = false ∧ l = x.boot.image ∧ d0 = s.dev)) ∧ s.chip.bootSel = sel) ∧
    (∃ l : List Byte, l.length < 32 + 16 * imgSegs l) ∧
    (∃ l : List Byte, 32 + 16 * imgSegs l ≤ l.length ∧ imgCheck l ≠ 0) ∧
    (∀ sel ∈ [2, 3], ∃ (s : State) (k : BootChunk), s.chip.pwr.boot.waits = true ∧ s.chip.bootSel = sel ∧ k.good = true ∧
      k.index = word s.chip.pwr.boot.next ∧ k.bytes.length = if sel = 2 then 4096 else 1024) ∧
    (∀ c2 : Bool, ∃ (s : State) (x : PwrSt), x = s.chip.pwr ∧ x.boot.waits = true ∧ s.chip.bootSel = 0 ∧ x.boot.copy2 = c2) ∧
    (∀ b : Bool, ∃ s : State, s.chip.en pgHOST = b) ∧
    (∃ (s : State) (a : Word) (p : Nat), s.chip.en pgHOST = true ∧ p = s.chip.rdf Reg.HOST_CFG 7 0 * 2 ^ 32 + a.toNat ∧ p % 4 ≠ 0) ∧
    (∃ (s : State) (a w : Word) (p r : Nat) (d1 : Dev), s.chip.en pgHOST = true ∧ p = s.chip.rdf Reg.HOST_CFG 7 0 * 2 ^ 32 + a.toNat ∧
      p % 4 = 0 ∧ (r, d1) = s.dev.busWrite 13 p 4 ((List.range 4).zip (wordBytes w))) ∧
    (∃ (s : State) (a : Word) (p : Nat), s.chip.en pgHOST = true ∧ p = s.chip.rdf Reg.HOST_CFG 7 0 * 2 ^ 32 + a.toNat ∧
      inBanks p 4 ∧ p % 4 = 0 ∧ banksOn s.chip ∧ s.mem.wf = true ∧ s.chip.mgldRole ≠ 1) ∧
    (∀ n ∈ [0, 15, 16], ∃ (s : State) (x : PwrSt), x = s.chip.pwr ∧ s.chip.en pgHOST = true ∧ x.mboxIn.length = n ∧ x.mboxOut.length = n) ∧
    (∃ s : State, s.chip.rdb Reg.BOOTQ_STAT 0 = true) ∧
    (∀ w : Bool, ∃ (s : State) (x : PwrSt) (n : Nat), x = s.chip.pwr ∧ n = (s.chip.rdf Reg.BOOTQ_LEN 23 0 + 3) / 4 ∧
      s.chip.rdb Reg.BOOTQ_XFER 9 = w ∧ s.chip.rdb Reg.BOOTQ_STAT 0 = true ∧ n = 1 ∧ n ≤ x.bootq.length) ∧
    (∃ s : State, s.chip.pwr.bootq = []) ∧ (∃ s : State, s.chip.pwr.bootq ≠ []) ∧
    (∃ s : State, 64 ≤ s.chip.pwr.bootq.length ∧ s.chip.rdb Reg.BOOTQ_STAT 0 = false) :=
  ⟨by decide, by decide, fun w h => ⟨sr [(Reg.FUSE_PGM_STAT, 1), (Reg.FUSE_PGM_ADDR, word w)], by revert w h; decide⟩,
    ⟨State.reset, by decide⟩,
    ⟨sPwr [(Reg.SYS_BOOT, 1)] fun x => { x with mboxIn := [2], boot := { bootReset with waits := true } },
      { pwrReset with mboxIn := [2], boot := { bootReset with waits := true } }, 2, [], by decide⟩,
    fun k h => match k, h with
      | 0, _ => ⟨sPwr [(Reg.SYS_BOOT, 0)] fun x => { x with boot := { bootReset with waits := true } },
          { pwrReset with boot := { bootReset with waits := true } }, false, _, _, by decide, by decide, .inl ⟨by decide, rfl, rfl, rfl⟩, by decide⟩
      | 1, _ => ⟨sPwr [(Reg.SYS_BOOT, 1)] fun x => { x with mboxIn := [1], boot := { bootReset with waits := true } },
          { pwrReset with mboxIn := [1], boot := { bootReset with waits := true } }, true, _, _, by decide, by decide,
          .inr (.inl ⟨by decide, rfl, rfl, [], rfl, rfl⟩), by decide⟩
      | k + 2, h => ⟨sPwr [(Reg.SYS_BOOT, word (k + 2))] fun x => { x with boot := { bootReset with waits := true } },
          { pwrReset with boot := { bootReset with waits := true } }, false, _, _, rfl, rfl, .inr (.inr ⟨by
            have : k = 0 ∨ k = 1 ∨ k = 2 := by omega
            rcases this with rfl | rfl | rfl <;> decide, rfl, rfl, rfl⟩), by
            have : k = 0 ∨ k = 1 ∨ k = 2 := by omega
            rcases this with rfl | rfl | rfl <;> decide⟩,
    ⟨[], by decide⟩, ⟨badImage, by decide⟩,
    fun k h => ⟨sPwr [(Reg.SYS_BOOT, word k)] fun x => { x with boot := { bootReset with waits := true } },
      { index := 0, bytes := List.replicate (if k = 2 then 4096 else 1024) 0, good := true }, by
        refine ⟨by revert k h; decide, by revert k h; decide, rfl, by revert k h; decide, List.length_replicate ..⟩⟩,
    fun b => ⟨sPwr [] fun x => { x with boot := { bootReset with waits := true, copy2 := b } },
      { pwrReset with boot := { bootReset with waits := true, copy2 := b } }, by revert b; decide⟩,
    fun b => ⟨sr [(Reg.CTRL pgHOST, if b then 1 else 0)], by revert b; decide⟩,
    ⟨sr [(Reg.CTRL pgHOST, 1)], 1, 1, by decide⟩, ⟨sr [(Reg.CTRL pgHOST, 1)], 0x2000_0000, 7, 0x2000_0000, _, _, by decide, by decide, by decide, rfl⟩,
    ⟨sr [(Reg.CTRL pgHOST, 1)], 0x21FF_FFFC, 0x21FF_FFFC, by unfold inBanks banksOn; decide⟩,
    fun n h => ⟨sPwr [(Reg.CTRL pgHOST, 1)] fun x => { x with mboxIn := List.replicate n 7, mboxOut := List.replicate n 7 },
      { pwrReset with mboxIn := List.replicate n 7, mboxOut := List.replicate n 7 }, by revert n h; decide⟩,
    ⟨sr [(Reg.BOOTQ_STAT, 1)], by decide⟩,
    fun w => ⟨sPwr [(Reg.BOOTQ_STAT, 1), (Reg.BOOTQ_LEN, 4), (Reg.BOOTQ_XFER, if w then 0x200 else 0)] fun x => { x with bootq := [7] },
      { pwrReset with bootq := [7] }, 1, by revert w; decide⟩,
    ⟨State.reset, by decide⟩, ⟨sPwr [] fun x => { x with bootq := [7] }, by decide⟩,
    ⟨sPwr [] fun x => { x with bootq := List.replicate 64 7 }, by decide⟩⟩

/-- The state that the whole invariant starts from: one command waits, and the memory is canonical. -/
theorem witness_StepAnswersAndKeepsMemoryCanonical :
    ∃ s : State, s.mem.wf = true ∧ s.pending = [.wakePin, .por] ∧ s.mem.get 0x2000_0000 = 7 :=
  ⟨{ State.reset with pending := [.wakePin, .por], dev := { State.reset.dev with mem := { memReset with cells := [(0x2000_0000, 7)] } } },
    by decide, rfl, by decide⟩
/-! Witnesses of the further clauses of the same statements. -/

theorem witness_MatrixIssueAndArbitration_2 :
    (∀ tied : Bool, ∃ (s : State) (t : Fin 13) (g : MtxPart), g ∈ s.chip.heads t ∧ t.val ≠ 8 ∧ t.val ≠ 9 ∧ s.chip.partTied g = tied) ∧
    (∃ (s : State) (t : Fin 13), t.val = 8 ∧ s.chip.heads t ≠ [] ∧ s.chip.dramAccepts (t.val - 8) = true) ∧
    (∃ (s : State) (t : Fin 13) (m : Fin 15) (o : MtxOpen) (rest : List MtxOpen), s.chip.mtx.opn = o :: rest ∧
      o.txn.master = m ∧ t.val ∈ o.targets ∧ o.left = 0 ∧ o.txn.write = true ∧ m.val ≠ 4 ∧ m.val ≠ 5 ∧ m.val ≠ 13 ∧ o.fails = [] ∧
      (∀ k, look [] s.chip.snap.held k = []) ∧ (∀ p ∈ s.chip.mtx.acc, p.seq ≠ o.seq) ∧ (∀ x ∈ rest, x.seq ≠ o.seq) ∧
      s.chip.mtx.held = []) ∧
    (∃ (s : State) (m : Fin 15), s.chip.draining m = true ∧ ∃ o ∈ s.chip.mtx.opn, o.txn.master = m) :=
  ⟨fun b => ⟨sMtx fun m => { m with wait := [tPart 12], opn := [{ tOpen 12 with
        txn := { tRead with write := b, addr := 0x6000_7020 }, addrs := [0x6000_7020] }] }, 12, tPart 12, by revert b; decide⟩,
    ⟨sMtx fun m => { m with wait := [tPart 8], opn := [tOpen 8] }, 8, by decide⟩,
    ⟨sMtx fun m => { m with opn := [{ tOpen 8 with txn := { tRead with write := true } }] }, 8, 6,
      { tOpen 8 with txn := { tRead with write := true } }, [], by decide, by decide, by decide, by decide, by decide, by decide, by decide,
      by decide, by decide, fun _ => rfl, by decide, by decide, by decide⟩,
    ⟨st fun c => { c.wr (Reg.MTX_MP_STAT 6) 0x1_0000 with mtx := { mtxReset with opn := [tOpen 8] } }, 6, by decide⟩⟩

theorem witness_EngineBoundaryMovesTheTick_2 :
    (∃ s : State, s.chip.tick.on = true ∧ s.chip.rdf Reg.TICK_PHASE 1 0 = 0 ∧ s.chip.tick.named = none) ∧
    (∃ (s : State) (t : Word), s.chip.tick.on = true ∧ s.chip.rdf Reg.TICK_PHASE 1 0 = 0 ∧ s.chip.tick.named = some t ∧
      before (s.chip.tb.short + 66) t = true) ∧
    ∃ (s : State) (t : Word), s.chip.tick.on = true ∧ s.chip.rdf Reg.TICK_PHASE 1 0 = 0 ∧ s.chip.tick.named = some t ∧
      before (s.chip.tb.short + 66) t = false ∧ before (s.chip.tb.short + 66) (s.chip.tick.enAt + 64) = false :=
  ⟨⟨sPhase 0, by decide⟩, ⟨sPhase 0 fun c => { c with tick := { c.tick with named := some 67 } }, 67, by decide⟩,
    ⟨sPhase 0 fun c => { c with tick := { c.tick with named := some 66 } }, 66, by decide⟩⟩

theorem witness_FlipAndGlideArmsAreCheckedInOrder_2 :
    (∃ s : State, s.chip.tick.on = true ∧ s.chip.snap.glide ≠ none) ∧
    (∃ (s : State) (t : BitVec 48), t = s.chip.tickOf Reg.SNAP_GLIDE_TICK_LO Reg.SNAP_GLIDE_TICK_HI ∧ s.chip.tick.on = true ∧
      s.chip.snap.glide = none ∧ 2 ^ 47 ≤ (t - s.chip.tick.count).toNat) ∧
    (∃ (s : State) (t : BitVec 48), t = s.chip.tickOf Reg.SNAP_GLIDE_TICK_LO Reg.SNAP_GLIDE_TICK_HI ∧ s.chip.tick.on = true ∧
      s.chip.snap.glide = none ∧ t = s.chip.tick.count ∧ s.chip.rdf Reg.TICK_PHASE 1 0 = 2) ∧
    ∃ (s : State) (g : GlideArm), s.chip.snap.glide = some g ∧ g.tick = s.chip.tick.count ∧ s.chip.rdf Reg.TICK_PHASE 1 0 = 2 :=
  ⟨⟨sSnap 1 fun x => { x with glide := some (glideAt 9) }, by decide⟩,
    ⟨sPhase 1 fun c => c.wr Reg.SNAP_GLIDE_TICK_HI 0x8000, 0x8000_0000_0000, by decide⟩, ⟨sPhase 2, 0, by decide⟩,
    ⟨sSnap 2 fun x => { x with glide := some (glideAt 0) }, glideAt 0, by decide⟩⟩

theorem witness_HubAssertionLatchesAndDelivers_2 :
    (∃ (s : State) (src : Fin 256), src.val = 127 ∧ s.chip.quiet = true ∧ 96 ≤ src.val) ∧
    (∃ (s : State) (src : Fin 256), src.val = 6 ∧ s.chip.quiet = true) ∧
    (∃ (s : State) (src : Fin 256), src.val ≠ 236 ∧ hubKindP src = false ∧ s.chip.hubLevel src = true ∧ (s.chip.hubSrc src).high = true) ∧
    (∃ (s : State) (src : Fin 256), hubReserved src = false ∧ s.chip.quiet = true ∧ 6 < src.val ∧ src.val < 96 ∧
      hubKindP src = false ∧ s.chip.hubLevel src = true ∧ (s.chip.hubSrc src).high = false) ∧
    (∃ (s : State) (n : Fin 2), n.val = 0 ∧ s.chip.rdf Reg.TICK_PHASE 1 0 ≠ 0 ∧ s.chip.tick.ofs0 < s.chip.tick.len ∧
      s.chip.quiet = false ∧ s.chip.freeze pgHUB = false ∧ (s.chip.hubSrc (3 + n.val)).count = 0) ∧
    (∃ (s : State) (n : Fin 2), n.val = 1 ∧ s.chip.rdf Reg.TICK_PHASE 1 0 ≠ 0 ∧ s.chip.tick.ofs1 < s.chip.tick.len) ∧
    ∃ (s : State) (n : Fin 2), n.val = 1 ∧ s.chip.rdf Reg.TICK_PHASE 1 0 ≠ 0 ∧ s.chip.tick.len ≤ s.chip.tick.ofs1 :=
  ⟨⟨sr [(Reg.CLKPWR_PSTAT, 1)], 127, by decide⟩, ⟨sr [(Reg.CLKPWR_PSTAT, 1)], 6, by decide⟩,
    ⟨sHub 22 { hubSrcReset with high := true } [(Reg.IRQ_MASK pgTB, 1), (Reg.IRQ_RAW pgTB, 1)], 22, by decide⟩,
    ⟨sr [(Reg.CLKPWR_PSTAT, 1), (Reg.IRQ_MASK pgTB, 1), (Reg.IRQ_RAW pgTB, 1)], 22, by decide⟩,
    ⟨sPhase 1 fun c => { c with tick := { c.tick with len := 1000, ofs0 := 999 } }, 0, by decide⟩,
    ⟨sPhase 1 fun c => { c with tick := { c.tick with len := 1000, ofs1 := 999 } }, 1, by decide⟩,
    ⟨sPhase 1 fun c => { c with tick := { c.tick with len := 1000, ofs1 := 1000 } }, 1, by decide⟩⟩

theorem witness_LocalLoadsAndStores_2 :
    (∃ (s : State) (b : Bundle) (a : LsAccess) (o : Nat), issues (coreNum m31) b s ∧ lsFmt b.ls = 0 ∧
      halfAccess b.ls 0 = some a ∧ halfAccess b.ls 15 = none ∧ a.st = false ∧ s.chip.servedLocally (coreNum m31) false true
        ((s.chip.core (coreNum m31)).addressOf s.chip.freeCtr 24 a).1.toNat = some o) ∧
    (∃ (s : State) (b : Bundle) (a : LsAccess) (o : Nat), issues (coreNum m31) b s ∧ lsFmt b.ls = 0 ∧
      halfAccess b.ls 15 = some a ∧ halfAccess b.ls 0 = none ∧ a.st = true ∧ s.mem.wf = true ∧ coeffOffset (coreNum m31) o = false ∧
      s.chip.servedLocally (coreNum m31) true false
        ((s.chip.core (coreNum m31)).addressOf s.chip.freeCtr 16 a).1.toNat = some o) ∧
    ∃ (s : State) (b : Bundle) (a1 a2 : LsAccess) (o1 o2 : Nat), issues (coreNum m31) b s ∧ lsFmt b.ls = 0 ∧
      halfAccess b.ls 15 = some a1 ∧ halfAccess b.ls 0 = some a2 ∧ a1.st = false ∧ a2.st = false ∧
      s.chip.servedLocally (coreNum m31) true false
        ((s.chip.core (coreNum m31)).addressOf s.chip.freeCtr 16 a1).1.toNat = some o1 ∧
      s.chip.servedLocally (coreNum m31) false true
        ((s.chip.core (coreNum m31)).addressOf s.chip.freeCtr 24 a2).1.toNat = some o2 ∧
      ∀ r ∈ pairOf a1.pair a1.dreg, ∀ r2 ∈ pairOf a2.pair a2.dreg, r.1 ≠ r2.1 := by
  unfold issues atBundle
  exact ⟨⟨sB (bLs 0x0000_4000) (fun x => { x with p := [(0, 0x4_0000)] }), bLs 0x0000_4000,
      (halfAccess 0x0000_4000 0).get (by decide), 0x4_0000, by decide⟩,
    ⟨sB (bLs 0x3000_0000) (fun x => { x with p := [(0, 0x2_0000)] }), bLs 0x3000_0000,
      (halfAccess 0x3000_0000 15).get (by decide), 0x2_0000, by decide⟩,
    ⟨sB (bLs 0x2000_4060) (fun x => { x with p := [(0, 0x2_0000), (8, 0x4_0000)] }), bLs 0x2000_4060,
      (halfAccess 0x2000_4060 15).get (by decide), (halfAccess 0x2000_4060 0).get (by decide), 0x2_0000, 0x4_0000, by decide⟩⟩

/-- A part of a transaction of master 6 at target 7 accepted, which reads bank 63. -/
def sAcc63 (f : Chip → Chip := id) : State :=
  st fun c => f { c with mtx := { mtxReset with acc := [tPart 7], opn := [{ tOpen 7 with
    txn := { tRead with addr := 0x21F8_0000 }, addrs := [0x21F8_0000] }] } }

theorem witness_BankStateRequestStartsTransitions_2 :
    (∃ (s : State) (k : Fin 4) (i : Fin 16), s.chip.underTest (16 * k.val + i.val) = false ∧
      s.chip.bankReq (16 * k.val + i.val) = bankReqReset ∧ s.chip.bankCur (16 * k.val + i.val) ≠ 3 ∧
      s.chip.bankAccepted (16 * k.val + i.val) ≠ []) ∧
    (∃ (s : State) (b : Fin 64) (t : Fin 4) (l : List (Nat × Nat)), s.chip.bankReq b = { bankReqReset with ready := some t, after := l } ∧
      l ≠ [] ∧ ∀ e ∈ l, e ∉ s.chip.bankAccepted b) ∧
    (∃ (s : State) (b : Fin 64) (t : Fin 4) (l : List (Nat × Nat)), s.chip.bankReq b = { bankReqReset with ready := some t, after := l } ∧
      ∃ e ∈ l, e ∈ s.chip.bankAccepted b) ∧
    ∃ (s : State) (b : Fin 64) (t : Fin 4), s.chip.bankReq b = { bankReqReset with held := some t } ∧ s.chip.bankCur b ≠ 3 ∧
      s.chip.bankCur b ≠ t.val ∧ s.chip.bankAccepted b = [] :=
  ⟨⟨sAcc63, 3, 15, by decide⟩, ⟨sBank 63 { bankReqReset with ready := some 1, after := [(0, 0)] } [], 63, 1, [(0, 0)], by decide⟩,
    ⟨sAcc63 fun c => { c with bank := { bankReset with reqs := [(63, { bankReqReset with ready := some 1, after := [(0, 0)] })] } }, 63, 1,
      [(0, 0)], by decide⟩,
    ⟨sBank 63 { bankReqReset with held := some 3 } [], 63, 3, by decide⟩⟩

theorem witness_BistRunsAndAliasWrites_2 :
    (∃ (s : State) (v : Word), s.chip.bank.bist = false ∧ fld v 1 0 ≠ 3 ∧
      ∀ b, b < 64 → s.chip.rdb (Reg.BANK_BIST_SEL (b / 32)) (b % 32) = true → s.chip.bankCur b = 1) ∧
    (∃ (s : State) (g : Fin 8), s.chip.bank.bist = true ∧ s.chip.bistBank g = none) ∧
    (∃ (s : State) (m : Fin 15) (ofs : BitVec 25), s.chip.mustWait m 0 true [0x2400_0000 + ofs.toNat / 4 * 4] = true) ∧
    (∃ (s : State) (m : Fin 15) (ofs : BitVec 25), s.chip.mustWait m 0 true [0x2800_0000 + ofs.toNat / 4 * 4] = false ∧
      s.chip.bankOn (ofs.toNat / 0x8_0000) = true ∧ s.mem.wf = true) ∧
    ∃ (s : State) (m : Fin 15) (ofs : BitVec 25), s.chip.mustWait m 0 true [0x2400_0000 + ofs.toNat / 4 * 4] = false ∧
      s.chip.bankOn (ofs.toNat / 0x8_0000) = false :=
  ⟨⟨sr [(Reg.BANK_BIST_SEL 1, 0x8000_0000), (Reg.BANK_CUR 3, 0x4000_0000)], 2, by decide⟩, ⟨sBist [63], 7, by decide⟩,
    ⟨sAcc63, 6, 0x1FF_FFFC, by decide⟩, ⟨State.reset, 14, 0x1FF_FFFF, by decide⟩,
    ⟨sr [(Reg.BANK_CUR 3, 0x8000_0000)], 14, 0x1FF_FFFF, by decide⟩⟩

/-- Queue 1023 as given, overlapped by queue 0. -/
def sQ2 (x : Queue) : State :=
  sPhase 1 fun c => { c.wr (Reg.CTRL pgQF) 1 with qf := { qs := [(0, qOf 1 1), (1023, x)] } }

theorem witness_QueuePushOutcomes_2 :
    ∀ o : Bool, ∃ (s : State) (q : Fin 1024) (kind : BitVec 4) (id : BitVec 8), (s.chip.queue q).pkind = kind.toNat ∧
      (s.chip.queue q).pid = id.toNat ∧ s.chip.qEnabled q = true ∧ (s.chip.queue q).skip = 0 ∧ 0 < (s.chip.queue q).pcred ∧
      s.mem.wf = true ∧ s.chip.qOverlap q ((s.chip.queue q).addr (s.chip.queue q).push) = o :=
  fun o => match o with
    | true => ⟨sQ2 (qOf 1 1), 1023, 1, 0, by decide⟩
    | false => ⟨sQ (qOf 1 1), 1023, 1, 0, by decide⟩

/-- MEC 31 held at its PC by a pop of queue 1023, which has a word for it now. -/
def sPopWait : State :=
  sB (bLs 0x403F_F000) (fun x => { x with hold := .credit 1023 false })
    (fun c => { (c.wr (stateKey 31) 3).wr (Reg.CTRL pgQF) 1 with qf := { qs := [(1023, { qOwn with cwait := true })] } })

set_option maxRecDepth 20000 in
theorem witness_QueueCommandsAndWaits_2 :
    (∃ (s : State) (q : Fin 1024), s.chip.qEnabled q = true ∧ (s.chip.queue q).pcred ≤ 0) ∧
    (∃ (s : State) (q : Fin 1024) (w : Word), (s.chip.queue q).pwait = true ∧ (s.chip.queue q).pheld = some w ∧
      s.chip.qEnabled q = true ∧ (s.chip.queue q).skip = 0 ∧ 0 < (s.chip.queue q).pcred ∧ s.mem.wf = true ∧
      s.chip.qOverlap q ((s.chip.queue q).addr (s.chip.queue q).push) = false) ∧
    (∀ side : Bool, ∃ (s : State) (q : Fin 1024) (m : Fin 32), (if side then (s.chip.queue q).cwait else (s.chip.queue q).pwait) = true ∧
      s.chip.qEnabled q = true ∧ (s.chip.queue q).pheld = none ∧
      0 < (if side then (s.chip.queue q).ccred else (s.chip.queue q).pcred) ∧
      (if side then (s.chip.queue q).ckind else (s.chip.queue q).pkind) = 3 ∧
      (if side then (s.chip.queue q).cid else (s.chip.queue q).pid) = m.val ∧
      s.chip.chanState m = 2 ∧ s.chip.rdf (Reg.CUR_CH_STAT m) 7 5 = 7) ∧
    ∃ (s : State) (q : Fin 1024) (b : Bundle), (s.chip.queue q).cwait = true ∧ s.chip.qEnabled q = true ∧
      (s.chip.queue q).ckind = coreKind (coreNum m31) ∧ (s.chip.queue q).cid = coreEndpoint (coreNum m31) ∧
      (s.chip.core (coreNum m31)).hold = .credit q false ∧ s.chip.coreState (coreNum m31) = 3 ∧
      (s.chip.core (coreNum m31)).drain = .none ∧ (s.chip.core (coreNum m31)).step = false ∧
      (∀ f ∈ (s.chip.core (coreNum m31)).flight, (s.chip.core (coreNum m31)).issued < f.due) ∧
      s.dev.fetch (coreNum m31) = some b ∧ isSteward (coreNum m31) = false ∧ lsFmt b.ls = 1 ∧ bit b.ls 29 = false ∧
      fld b.ls 21 12 = q.val ∧ ((pairOf (bit b.ls 28) (fld b.ls 27 22)).length : Int) ≤ (s.chip.queue q).ccred ∧
      ∀ r ∈ pairOf (bit b.ls 28) (fld b.ls 27 22),
        s.chip.qOverlap q ((s.chip.queue q).addr ((s.chip.queue q).pop + word r.2)) = false :=
  ⟨⟨sQ { qOf 1 1 with push := 16 }, 1023, by decide⟩,
    ⟨sQ { qOf 1 1 with pwait := true, pheld := some 7 }, 1023, 7, by decide⟩,
    fun side => ⟨(sQ { qOf 3 3 with d1 := 0x1F03_1F03, push := 1, vis := 1, commit := 1, pwait := true, cwait := true }).chipTo
        ((sQ { qOf 3 3 with d1 := 0x1F03_1F03, push := 1, vis := 1, commit := 1, pwait := true, cwait := true }).chip.wr
          (Reg.CUR_CH_STAT 31) 0xE2), 1023, 31, by revert side; decide⟩,
    ⟨sPopWait, 1023, bLs 0x403F_F000, by decide⟩⟩

/-- Channel 31 with this transaction of its own held before its issue. -/
def sHeldW (w : BitVec 64) : State :=
  let s := sCur w
  s.chipTo { s.chip with mtx := { mtxReset with held := [{ tRead with master := 9, chan := 31, write := true }] } }

set_option maxRecDepth 20000 in
theorem witness_CourierFetchesAndRefuses_2 :
    (∃ (s : State) (pc : Nat), pc = s.chip.chanPc 31 ∧ pc + 8 ≤ 0x200_0000 ∧ pc % 8 = 0 ∧ s.chip.bankOn (pc / 0x8_0000) = true ∧
      portFree (chanPort 31) 31 s.chip) ∧
    (∃ (s : State) (pc : Nat), pc = s.chip.chanPc 31 ∧ pc < 0x200_0000 ∧ s.chip.chanMayStart 31 = true ∧ (s.chip.chan 31).started = false ∧
      s.chip.mustWait (chanPort 31) 31 false [0x2000_0000 + pc] = true) ∧
    ∃ (s : State) (pc : Nat), pc = s.chip.chanPc 31 ∧ s.chip.chanMayStart 31 = true ∧ (s.chip.chan 31).started = false ∧
      pc + 8 ≤ 0x200_0000 ∧ pc % 8 = 0 ∧ s.chip.bankOn (pc / 0x8_0000) = false ∧ portFree (chanPort 31) 31 s.chip :=
  ⟨⟨sCur 0, 8, by decide, by decide, by decide, by decide, portFree_empty rfl⟩,
    ⟨(sCur 0).chipTo { (sCur 0).chip with mtx := { mtxReset with acc := [{ tPart 0 with master := 9 }] } }, 8, by decide⟩,
    ⟨sCur 0 [(Reg.BANK_CUR 0, 1)], 8, by decide, by decide, by decide, by decide, by decide, by decide, portFree_empty rfl⟩⟩

set_option maxRecDepth 20000 in
theorem witness_CourierControlInstructions_2 :
    (∃ (s : State) (w : BitVec 64) (d : Dev), beginsInstr 31 w s d ∧ ifld w 63 60 = 8 ∧ ifld w 56 56 = 1 ∧ d.chip.chanWrites 31 = true) ∧
    (∃ (s : State) (w : BitVec 64) (d : Dev) (a : Nat), beginsInstr 31 w s d ∧ ifld w 63 60 = 8 ∧ ifld w 56 56 = 1 ∧
      a = d.chip.curPtr 31 (ifld w 55 53) / 8 * 8 ∧ inBanks a 8 ∧ banksOn d.chip ∧ d.chip.chanWrites 31 = false) ∧
    (∃ (s : State) (w : BitVec 64) (d : Dev) (q : Nat) (x : Queue), beginsInstr 31 w s d ∧ ifld w 63 60 = 6 ∧ ifld w 59 58 = 2 ∧
      q = ifld w 41 32 ∧ x = d.chip.queue q ∧ x.pkind = 3 ∧ x.pid = 31 ∧ d.chip.qEnabled q = true ∧ x.skip = 0 ∧ 0 < x.pcred ∧
      d.mem.wf = true ∧ d.chip.qOverlap q (x.addr x.push) = false ∧ ∀ t ∈ d.chip.mtx.held, t.write = true → t.chan ≠ 31) ∧
    (∃ s : State, s.chip.chanWrites 31 = true) ∧
    (∃ s : State, s.chip.chanState 31 = 1 ∧ (s.chip.chan 31).fence = true ∧ s.chip.chanWrites 31 = false) ∧
    (∃ s : State, s.chip.chanState 31 = 1 ∧ (s.chip.chan 31).stop = true ∧ s.chip.chanWrites 31 = false) ∧
    (∀ b : Bool, ∃ s : State, s.chip.chanState 31 = 2 ∧ s.chip.rdf (Reg.CUR_CH_STAT 31) 7 5 = ifld (s.chip.chan 31).instr 59 57 ∧
      ifld (s.chip.chan 31).instr 59 57 = 4 ∧ s.chip.reqLine (ifld (s.chip.chan 31).instr 4 0) = b) ∧
    (∀ b : Bool, ∃ s : State, s.chip.chanState 31 = 2 ∧ s.chip.rdf (Reg.CUR_CH_STAT 31) 7 5 = ifld (s.chip.chan 31).instr 59 57 ∧
      ifld (s.chip.chan 31).instr 59 57 = 1 ∧ s.chip.qEnabled (ifld (s.chip.chan 31).instr 9 0) = b) :=
  ⟨⟨sHeldW 0x8120_0000_0000_0000, 0x8120_0000_0000_0000, (sHeldW 0x8120_0000_0000_0000).dev.chanFetch 31,
      ⟨⟨by decide, by decide, by unfold portFree; decide, rfl, by decide, by decide⟩, by decide⟩, by decide⟩,
    ⟨sCur 0x8120_0000_0000_0000 [(Reg.CUR_CH_PTR_LO 31 1, 0x21FF_FFFF)], 0x8120_0000_0000_0000, _, 0x21FF_FFF8, begins_of rfl rfl (by decide),
      by unfold inBanks banksOn; decide⟩,
    ⟨sCurQ 0x6800_03FF_0000_00A5 { qOf 3 3 with d1 := 0x1F03 }, 0x6800_03FF_0000_00A5, _, 1023, { qOf 3 3 with d1 := 0x1F03 },
      begins_of rfl rfl (by decide), by decide⟩,
    ⟨sHeldW 0, by decide⟩, ⟨sCurIn 0 1 fun x => { x with fence := true }, by decide⟩, ⟨sCurIn 0 1 fun x => { x with stop := true }, by decide⟩,
    fun b => ⟨sCurIn (if b then 0x5800_0000_0000_0001 else 0x5800_0000_0000_0002) 0x82 (fun x => { x with started := true }), by revert b; decide⟩,
    fun b => ⟨(sCurIn 0x5200_0000_0000_03FF 0x22 (fun x => { x with started := true }) [(Reg.CTRL pgQF, 1)]).chipTo
      { (sCurIn 0x5200_0000_0000_03FF 0x22 (fun x => { x with started := true }) [(Reg.CTRL pgQF, 1)]).chip with
        qf := { qs := [(1023, { qOf 1 1 with en := b })] } }, by revert b; decide⟩⟩

set_option maxRecDepth 20000 in
theorem witness_CourierMovesItsBytes_2 :
    ∀ b : Bool, ∃ (s : State) (m : MoveOp) (x : CurChan), x = s.chip.chan 31 ∧ m = s.chip.moveOp 31 ∧ x.started = true ∧
      portFree (chanPort 31) 31 s.chip ∧ x.limit ≤ x.done ∧ x.done < m.len ∧ s.chip.reqLine (ifld x.instr 47 43) = b :=
  fun b => ⟨sBurst (if b then 4 else 3), _, _, rfl, rfl, by revert b; decide, portFree_empty (by cases b <;> rfl), by revert b; decide⟩

theorem witness_CourierChannelsStartAndAbort_2 :
    (∃ s : State, s.chip.chanStopped 31 = true ∧ s.chip.en (chanPage 31) = true ∧ s.chip.idleReq (chanPage 31) = false) ∧
    (∃ s : State, s.chip.chanStopped 31 = true ∧ s.chip.idleReq (chanPage 31) = true) ∧
    (∃ s : State, s.chip.chanOpen 31 ≠ []) ∧ (∃ s : State, s.chip.chanState 31 = 5 ∧ s.chip.chanOpen 31 = []) :=
  ⟨⟨sr [(Reg.CTRL (chanPage 31), 1)], by decide⟩, ⟨sr [(Reg.CTRL (chanPage 31), 5)], by decide⟩,
    ⟨sMtx fun m => { m with opn := [{ tOpen 0 with txn := { tRead with master := 9, chan := 31 } }] }, by decide⟩,
    ⟨sCurIn 0 5 id, by decide⟩⟩

set_option maxRecDepth 20000 in
theorem witness_StewardExceptionsAreEntered_2 :
    ∃ (s : State) (n : Fin 2) (x : CoreSt), x = s.chip.core (32 + n) ∧ s.chip.coreState (32 + n) = 1 ∧ x.drain = .none ∧
      x.step = false ∧ x.hold = .none ∧ x.orphans = [] ∧ x.flight = [] ∧ s.chip.atBreak (32 + n) = false ∧
      s.chip.fetchWaits (32 + n) = false ∧ s.dev.fetch (32 + n) = none :=
  ⟨sS (bCt 0) (fun x => { x with pc := 0x4000 }), 1, { coreReset with pc := 0x4000 }, by decide⟩

theorem witness_CoresStartHaltStepAndResume_2 :
    (∃ s : State, s.chip.coreState 31 = 0 ∧ s.chip.en (pgCore 31) = true ∧ s.chip.idleReq (pgCore 31) = false ∧
      s.chip.coreClocked 31 = true) ∧
    (∃ s : State, s.chip.idleReq (pgCore 31) = true) ∧ (∃ s : State, s.chip.coreClocked 31 = false) ∧
    (∃ s : State, s.chip.coreState 31 = 1 ∧ (s.chip.core 31).drain = .none ∧ s.chip.atBreak 31 = true ∧ flightsDue 31 s ∧
      s.chip.coreClocked 31 = true) ∧
    (∃ s : State, s.chip.coreState 31 = 4 ∧ s.chip.coreClocked 31 = true) ∧
    (∃ (s : State) (b : Bundle), s.chip.coreState 31 = 4 ∧ (s.chip.core 31).drain = .none ∧ flightsDue 31 s ∧
      (s.chip.core 31).branch = none ∧ (s.chip.core 31).lost = false ∧ ((s.chip.core 31).loop 0).active = false ∧
      ((s.chip.core 31).loop 1).active = false ∧ s.chip.coreClocked 31 = true ∧ s.chip.fetchWaits 31 = false ∧
      s.dev.fetch 31 = some b ∧ b.ls = 0 ∧ ctOp b.ct < 0x18 ∧ isSteward 31 = false) ∧
    (∃ (s : State) (b : Bundle), s.chip.coreState 31 = 4 ∧ (s.chip.core 31).drain = .none ∧ (s.chip.core 31).flight = [] ∧
      (s.chip.core 31).branch = none ∧ (s.chip.core 31).lost = false ∧ ((s.chip.core 31).loop 0).active = false ∧
      ((s.chip.core 31).loop 1).active = false ∧ s.chip.coreClocked 31 = true ∧ s.chip.fetchWaits 31 = false ∧
      s.dev.fetch 31 = some b ∧ onlyCt b ∧ ctOp b.ct = 0x01 ∧ isSteward 31 = false) ∧
    ∃ (s : State) (f g : Flight), (s.chip.core 31).flight = [f, g] ∧ f.due ≤ (s.chip.core 31).issued ∧
      g.due ≤ (s.chip.core 31).issued ∧ f.dest ≠ g.dest := by
  unfold flightsDue onlyCt
  exact ⟨⟨sr [(Reg.CTRL (pgMEC 31), 1)], by decide⟩, ⟨sr [(Reg.CTRL (pgMEC 31), 5)], by decide⟩,
    ⟨sr [(Reg.CLKPWR_PSTAT, 1)], by decide⟩,
    ⟨sB (bCt 0) (fun x => { x with pc := 0xFFF }) (·.wr (Reg.MEC_BRK 31) 0x8000_0FFF), by decide⟩,
    ⟨sB (bCt 0) id (·.wr (stateKey 31) 4), by decide⟩,
    ⟨sB (bCt (ctWord 0x17 0)) (fun x => { x with flight := [{ due := 3, dest := .a 7, val := 1 }] }) (·.wr (stateKey 31) 4),
      bCt (ctWord 0x17 0), by decide⟩,
    ⟨sB (bCt (ctWord 1 0)) id (·.wr (stateKey 31) 4), bCt (ctWord 1 0), by decide⟩,
    ⟨sB (bCt 0) (fun x => { x with flight := [{ due := 0, dest := .d 1, val := 1 }, { due := 0, dest := .flag 4, val := 1 }] }),
      { due := 0, dest := .d 1, val := 1 }, { due := 0, dest := .flag 4, val := 1 }, by decide⟩⟩

/-- A read of MEC 31 or Steward 1 at core address `a` that waits, with `rest` after it. -/
def accAt (a : Word) : RemoteAccess := { acc31 with addr := a }
def accW (a : Word) (v : Word) : RemoteAccess := { pc := 0, addr := a, write := true, data := [v], dests := [], due := 0 }
def sRem31 (l : List RemoteAccess) (f : Chip → Chip := id) : State :=
  sB (bCt 0) (fun x => { x with hold := .remote l none }) (fun c => f (c.wr (stateKey 31) 3))
def sRem33 (l : List RemoteAccess) : State :=
  sS (bCt 0) (fun x => { x with hold := .remote l none }) (fun c => c.wr (stateKey 33) 3)

set_option maxRecDepth 20000 in
theorem witness_RegisterWindowAndRemoteResponses_2 :
    (∀ m : Bool, ∃ (s : State) (a : RemoteAccess) (p : Nat), (s.chip.core 31).hold = .remote [a] none ∧
      (s.chip.core 31).orphans = [] ∧ s.chip.coreState 31 = 3 ∧ (s.chip.core 31).step = false ∧
      s.chip.remoteAddr 31 a.addr.toNat = some p ∧ s.chip.mustWait (corePort 31) 0 a.write [p] = m) ∧
    (∃ (s : State) (a : RemoteAccess) (p : Nat), (s.chip.core 31).hold = .remote [a] none ∧
      (s.chip.core 31).orphans = [] ∧ s.chip.coreState 31 = 3 ∧ (s.chip.core 31).step = false ∧
      s.chip.remoteAddr 31 a.addr.toNat = some p ∧ s.chip.mustWait (corePort 31) 0 a.write [p] = false ∧ p % 4 = 0 ∧
      inBanks p 4 ∧ s.chip.bankOn (bankOfAddr p) = true ∧ a.write = false ∧ a.dests.length = 1) ∧
    (∃ (s : State) (a : RemoteAccess) (rest : List RemoteAccess) (p : Nat), (s.chip.core 31).hold = .remote (a :: rest) none ∧ rest ≠ [] ∧
      (s.chip.core 31).orphans = [] ∧ s.chip.coreState 31 = 3 ∧ (s.chip.core 31).step = false ∧
      s.chip.remoteAddr 31 a.addr.toNat = some p ∧ s.chip.mustWait (corePort 31) 0 a.write [p] = false ∧ p % 4 = 0 ∧
      inBanks p 4 ∧ s.chip.bankOn (bankOfAddr p) = true ∧ a.write = true ∧ a.data.length = 1 ∧ a.dests = [] ∧ s.mem.wf = true) ∧
    (∃ (s : State) (a : RemoteAccess) (e : Nat), (s.chip.core 31).hold = .remote [a] none ∧ (s.chip.core 31).orphans = [] ∧
      s.chip.coreState 31 = 3 ∧ (s.chip.core 31).step = false ∧ s.chip.remoteAddr 31 a.addr.toNat = some e ∧
      s.chip.region e = .hole ∧ s.chip.mustWait (corePort 31) 0 a.write [e] = false) ∧
    (∀ l ∈ [[], [accAt 0x70_0000]], ∃ (s : State) (a : RemoteAccess), (s.chip.core 33).hold = .remote (a :: l) none ∧
      (s.chip.core 33).orphans = [] ∧ s.chip.coreState 33 = 3 ∧ (s.chip.core 33).step = false ∧
      s.chip.remoteAddr 33 a.addr.toNat = none) := by
  unfold inBanks
  refine ⟨fun m => ⟨sRem31 [accAt 0x2000_0100] (fun c => if m then { c with mtx := { mtxReset with wait := [{ tPart 0 with master := 3 }] } } else c),
      accAt 0x2000_0100, 0x2000_0100, by revert m; decide⟩,
    ⟨sRem31 [accAt 0x21FF_FFFC], accAt 0x21FF_FFFC, 0x21FF_FFFC, by decide⟩,
    ⟨sRem31 [accW 0x2000_0000 7, accAt 0x2000_0000], accW 0x2000_0000 7, [accAt 0x2000_0000], 0x2000_0000, by decide⟩,
    ⟨sRem31 [accAt 0x5000_0000], accAt 0x5000_0000, 0x5000_0000, by decide⟩,
    fun l h => ⟨sRem33 (accAt 0xF_FFFC :: l), accAt 0xF_FFFC, ?_⟩⟩
  revert l h; decide

theorem witness_CrosspointTimeoutKeepsTheSumExact_2 :
    (∃ s : State, s.chip.quiet = true) ∧
    ∃ (s : State) (g : Word), (s.chip.xp (64 * 31 + 63)).pend = some g ∧ s.chip.quiet = false ∧ s.chip.freeze pgDMIX = false :=
  ⟨⟨sr [(Reg.CLKPWR_PSTAT, 1)], by decide⟩, ⟨sXp 2047 0x7FFF_FFFF [(Reg.CTRL pgDMIX, 1)], 0x7FFF_FFFF, by decide⟩⟩

theorem witness_StrobesPlayTheSelectedSources_2 :
    (∃ (s : State) (t : Word), s.chip.tickRuns = true ∧ s.chip.tick.audios = 0 ∧ s.chip.tick.named = some t ∧
      before s.chip.tb.short t = true) ∧
    (∃ (s : State) (t : Word), s.chip.tickRuns = true ∧ s.chip.tick.audios = 0 ∧ s.chip.tick.named = some t ∧
      before s.chip.tb.short t = false ∧ before s.chip.tb.short (s.chip.tick.enAt + 64) = false) ∧
    ∃ s : State, s.chip.tickRuns = true ∧ s.chip.tick.audios ≠ 0 :=
  ⟨⟨sPhase 1 fun c => { c with tick := { c.tick with named := some 1 } }, 1, by decide⟩,
    ⟨sPhase 1 fun c => { c with tick := { c.tick with named := some 0, enAt := 0xFFFF_FFC0 } }, 0, by decide⟩,
    ⟨sPhase 1 fun c => { c with tick := { c.tick with audios := 1 } }, by decide⟩⟩

theorem witness_SerialPortFramesAreDelivered_2 :
    (∀ e : FrameEdge, ∃ (s : State) (x : SapSt), x = s.chip.sapSt 15 ∧ s.chip.en (pgSAP 15) = true ∧ s.chip.idleAck (pgSAP 15) = false ∧
      x.lost = false ∧ x.back = false ∧ x.inFin = 32 ∧ s.chip.rateMismatch 15 = false ∧ s.chip.sapAsync 15 = false ∧
      feedEn (s.chip.rd (Reg.SAP_QIN 15)) = false ∧ s.chip.rd (Reg.SAP_NA_NOW 15) = 0 ∧ s.chip.sapDataW 15 ≤ s.chip.sapSlotW 15 ∧
      x.edge = e ∧ s.chip.tickRuns = true ∧ s.chip.tick.idx = 1) ∧
    (∃ s : State, s.chip.en (pgSAP 15) = true ∧ s.chip.idleAck (pgSAP 15) = true) ∧
    (∃ (s : State) (wr : List (Word × Word)), ∀ e ∈ wr, 2000000000 ≤ (s.chip.now - e.1).toNat * s.chip.sapBclk 15) ∧
    (∃ (s : State) (wr : List (Word × Word)) (e : Word × Word) (t : List (Word × Word)), wr = e :: t ∧
      (s.chip.now - e.1).toNat * s.chip.sapBclk 15 < 2000000000) ∧
    (∃ s : State, s.chip.sapMaster 15 = true) ∧ (∃ s : State, (s.chip.sapSt 15).lost = true) ∧
    (∃ s : State, s.chip.en (pgSAP 15) = true ∧ (s.chip.sapSt 15).lost = true ∧ s.chip.pstate < 2 ∧ (s.chip.sapSt 15).inK = 32) :=
  ⟨fun e => ⟨(sSap [(Reg.CTRL (pgSAP 15), 1)] fun x => { x with edge := e }).chipTo
      { (sSap [(Reg.CTRL (pgSAP 15), 1), (Reg.TICK_PHASE, 1)] fun x => { x with edge := e }).chip with
        tick := { tickReset with on := true, idx := 1 } }, { sapReset with edge := e }, by cases e <;> decide⟩,
    ⟨sr [(Reg.CTRL (pgSAP 15), 0x15), (Reg.STAT (pgSAP 15), 2)], by decide⟩, ⟨State.reset, [], by simp⟩,
    ⟨State.reset, [(0, 1)], (0, 1), [], by decide⟩, ⟨sr [(Reg.SAP_FMT 15, 0x1000)], by decide⟩,
    ⟨sSap [] fun x => { x with lost := true }, by decide⟩,
    ⟨sSap [(Reg.CTRL (pgSAP 15), 1)] fun x => { x with lost := true, inK := 32 }, by decide⟩⟩

theorem witness_OutputFramesObeyMaskTrimAndMutePath_2 :
    (∃ s : State, s.chip.aesTx 3 = false) ∧
    (∃ s : State, s.chip.en (pgSAP 15) = true ∧ s.chip.idleAck (pgSAP 15) = false ∧ (s.chip.sapSt 15).lost = false ∧
      (s.chip.sapSt 15).back = false ∧ s.chip.en pgDMIX = false ∧ (s.chip.sapSt 15).edge = .received) ∧
    (∃ (s : State) (j : Nat), s.chip.quiet = true ∧ s.chip.en pgDMIX = true ∧ s.chip.en (pgSAP 15) = true ∧
      s.chip.idleAck (pgSAP 15) = false ∧ (s.chip.sapSt 15).lost = false ∧ (s.chip.sapSt 15).back = false ∧
      (s.chip.sapSt 15).due = [] ∧ (s.chip.sapSt 15).outFin = 32 ∧ s.chip.dmixDriver 15 0 = some j) :=
  ⟨⟨State.reset, by decide⟩, ⟨sSap [(Reg.CTRL (pgSAP 15), 1)] fun x => { x with edge := .received }, by decide⟩,
    ⟨(sr [(Reg.CTRL (pgSAP 15), 1), (Reg.CTRL pgDMIX, 1), (Reg.CLKPWR_PSTAT, 1)]).chipTo
      { (sr [(Reg.CTRL (pgSAP 15), 1), (Reg.CTRL pgDMIX, 1), (Reg.CLKPWR_PSTAT, 1)]).chip with
        dmix := { dmixReset with outCfg := [(0, 0xF001)] } }, 0, by decide⟩⟩

set_option maxRecDepth 20000 in
theorem witness_AesReceiversAndAsrcGroups_2 :
    (∃ (s : State) (f : AesFrame) (x : AesSt), x = s.chip.aesSt 3 ∧ s.chip.aesRx 3 = true ∧ s.chip.aesSync 3 = true ∧
      f.valid = true ∧ x.back = false ∧ x.inFin = 32 ∧ s.chip.aesMuted 3 = false ∧ s.chip.rdb (Reg.AES_CFG 3) 4 = false ∧
      f.slip = .none ∧ feedEn (s.chip.rd (Reg.AES_RXQ 3)) = false ∧ f.a.parityErr = false) ∧
    (∃ s : State, s.chip.aesRx 3 = false) ∧
    (∃ (s : State) (x : AesSt), x = s.chip.aesSt 3 ∧ s.chip.aesRx 3 = true ∧ (look [] x.cs 0).length ≠ 192) ∧
    (∃ (s : State) (x : AesSt), x = s.chip.aesSt 3 ∧ s.chip.aesRx 3 = true ∧ (look [] x.cs 0).length = 192 ∧
      ((look [] x.cs 0)[0]?).getD false = false ∧ ((look [] x.cs 1)[0]?).getD false = false) ∧
    (∃ s : State, (s.chip.aesSt 3).commit = true ∧ s.chip.aesTx 3 = true ∧ (s.chip.aesSt 3).frame = 0) ∧
    (∃ s : State, s.chip.aesTx 3 = true ∧ (s.chip.aesSt 3).frame ≠ 0) ∧
    (∃ (s : State) (ratio : Word), s.chip.asrcOn 7 = true ∧ ratio.toNat < 2 ^ 21 ∧ s.chip.rdb (Reg.ASRC_G_STAT 7) 0 = true) ∧
    (∃ s : State, s.chip.asrcOn 7 = false) ∧ (∃ s : State, s.chip.rdb (Reg.ASRC_G_STAT 7) 0 = false) :=
  ⟨⟨sr [(Reg.CTRL (pgAES 3), 1), (Reg.AES_CFG 3, 0x3), (Reg.AES_RXSTAT 3, 0x177_0001)], fAes false false, aesReset, by decide⟩,
    ⟨State.reset, by decide⟩, ⟨sAes [(Reg.CTRL (pgAES 3), 1), (Reg.AES_CFG 3, 0x3)] id, aesReset, by decide⟩,
    ⟨sAes [(Reg.CTRL (pgAES 3), 1), (Reg.AES_CFG 3, 0x3)] fun x => { x with cs := [(0, List.replicate 192 false)] },
      { aesReset with cs := [(0, List.replicate 192 false)] }, by decide⟩,
    ⟨sAes [(Reg.CTRL (pgAES 3), 1), (Reg.AES_CFG 3, 0x3)] fun x => { x with commit := true }, by decide⟩,
    ⟨sAes [(Reg.CTRL (pgAES 3), 1), (Reg.AES_CFG 3, 0x3)] fun x => { x with frame := 191 }, by decide⟩,
    ⟨sr [(Reg.CTRL pgASRC, 1), (Reg.ASRC_G_CFG 7, 1), (Reg.ASRC_G_STAT 7, 1)], 0x1F_FFFF, by decide⟩, ⟨State.reset, by decide⟩,
    ⟨State.reset, by decide⟩⟩

theorem witness_JackEventsAndClasses_2 :
    (∃ (s : State) (det : Bool), s.chip.jackOn 1 = true ∧ (det == s.chip.rdb Reg.JACK_CFG 20) = s.chip.jackIn 1 ∧
      s.chip.jackIn 1 = true ∧ (s.chip.jackSt 1).busy = false) ∧
    (∃ (s : State) (det : Bool), s.chip.jackOn 1 = true ∧ det = s.chip.rdb Reg.JACK_CFG 20 ∧ s.chip.jackIn 1 = true ∧
      (s.chip.jackSt 1).busy = true) ∧
    (∃ s : State, s.chip.jackOn 1 = false) ∧ (∃ s : State, s.chip.jackOn 1 = true ∧ (s.chip.jackSt 1).busy = false) ∧
    (∃ s : State, s.chip.jackOn 1 = true ∧ (s.chip.jackSt 1).busy = true ∧ 8 ≤ (s.chip.jackSt 1).sets ∧
      (s.chip.jackSt 1).rounds.length = 2) ∧ bit 1 1 = false ∧
    (∀ k ∈ [0, 1, 2, 3], ∃ s : State, s.chip.buttonsOn 1 = true ∧ (s.chip.jackSt 1).code = k + 1 ∧
      s.chip.rdf (Reg.JACK_STAT 1) 7 4 = 0 ∧ s.chip.jack.evts.length < 16) :=
  ⟨⟨sJack (jl ++ [(Reg.JACK_STAT 1, 1)]) id, true, by decide⟩,
    ⟨sJack (jl ++ [(Reg.JACK_STAT 1, 1)]) fun x => { x with jacks := [(1, { jackChanReset with busy := true })] }, true, by decide⟩,
    ⟨State.reset, by decide⟩, ⟨sJack jl id, by decide⟩,
    ⟨sJack jl fun x => { x with jacks := [(1, { jackChanReset with busy := true, sets := 8, rounds := [1, 2] })] }, by decide⟩, by decide,
    fun k h => ⟨sJack jb fun x => { x with jacks := [(1, { jackChanReset with code := k + 1 })] }, by revert k h; decide⟩⟩

theorem witness_AsterSelectsAndHolds_2 :
    (∃ s : State, s.chip.refEn 11 = true ∧ s.chip.refFed 11 = true) ∧ (∃ s : State, s.chip.refFed 4 = false) ∧
    (∃ s : State, s.chip.refEn 7 = true) ∧
    (∃ (s : State) (r : Fin 12), r.val = 7 ∧ steadyOn 11 s.chip ∧ s.chip.refEn 7 = false) ∧
    (∃ (s : State) (r : Fin 12), s.chip.aster.recal = false ∧ s.chip.rdb Reg.ASTER_REFSEL 8 = false ∧ s.chip.aster.sel = some r.val ∧
      (∀ m, m < 12 → m ≠ r.val → s.chip.refQual m = false) ∧ s.chip.asterRail = false ∧ s.chip.asterState = 3 ∧
      s.chip.aster.build = false) ∧
    (∃ s : State, ∃ r0, steadyOn r0 s.chip) ∧
    ∀ f ∈ [400, 399], ∀ v ∈ [1, 3], ∃ (s : State) (m : AsterMeas), steadyOn 11 s.chip ∧ m.offsets = [] ∧ s.chip.asterState = v ∧
      s.chip.aster.build = false ∧ s.chip.refEn 10 = false ∧ s.chip.freeze pgASTER = false ∧
      s.chip.ivOf (m.ref.map (·.val)) 11 = true ∧ s.chip.ivFast (m.ref.map (·.val)) = decide (f = 400) ∧ 100 ≤ s.chip.slewRate ∧
      (s.chip.rd Reg.ASTER_FOFS).toInt.natAbs + s.chip.slewRate / 100 < 200000 ∧
      (s.chip.phaseError 11 m.phErr).natAbs ≤ s.chip.rdf Reg.ASTER_LOCK 15 0 := by
  unfold steadyOn
  exact ⟨⟨sr [(Reg.ASTER_REF_CFG 11, 1)], by decide⟩, ⟨State.reset, by decide⟩, ⟨sr [(Reg.ASTER_REF_CFG 7, 1)], by decide⟩,
    ⟨sAst 11 2 [], 7, by decide⟩, ⟨sAst 11 3 [], 11, by decide⟩, ⟨sAst 11 2 [], 11, by decide⟩,
    fun f hf v hv => ⟨sAst 11 v [(Reg.ASTER_LOCK, 0x2_000A), (Reg.ASTER_REF_NOM 11, word f)], { offsets := [], phErr := -10, ref := some 11 },
      by revert v hv f hf; decide⟩⟩

theorem witness_AsterCommandsAndFrameOutput_2 :
    (∃ s : State, s.chip.aster.recal = false) ∧
    (∃ s : State, s.chip.following = false ∧ s.chip.asterState ≠ 0) ∧ (∃ (s : State) (b : Bool), s.chip.asterRail = b) ∧
    (∀ v ∈ [0x10, 0x12], ∃ (s : State) (r : Nat) (c0 : Chip), c0 = s.chip.wrb Reg.ASTER_STATE 4 false ∧ steadyOn r c0 ∧
      s.chip.asterRail = true ∧ (s.chip.following = true ∨ s.chip.asterState = 0)) ∧
    (∃ s : State, s.chip.aster.due = none) ∧
    (∀ b : Bool, ∃ (s : State) (t : Word), s.chip.aster.due = some t ∧ s.chip.rdb Reg.FRAME_CFG 0 = b) ∧
    (∃ (s : State) (t : Word), s.chip.aster.due = some t ∧ s.chip.tick.on = true ∧ s.chip.tickRuns = false ∧
      s.chip.rdf Reg.TICK_CFG 9 8 = 2 ∧ s.chip.tick.named = none) := by
  unfold steadyOn
  exact ⟨⟨State.reset, by decide⟩, ⟨sr [(Reg.ASTER_STATE, 4)], by decide⟩, ⟨State.reset, false, by decide⟩,
    fun v h => ⟨sAst 11 v [], 11, (sAst 11 v []).chip.wrb Reg.ASTER_STATE 4 false, rfl, by revert v h; decide⟩, ⟨State.reset, by decide⟩,
    fun b => ⟨(sr [(Reg.FRAME_CFG, if b then 1 else 0)]).chipTo
      { (sr [(Reg.FRAME_CFG, if b then 1 else 0)]).chip with aster := { asterReset with due := some 9 } }, 9, by revert b; decide⟩,
    ⟨sPhase 0 fun c => { c.wr Reg.TICK_CFG 0x203 with aster := { asterReset with due := some 9 } }, 9, by decide⟩⟩

theorem witness_LanesFollowTheirSignal_2 :
    (∃ s : State, s.chip.en (pgLANE 9) = true) ∧ (∃ s : State, 2 ≤ s.chip.pstate) ∧
    (∃ (s : State) (f : Word), s.chip.laneState 9 ≠ 3 ∧ f.toInt.natAbs ≤ 30000) ∧ (∃ s : State, 4 ≤ s.chip.laneState 9) ∧
    (∃ s : State, s.chip.laneState 9 = 5) ∧ (∃ s : State, s.chip.laneState 9 = 4) ∧
    (∀ b : Bool, ∃ (s : State) (hdr h : BitVec 2), s.chip.rdb (Reg.LANE_CFG 9) 4 = b ∧ s.chip.laneState 9 = 4 ∧
      h = (if s.chip.rdb (Reg.LANE_CFG 9) 4 then ~~~hdr else hdr) ∧ (h = 0 ∨ h = 3) ∧ s.chip.freeze (pgLANE 9) = false) ∧
    (∃ s : State, s.chip.rdb (Reg.LANE_CFG 9) 2 = false ∧ s.chip.en (pgLANE 9) = false) :=
  ⟨⟨sr [(Reg.CTRL (pgLANE 9), 1)], by decide⟩, ⟨sr [(Reg.CLKPWR_PSTAT, 2)], by decide⟩, ⟨sLane 9 2 [], 30000, by decide⟩,
    ⟨sLane 9 4 [], by decide⟩, ⟨sLane 9 5 [], by decide⟩, ⟨sLane 9 4 [], by decide⟩,
    fun b => ⟨sLane 9 4 [(Reg.LANE_CFG 9, if b then 0x10 else 0)], 0, if b then 3 else 0, by revert b; decide⟩,
    ⟨sr [(Reg.LANE_CFG 9, 0)], by decide⟩⟩

set_option maxRecDepth 20000 in
theorem witness_LaneIdleAndIrisScans_2 :
    (∃ s : State, s.chip.rdb (Reg.LANE_CFG 7) 1 = false) ∧ (∃ s : State, s.chip.autoIdle 7 = false ∧ (s.chip.lane 7).fast = true) ∧
    (∃ s : State, s.chip.irisRuns = false) ∧ (∃ s : State, 256 ≤ s.chip.iris.length) :=
  ⟨⟨sr [(Reg.LANE_CFG 7, 0)], by decide⟩, ⟨sLane 7 0x45 [] fun x => { x with fast := true }, by decide⟩, ⟨State.reset, by decide⟩,
    ⟨st fun c => { c with iris := List.replicate 256 9 }, by decide⟩⟩

/-- Lane 3 LOCKED beside the registers of port 3. -/
def ell : List (Nat × Word) := el ++ [(Reg.LANE_STAT 3, 5)]

/-- The same frame with its launch time not reached. -/
def txL : EthTx := { txF (some 5) with due := false, atHead := false }

theorem witness_EthernetRingsGatesAndPauses_2 :
    (∃ s : State, s.chip.ringEn 3 true 15 = true) ∧ (∃ s : State, (s.chip.ethSt 3).list = none) ∧ (∃ s : State, (s.chip.ethSt 3).armed = none) ∧
    (∃ (s : State) (g : GateList) (x : EthSt), x = s.chip.ethSt 3 ∧ x.list = some g ∧ x.entry + 1 < g.len ∧
      g.cycle ≤ (x.entryAt - g.start).toNat + s.chip.gateInterval 3 x.entry) ∧
    (∀ f ∈ [(512, 1, 1000), (512, 1000000000, 1001)], ∃ s : State, (s.chip.ethSt 3).armed = none ∧ s.chip.rdf (Reg.ETH_GCL_LEN 3) 9 0 = f.1 ∧
      (s.chip.rd (Reg.ETH_GCL_CYCLE 3)).toNat = f.2.1 ∧ s.chip.rd (Reg.ETH_GCL_BASE 3) = word f.2.2) :=
  ⟨⟨sr [(ringKey 3 true 15 0x08, 1)], by decide⟩, ⟨State.reset, by decide⟩, ⟨State.reset, by decide⟩,
    ⟨sEth [] fun x => { x with list := some { gates9 0 with cycle := 1 } }, { gates9 0 with cycle := 1 },
      { ethReset with list := some { gates9 0 with cycle := 1 } }, by decide⟩,
    fun f h => ⟨sEth [(Reg.ETH_GCL_LEN 3, word f.1), (Reg.ETH_GCL_CYCLE 3, word f.2.1), (Reg.ETH_GCL_BASE 3, word f.2.2)], by
      revert f h; decide⟩⟩

set_option maxRecDepth 20000 in
theorem witness_EthernetFramesMove_2 :
    (∃ s : State, s.mem.wf = true ∧ portFree (ethPort 3) 0 s.chip ∧ s.chip.laneState 3 ≠ 5) ∧
    (∀ n ∈ [63, 64], ∃ (s : State) (f : List Byte), s.mem.wf = true ∧ portFree (ethPort 3) 0 s.chip ∧ s.chip.pstate < 2 ∧
      s.chip.laneState 3 = 5 ∧ s.chip.en (pgETH 3) = true ∧ s.chip.rdb (Reg.ETH_CFG 3) 2 = true ∧ f.length = n ∧
      f.length ≤ s.chip.rdf (Reg.ETH_MAXLEN 3) 13 0 ∧ s.chip.rdb (Reg.ETH_CFG 3) 7 = false ∧
      (s.chip.ethSt 3).rxBytes + f.length ≤ 32768 ∧ beAt f 12 2 ≠ 0x8808 ∧ s.chip.ethAccepts 3 f = false) ∧
    (∃ (s : State) (f : List Byte), s.mem.wf = true ∧ portFree (ethPort 3) 0 s.chip ∧ s.chip.pstate < 2 ∧
      s.chip.laneState 3 = 5 ∧ s.chip.en (pgETH 3) = true ∧ s.chip.rdb (Reg.ETH_CFG 3) 2 = true ∧
      64 ≤ f.length ∧ f.length ≤ s.chip.rdf (Reg.ETH_MAXLEN 3) 13 0 ∧ (s.chip.ethSt 3).rxBytes + f.length ≤ 32768 ∧
      beAt f 12 2 = 0x8808 ∧ beAt f 14 2 = 1 ∧ s.chip.rdb (Reg.ETH_CFG 3) 8 = true ∧ (s.chip.ethSt 3).sending = none ∧
      (s.chip.ethSt 3).strmOut = none) ∧
    (∀ b : Bool, ∃ (s : State) (f : List Byte), s.mem.wf = true ∧ portFree (ethPort 3) 0 s.chip ∧ s.chip.pstate < 2 ∧
      s.chip.laneState 3 = 5 ∧ s.chip.en (pgETH 3) = true ∧
      s.chip.rdb (Reg.ETH_CFG 3) 2 = true ∧ 64 ≤ f.length ∧ f.length ≤ s.chip.rdf (Reg.ETH_MAXLEN 3) 13 0 ∧
      (s.chip.ethSt 3).rxBytes + f.length ≤ 32768 ∧ beAt f 12 2 ≠ 0x8808 ∧ s.chip.ethAccepts 3 f = true ∧
      s.chip.claimFrom 3 f 256 0 = none ∧ s.chip.ringEn 3 false (s.chip.rxRing 3 f) = b) ∧
    (∃ (s : State) (f : List Byte), s.chip.pstate = 0 ∧ s.chip.pwr.entry = none ∧ s.chip.laneState 0 = 5 ∧ s.chip.en (pgETH 0) = false ∧
      s.chip.ethAccepts 0 f = true ∧ s.chip.wakeFound f ≠ 0) ∧
    (∀ p : Bool, ∃ (s : State) (f : EthTx) (l : Word) (h : Nat) (irq : Bool), s.mem.wf = true ∧ portFree (ethPort 3) 0 s.chip ∧
      (s.chip.ethSt 3).head 15 = some f ∧ f.launch = some l ∧ f.due = false ∧ f.dead = 0 ∧ s.chip.ethLink 3 = true ∧
      s.chip.paused 3 (s.chip.ringTc 3 15) = p ∧ s.chip.rdb (Reg.ETH_TX_CFG 3 15) 20 = false ∧
      s.chip.gatePermits 3 (s.chip.ringTc 3 15) f.len = true ∧ (s.chip.ethSt 3).txq = [f] ∧ (s.chip.ethSt 3).sending = none ∧
      f.descs = [(h, irq)] ∧ inPacket (s.chip.descAddr 3 true 15 h + 16) 4) ∧
    (∃ (s : State) (f : EthTx) (l : Word), s.mem.wf = true ∧ portFree (ethPort 3) 0 s.chip ∧
      (s.chip.ethSt 3).head 15 = some f ∧ f.launch = some l ∧ f.due = false ∧ f.dead = 0 ∧ s.chip.ethLink 3 = true ∧
      s.chip.paused 3 (s.chip.ringTc 3 15) = true ∧ s.chip.rdb (Reg.ETH_TX_CFG 3 15) 20 = true) ∧
    (∃ (s : State) (f : EthRx) (t : List EthRx), (s.chip.ethSt 3).rxq = f :: t ∧ s.chip.idleReq (pgETH 3) = false ∧ f.ring < 16 ∧
      s.chip.ringEn 3 false f.ring = false) ∧
    (∃ (s : State) (f : EthRx) (t : List EthRx) (a : Nat), s.mem.wf = true ∧ portFree (ethPort 3) 0 s.chip ∧
      (s.chip.ethSt 3).rxq = f :: t ∧
      s.chip.idleReq (pgETH 3) = false ∧ f.ring < 16 ∧ a = s.chip.descAddr 3 false f.ring (s.chip.ringHead 3 false f.ring) ∧
      s.chip.ringHead 3 false f.ring < s.chip.ringSize 3 false f.ring ∧
      s.chip.ringTail 3 false f.ring < s.chip.ringSize 3 false f.ring ∧ s.chip.ringEn 3 false f.ring = true ∧
      s.chip.ringTail 3 false f.ring ≠ s.chip.ringHead 3 false f.ring ∧ inPacket a 24 ∧
      f.bytes.length ≤ fld (s.mem.word (a + 8)) 13 0 ∧ inPacket (numAt s.mem a 5) f.bytes.length ∧
      apart (numAt s.mem a 5) f.bytes.length a 24) ∧
    (∃ (s : State) (ctl : Word), s.mem.wf = true ∧ portFree (ethPort 3) 0 s.chip ∧ ctl = s.mem.word (s.chip.descAddr 3 true 15 0 + 8) ∧
      s.chip.en (pgETH 3) = true ∧ s.chip.ringEn 3 true 15 = true ∧ s.chip.idleReq (pgETH 3) = false ∧ (s.chip.ethSt 3).txq = [] ∧
      (s.chip.ethSt 3).sending = none ∧ s.chip.ringHead 3 true 15 = 0 ∧ s.chip.ringTail 3 true 15 = 3 ∧ bit ctl 16 = false ∧ bit ctl 17 = true) ∧
    (∃ s : State, (s.chip.ethSt 3).txq = [] ∧ (s.chip.ethSt 3).strm = [] ∧ (s.chip.ethSt 3).strmOut = none ∧ (s.chip.ethSt 3).head 15 = none) := by
  unfold inPacket apart
  exact ⟨⟨State.reset, by decide, portFree_empty rfl, by decide⟩,
    fun n h => ⟨sEth (ell ++ [(Reg.ETH_CFG 3, 6)]), frame n [8, 0], by revert n h; decide, portFree_empty rfl, by revert n h; decide⟩,
    ⟨sEth (ell ++ [(Reg.ETH_CFG 3, 0x106)]), frame 64 [0x88, 8, 0, 1], by decide, portFree_empty rfl, by decide⟩, fun b => match b with
      | true => ⟨sEth (ell ++ [(Reg.ETH_RXDEF 3, 15)]), frame 64 [8, 0], by decide, portFree_empty rfl, by decide⟩
      | false => ⟨sEth ell, frame 64 [8, 0], by decide, portFree_empty rfl, by decide⟩,
    ⟨sr [(Reg.ETH_CFG 0, 0x20), (Reg.LANE_STAT 0, 5), (Reg.ETH0_WAKE_CFG, 0xF1), (Reg.ETH0_WAKE_MASK_LO 3, 0x40)], frame 64 [8, 0], by decide⟩,
    fun b => match b with
      | true => ⟨sEth (ell ++ [(Reg.ETH_STAT 3, 9)]) fun x => { x with txq := [txL] }, txL, 5, 0, true, by decide, portFree_empty rfl, by decide⟩
      | false => ⟨sEth ell fun x => { x with txq := [txL] }, txL, 5, 0, true, by decide, portFree_empty rfl, by decide⟩,
    ⟨sEth (ell ++ [(Reg.ETH_STAT 3, 9), (Reg.ETH_TX_CFG 3 15, 0x10_0001)]) fun x => { x with txq := [txL] }, txL, 5, by decide,
      portFree_empty rfl, by decide⟩,
    ⟨sEth (el ++ [(ringKey 3 false 15 0x08, 0)]) fun x => { x with rxq := [rxF 4] }, rxF 4, [], by decide⟩,
    ⟨sEth (ell ++ [(ringKey 3 false 15 0x0C, 3)]) (fun x => { x with rxq := [rxF 60] }) desc, rxF 60, [], 0x6200_0000, by decide,
      portFree_empty rfl, by decide⟩,
    ⟨sEth (ell ++ [(ringKey 3 true 15 0x0C, 3)]) id [(0x6200_0001, 1), (0x6200_0003, 0x62), (0x6200_0008, 60), (0x6200_000A, 2)], 0x2_003C,
      by decide, portFree_empty rfl, by decide⟩,
    ⟨State.reset, by decide⟩⟩

theorem witness_ControlBusFramesAndManagement_2 :
    (∃ (s : State) (f : List Byte), s.chip.en pgCB0 = true ∧ s.chip.rdb Reg.CB0_CFG 1 = true ∧ f.length = 1523) ∧
    (∃ (s : State) (f : List Byte), s.chip.en pgCB0 = true ∧ s.chip.rdb Reg.CB0_CFG 1 = true ∧ 64 ≤ f.length ∧ f.length ≤ 1522 ∧
      s.chip.cb0Accepts f = false) ∧
    (∃ s : State, s.chip.cb0.onLine = false ∧ s.chip.cb0.backoff = none) ∧ (∃ s : State, s.chip.cb0.onLine = true ∧ s.chip.cb0.tries = 1) ∧
    (∃ s : State, s.chip.idleReq pgCB0 = true) ∧ (∃ s : State, s.chip.rdb Reg.CB0_CFG 0 = false) ∧
    (∀ b : Bool, ∃ s : State, (true && s.chip.en pgCB0 && s.chip.rdb Reg.CB0_CFG 3) = b ∧ s.chip.rdb Reg.CB0_STAT 0 = false) :=
  ⟨⟨sCb0 6 id, List.replicate 1523 0, by decide, by decide, List.length_replicate ..⟩, ⟨sCb0 2 id, 2 :: List.replicate 63 0, by decide⟩, ⟨State.reset, by decide⟩,
    ⟨sCb0 1 fun x => { x with onLine := true, tries := 1 }, by decide⟩, ⟨sr [(Reg.CTRL pgCB0, 5)], by decide⟩, ⟨State.reset, by decide⟩,
    fun b => ⟨sCb0 (if b then 9 else 1) id, by revert b; decide⟩⟩

/-- Port 0 receives, its lane LOCKED, and the streams run. -/
def sl : List (Nat × Word) := [(Reg.CTRL pgSTRM, 1), (Reg.CTRL (pgETH 0), 1), (Reg.ETH_CFG 0, 0x6E), (Reg.LANE_STAT 0, 5)]

set_option maxRecDepth 20000 in
theorem witness_StreamsEnableSendAndMerge_2 :
    (∀ n ∈ [6, 4, 3, 0x99], ∃ (s : State) (f g l : List Byte) (u : Nat) (q : BitVec 16),
      (s.chip.strmRx 0).hseq = some 5 ∧ g = f.take (f.length - 4) ∧ udpAt g = some u ∧ q = BitVec.ofNat 16 (beAt g (u + 10) 2) ∧
      q = BitVec.ofNat 16 n ∧ s.chip.rtpPayload 0 g u = some l ∧ s.chip.rdb Reg.ETH0_WAKE_CFG 0 = false ∧ s.chip.pstate < 2 ∧
      s.chip.laneState 0 = 5 ∧ s.chip.en (pgETH 0) = true ∧ s.chip.rdb (Reg.ETH_CFG 0) 2 = true ∧ 64 ≤ f.length ∧
      f.length ≤ s.chip.rdf (Reg.ETH_MAXLEN 0) 13 0 ∧ (s.chip.ethSt 0).rxBytes + f.length ≤ 32768 ∧ beAt f 12 2 ≠ 0x8808 ∧
      s.chip.ethAccepts 0 f = true ∧ s.chip.claimFrom 0 f 256 0 = some (0, false) ∧ s.chip.freeze pgSTRM = false) ∧
    (∃ (s : State) (e : BitVec 64) (ws : List Word), (s.chip.strmTx 255).ready = [(e, ws)] ∧ s.chip.strmOn true 255 = true ∧
      (s.chip.strmTx 255).rate = s.chip.rdf Reg.TICK_CFG 2 0) ∧
    (∃ s : State, (s.chip.strmTx 255).rate ≠ s.chip.rdf Reg.TICK_CFG 2 0) ∧ (∃ s : State, s.chip.strmOn true 255 = false) ∧
    (∃ (s : State) (v w : Word), w = v &&& 0x003F_0FFF ∧ s.chip.sb 0 (strmCfg true) 0 = true ∧ bit v 0 = false ∧
      setBit w 0 true = s.chip.srd 0 (strmCfg true)) ∧ (bit 3 0 = true ∧ bit 3 1 = true) :=
  ⟨fun n h => ⟨sStrm sl rx5, rtp (BitVec.ofNat 8 n),
      (rtp (BitVec.ofNat 8 n)).take 66, List.replicate 12 0, 34, BitVec.ofNat 16 n, by revert n h; decide⟩,
    ⟨sStrm sl fun x => { x with regs := [(0xF_F080, 0x11)], tx := [(255, { strmTxReset with ready := [(7, [])], rate := 3 })] }, 7, [], by decide⟩,
    ⟨sStrm [] fun x => { x with tx := [(255, { strmTxReset with rate := 7 })] }, by decide⟩, ⟨State.reset, by decide⟩,
    ⟨sStrm [] fun x => { x with regs := [(0x080, 0x11)] }, 0x10, 0x10, by decide⟩, by decide⟩

set_option maxRecDepth 20000 in
theorem witness_StemLinksSendAndReceiveFrames_2 :
    (∃ s : State, s.chip.autoIdle 7 = false) ∧ bit (0 : Word) 0 = false ∧ (∃ s : State, s.chip.stemCfg 3 2 = false) ∧
    (∃ (s : State) (f : StemFrame), s.chip.laneState 7 ≠ 5 ∧ f.broken = false) ∧
    (∃ s : State, s.chip.en (pgSTM 3) = true ∧ s.chip.stemCfg 3 2 = true ∧ s.chip.laneState 7 = 5) ∧
    (∃ (s : State) (x : StemSt) (f : StemFrame), x = s.chip.stemSt 3 ∧ s.chip.en (pgSTM 3) = true ∧ s.chip.stemCfg 3 2 = true ∧
      s.chip.laneState 7 = 5 ∧
      stemFWhole f = true ∧ stemCrc f.header f.control f.payload = f.crc ∧ stemFFld f 47 45 = x.rate ∧
      stemFFld f 44 42 = x.nlog ∧ stemFFld f 51 51 = 0 ∧ stemFFld f 50 50 = 0 ∧ s.chip.stemLink 3 = 2 ∧ x.ofs = none ∧
      (∀ u, x.last = some u → before u (stemFTick f) = true) ∧
      (∀ u, x.gapFrom = some u → stemFTick f = u + 1) ∧ s.mem.wf = true) ∧
    (∃ (s : State) (x : StemSt) (t : Word) (ws : List Word) (r : List (Word × List Word)), x = s.chip.stemSt 3 ∧
      x.full = (t, ws) :: r ∧ s.chip.idleReq (pgSTM 3) = false ∧ s.chip.en (pgSTM 3) = true ∧ s.chip.stemCfg 3 1 = true ∧
      s.chip.tickRuns = true ∧ s.chip.stemMismatch 3 = false ∧ x.rate < 8 ∧ x.nlog < 8 ∧ s.chip.stemIdles 3 1 = true ∧
      s.chip.en (pgLANE 7) = true ∧ s.chip.rdb (Reg.LANE_CFG 7) 1 = true) :=
  ⟨⟨State.reset, by decide⟩, by decide, ⟨State.reset, by decide⟩, ⟨State.reset, stemF 0 0 false, by decide⟩,
    ⟨sStem [(Reg.STM_CFG 3, 4)] id, by decide⟩,
    ⟨sStem [(Reg.STM_CFG 3, 4), (Reg.STM_STAT 3, 2)] fun x => { x with last := some 4, gapFrom := some 4 },
      { stemReset with last := some 4, gapFrom := some 4 },
      stemF 0 (stemCrc (stemF 0 0 false).header (List.replicate 16 0) []) false, by decide, by decide, by decide, by decide, by decide,
      by decide, by decide, by decide, by decide, by decide, by decide, by decide,
      fun u h => by cases Option.some.inj h; decide, fun u h => by cases Option.some.inj h; decide, by decide⟩,
    ⟨sStem [(Reg.STM_CFG 3, 0x12), (Reg.TICK_CFG, 0), (Reg.TICK_PHASE, 1), (Reg.CTRL (pgLANE 7), 1), (Reg.LANE_CFG 7, 0x26)]
      fun x => { x with full := [(5, [7])] }, { stemReset with full := [(5, [7])] }, 5, [7], [], by decide⟩⟩

set_option maxRecDepth 20000 in
theorem witness_SpeakerChannelsChangeState_2 :
    (∃ s : State, s.chip.fltLow 15 = false) ∧ (∃ s : State, s.chip.fltLow 15 = true) ∧
    (∀ k ∈ [1, 7], ∃ s : State, s.chip.spkState 15 = k ∧ s.chip.idleReq (pgSPK 15) = true) ∧
    (∃ (s : State) (f : Nat), s.chip.spkState 15 = 1 ∧ s.chip.idleReq (pgSPK 15) = false ∧ s.chip.spkHeld 15 = false ∧
      s.chip.spkInvalid 15 true = none ∧ s.chip.spkFreq 15 = some f) ∧
    (∃ s : State, s.chip.spkState 15 = 4 ∧ s.chip.fltLow 15 = false) ∧ bit (0 : Word) 0 = false :=
  ⟨⟨State.reset, by decide⟩, ⟨sSpk 1 [(Reg.SPK_STAT 15, 0x101)], by decide⟩,
    fun k h => ⟨sSpk k [(Reg.CTRL (pgSPK 15), 5)], by revert k h; decide⟩,
    ⟨sSpk 1 [(Reg.SPK_CFG 15, 600)], 600, by decide⟩, ⟨sSpk 4 [], by decide⟩, by decide⟩

set_option maxRecDepth 20000 in
theorem witness_FoxgloveStatesFollowCausesAndCommands_2 :
    (∃ s : State, s.chip.windowOpen = true ∧ s.chip.ledger.advanced = true) ∧ (∃ s : State, s.chip.fg.fed = true) ∧
    (∃ s : State, s.chip.paired = false) ∧
    (∃ s : State, s.chip.fg.copyA = s.chip.sealedWords ∧ s.chip.fg.copyB = s.chip.sealedWords) ∧ bit (0 : Word) 0 = false :=
  ⟨⟨sPhase 2 fun c => { c with ledger := { ledgerReset with advanced := true } }, by decide⟩,
    ⟨sFg 1 [] fun x => { x with fed := true }, by decide⟩, ⟨State.reset, by decide⟩,
    ⟨st fun c => { c with fg := { fgReset with copyA := chipReset.sealedWords, copyB := chipReset.sealedWords } }, rfl, rfl⟩, by decide⟩

set_option maxRecDepth 20000 in
theorem witness_GuardsSealTripAndClear_2 :
    (∀ b : Bool, ∃ (s : State) (x : GuardSt) (sum : Int) (n : Nat), x = s.chip.guard 535 ∧ s.chip.fgBoth = false ∧
      s.chip.tripped 535 = false ∧ x.win = some (sum, n) ∧ decide (s.chip.dcThr 535 * 2 ^ 19 * n < sum.natAbs) = b ∧
      s.chip.rdf (Reg.GUARD_G 535) 26 24 = x.dcRun) ∧
    (∃ s : State, s.chip.fgBoth = true) ∧ (∃ s : State, s.chip.tripped 535 = true) ∧
    (∃ s : State, fld (0x5EA1_0001 : Word) 31 16 = 0x5EA1 ∧ s.chip.sealed = false) ∧
    (∃ s : State, 535 / 32 = 16 ∧ bit (0 : Word) (535 % 32) = false ∧ s.chip.tripped 535 = true) :=
  ⟨fun b => ⟨sFg 1 [(Reg.GUARD_G 535, 0x0001_0000)] fun x => { x with soft := false, guards := [(535, { guardReset with win := some (if b then 524289 else 524288, 1) })] },
      { guardReset with win := some (if b then 524289 else 524288, 1) }, if b then 524289 else 524288, 1, by revert b; decide⟩,
    ⟨State.reset, by decide⟩, ⟨sFg 1 [(Reg.GUARD_TRIP 16, 0x0080_0000)], by decide⟩, ⟨State.reset, by decide⟩,
    ⟨sFg 1 [(Reg.GUARD_TRIP 16, 0x0080_0000)], by decide⟩⟩

/-- Marigold ACTIVE with pair 0 of queue 1023 in overload, its block withheld from Marigold. -/
def sHeld : State :=
  let c := (sPair fun x => { x with inFade := [(0, { blockFadeReset with last := [(0, 6400)] })] }).chip
  (sPair id).chipTo { c with qf := { qs := [(1023, { c.queue 1023 with withheld := true })] } }

/-- The fade of a block by its own definition, at the first word of pair 0. -/
def mgAfter (s : State) (w : Option Word) (d : Dev) : MgldSt :=
  let r := Dev.play (s.chip.pairIn 0) 8 0 0 s.chip.tickN (look blockFadeReset s.chip.mgld.inFade 0) 0 s.dev
  { s.chip.mgld with
    inFade := put s.chip.mgld.inFade 0 r.2.1
    inPos := if w.isSome then put s.chip.mgld.inPos 0 (1 % (max 1 ((s.chip.queue (s.chip.pairIn 0)).quota / s.chip.tickN) * s.chip.tickN))
      else d.chip.mgld.inPos }

set_option maxRecDepth 20000 in
theorem witness_MarigoldRolesAndRecords_2 :
    (∀ owe ∈ [0, 1], ∀ skip ∈ [0, 1], ∃ (s : State) (w : Word) (d1 : Dev) (g : MgldSt), mirrorTakes 0 (some w) g s d1 ∧
      s.chip.mgld.begun = none ∧ s.chip.en pgMGLD = true ∧ s.chip.mgldRole = 1 ∧ look 0 s.chip.mgld.owe 0 = owe ∧
      look 0 s.chip.mgld.skip 0 = skip) ∧
    (∃ (s : State) (w : Word) (d1 : Dev) (g : MgldSt), mirrorTakes 0 (some w) g s d1 ∧ s.chip.blockWithheld (s.chip.pairIn 0) 8 0 = true ∧
      s.chip.mgld.begun = none ∧ s.chip.en pgMGLD = true ∧ s.chip.mgldRole = 1) ∧
    (∃ (s : State) (d1 : Dev) (g : MgldSt), mirrorTakes 0 none g s d1 ∧ s.chip.mgld.begun = none ∧ s.chip.en pgMGLD = true ∧
      s.chip.mgldReceives = true) ∧
    (∃ (s : State) (m : Word × BitVec 16 × Byte), s.chip.mgld.begun = some m) ∧
    (∀ r ∈ [2, 3], ∀ b : Bool, ∃ s : State, s.chip.mgldRole = r ∧ s.chip.mgld.beat = b ∧ s.chip.tickRuns = true ∧
      s.chip.rdb Reg.MGLD_CFG 16 = true) ∧
    (∃ s : State, s.chip.mgldRole = 2 ∧ s.chip.mgld.beat = false ∧ s.chip.tickRuns = true ∧ s.chip.rdf Reg.MGLD_ROLE 19 16 = 15 ∧
      s.chip.rdb Reg.MGLD_CFG 16 = false) ∧
    (∀ b : Bool, ∀ e ∈ [0, 1], ∃ s : State, s.chip.mgldRole = 2 ∧ s.chip.en pgMGLD = true ∧ s.chip.mgldEpoch = e ∧
      (s.chip.tickRuns && (5 : Word) == s.chip.tick.count.setWidth 32 && decide ((s.chip.now - s.chip.mgld.edge).toNat ≤ 1000)) = b) ∧
    (∃ s : State, s.chip.idleReq pgMGLD = true) ∧
    (∀ one ready hand : Bool, ∃ (s : State) (t : BitVec 48), s.chip.mgld.recTick = some t ∧ s.chip.en pgMGLD = true ∧ s.chip.tickRuns = true ∧
      s.chip.mgldRole = 1 ∧ s.chip.idleReq pgMGLD = false ∧ banksOn s.chip ∧ one = !s.chip.bothLanes s.chip.mgld.peer.toNat ∧
      s.chip.inputsReady = ready ∧ s.chip.mgld.hand = hand ∧ s.chip.rdb Reg.MGLD_ROLE 11 = false) ∧
    (∃ (s : State) (r : MirrorRecord), s.chip.en pgMGLD = true ∧ s.chip.mgldRole = 1 ∧ s.chip.mgld.finish ≠ some r.tick) ∧
    (∃ (s : State) (r : MirrorRecord), s.chip.en pgMGLD = true ∧ s.chip.idleReq pgMGLD = false ∧ s.chip.mgldReceives = true ∧
      r.blocks ≠ r.data.length / 8) ∧
    (∃ (s : State) (r : MirrorRecord) (now : Word), now = s.chip.tick.count.setWidth 32 ∧ recordSound r s.chip ∧ s.chip.tickRuns = true ∧
      r.tick = now ∧ s.chip.windowOpen = true) ∧
    (∃ (s : State) (r : MirrorRecord) (now : Word), now = s.chip.tick.count.setWidth 32 ∧ recordSound r s.chip ∧ s.chip.tickRuns = true ∧
      before r.tick now = false ∧ r.tick = now ∧ s.chip.windowOpen = false ∧ s.chip.mgld.applied = true) ∧
    (∃ (s : State) (r : MirrorRecord), recordSound r s.chip ∧ s.chip.mgldRole = 1) ∧
    (∀ f ∈ [0, 1, 2, 3], ∃ (s : State) (r : MirrorRecord) (now : Word) (ws : List Word) (js : List (Word × Word)) (st : List Byte) (d1 : Dev),
      now = s.chip.tick.count.setWidth 32 ∧ recordSound r s.chip ∧ s.chip.tickRuns = true ∧
      r.tick = now ∧ before r.tick now = false ∧ s.chip.windowOpen = false ∧ s.chip.mgld.applied = false ∧
      recordParts r.data = (ws, js, st) ∧ d1 = js.foldl Dev.replay ((fresh s.dev).recordPush ws) ∧ d1.chip.stall = false ∧ r.flags = f) :=
  ⟨fun o ho k hk => ⟨sPair fun x => { x with owe := [(0, o)], skip := [(0, k)] }, 0, _,
      mgAfter (sPair fun x => { x with owe := [(0, o)], skip := [(0, k)] }) (some 0) State.reset.dev, by
        intro q nch k' ch n y fin hq hn hnch hk' hch hy hfin
        subst hq hn hnch hk' hch hy hfin
        refine ⟨by revert k hk; revert o ho; decide, fun h => absurd h (by revert k hk; revert o ho; decide), fun _ =>
          ⟨.served, 0, Prod.ext (by revert k hk; revert o ho; decide) (Prod.ext (by revert k hk; revert o ho; decide) rfl),
            by revert k hk; revert o ho; decide⟩, by revert k hk; revert o ho; decide, by revert k hk; revert o ho; decide,
            by revert k hk; revert o ho; decide⟩, by revert k hk; revert o ho; decide⟩,
    ⟨sHeld, word 4800, sHeld.dev, mgAfter sHeld (some 4800) State.reset.dev, by
        intro q nch k' ch n y fin hq hn hnch hk' hch hy hfin
        subst hq hn hnch hk' hch hy hfin
        refine ⟨by decide, fun _ => ⟨rfl, ?_⟩, fun h => absurd h (by decide), by decide, by decide, by decide⟩
        intro last hl
        subst hl
        decide, by decide⟩,
    ⟨sMg 2 [(Reg.MGLD_CFG, 1), (Reg.MGLD_PAIR 0, 0x3FF)], _, mgAfter (sMg 2 [(Reg.MGLD_CFG, 1), (Reg.MGLD_PAIR 0, 0x3FF)]) none State.reset.dev, by
        intro q nch k' ch n y fin hq hn hnch hk' hch hy hfin
        subst hq hn hnch hk' hch hy hfin
        refine ⟨by decide, fun h => absurd h (by decide), fun _ =>
          ⟨((sMg 2 [(Reg.MGLD_CFG, 1), (Reg.MGLD_PAIR 0, 0x3FF)]).dev.pop 1023 8 0).1, 0, Prod.ext rfl (Prod.ext (by decide) rfl), by decide⟩,
          by decide, by decide, by decide⟩, by decide⟩,
    ⟨sMg 1 [] fun x => { x with begun := some (5, 1, 2) }, (5, 1, 2), by decide⟩,
    fun r h b => ⟨sMg r [(Reg.MGLD_CFG, 0x1_0000)] fun x => { x with beat := b }, by revert b r h; decide⟩,
    ⟨sMg 2 [(Reg.MGLD_ROLE, 0xF_0002), (Reg.MGLD_CFG, 0)], by decide⟩,
    fun b e h => ⟨(sMg 2 [(Reg.MGLD_EPOCH, word e)]).chipTo
      (let c := (sMg 2 [(Reg.MGLD_EPOCH, word e)]).chip
       { c with tick := { c.tick with count := if b then 5 else 6 } }), by revert b e h; decide⟩,
    ⟨sr [(Reg.CTRL pgMGLD, 5)], by decide⟩,
    fun o r h => ⟨(sMg 1 []).chipTo
      (let c := (sMg 1 [(Reg.LANE_STAT 8, 5), (Reg.LANE_STAT 9, 5), (Reg.MGLD_CFG, 1), (Reg.MGLD_PAIR 0, 0x3FF_0000)] fun x =>
        { x with recTick := some 7, hand := h, peer := if o then 4 else 12, inputs := if r then some [] else none }).chip
       { c with qf := { qs := [(1023, { queueReset with d2 := 4 })] } }), 7,
      by unfold banksOn; revert o r h; decide⟩,
    ⟨sMg 1 [] fun x => { x with finish := some 7 }, recOf 8 0, by decide⟩,
    ⟨sMg 2 [], { recOf 0 0 with blocks := 2 }, by decide⟩,
    ⟨sMg 2 [(Reg.TICK_PHASE, 2)], recOf 0 0, 0, by unfold recordSound; decide⟩,
    ⟨sMg 2 [] fun x => { x with applied := true }, recOf 0 0, 0, by unfold recordSound; decide⟩,
    ⟨sMg 1 [] fun x => { x with finish := some 7 }, recOf 7 65535, by unfold recordSound; decide⟩,
    fun f _ => ⟨sMg 3 [], { recOf 0 0 with flags := f }, 0, [], [], [], _, by decide, ⟨by decide, by decide, rfl, (by decide : 1 = (recOf 0 0).data.length / 8), (by decide : (recOf 0 0).data.length % 8 = 0),
        .inl ⟨by decide, rfl⟩⟩,
      by decide, rfl, (by decide : before 0 0 = false), by decide, by decide, rfl, rfl, by decide, rfl⟩⟩

set_option maxRecDepth 20000 in
theorem witness_ResetsAndPowerStatesProceed_2 :
    (∃ s : State, s.chip.rdb (Reg.ST_WDOG_CFG 1) 31 = true ∧ s.chip.coreState 33 ≠ 4) ∧
    (∃ s : State, s.chip.rdb (Reg.ST_WDOG_CFG 1) 31 = true ∧ s.chip.coreState 33 = 4) ∧ (0 : Word) ≠ 0x5AFE ∧
    fld (0 : Word) 31 16 ≠ 0x5E75 ∧ bit (0x5E75_0001 : Word) 0 = true ∧
    (∀ m ∈ [2, 4], ∃ (s : State) (v : Word), s.chip.resetMap 8 = m ∧ fld v 31 16 = 0x5E75 ∧ fld v 1 0 = 1 ∧ s.chip.fuseDone = true) ∧
    (∀ b : Bool, ∃ (s : State) (x : PwrSt), x = s.chip.pwr ∧ x.held.contains 1 = true ∧ x.seq = (if b then 7 else 0) ∧ x.level = 1) ∧
    (∃ s : State, s.chip.pwr.level = 2 ∧ s.chip.heldAt 2 = false ∧ s.chip.draining 9 = true) ∧
    (∀ k ∈ [0, 1, 2, 3], ∃ (s : State) (x : PwrSt), x = s.chip.pwr ∧ x.entry = some 1 ∧ s.chip.tick.on = false ∧
      (∀ k, k < 2 → (s.chip.dramSt k).want = 0) ∧ s.chip.coreState 31 = k) ∧
    (∃ (s : State) (x : PwrSt), x = s.chip.pwr ∧ x.entry = some 1 ∧ (s.chip.dramSt 1).want = 1) ∧
    (∃ (s : State) (x : PwrSt), x = s.chip.pwr ∧ x.entry = some 0 ∧ s.chip.dramState 1 = 4 ∧ (s.chip.dramSt 1).go = true) ∧
    (∀ p ∈ [2, 3], ∃ s : State, s.chip.pstate = p ∧ s.chip.rdb Reg.CLKPWR_PSTAT 2 = false) ∧
    (∃ s : State, s.chip.pstate = 0 ∧ s.chip.pwr.entry = some 3) ∧ (∃ s : State, s.chip.pwr.waiting = none) ∧
    (∃ (s : State) (t : BitVec 16), fldS (s.chip.rd Reg.SYS_TEMP) 15 0 < fldS (s.chip.rd Reg.SYS_TEMP_WARN) 15 0 ∧
      fldS (s.chip.rd Reg.SYS_TEMP_WARN) 15 0 ≤ t.toInt) :=
  ⟨⟨sr [(Reg.ST_WDOG_CFG 1, 0x8000_0000)], by decide⟩, ⟨sr [(Reg.ST_WDOG_CFG 1, 0x8000_0000), (stateKey 33, 4)], by decide⟩, by decide, by decide,
    by decide, fun m h => ⟨sr [(Reg.FUSE_RESET_MAP, word (m * 2 ^ 21)), (Reg.FUSE_STAT, 1)], 0x5E75_0001, by revert m h; decide⟩,
    fun b => ⟨sPwr [] fun x => { x with held := [1], seq := if b then 7 else 0, level := 1 },
      { pwrReset with held := [1], seq := if b then 7 else 0, level := 1 }, by revert b; decide⟩,
    ⟨sPwr [(Reg.MTX_MP_STAT 9, 0x1_0000), (Reg.CLKPWR_PLL, 7)] fun x => { x with level := 2 }, by decide⟩,
    fun k h => ⟨sPwr [(stateKey 31, word k), (Reg.CTRL (pgMEC 31), 1)] fun x => { x with entry := some 1 }, { pwrReset with entry := some 1 }, by revert k h; decide⟩,
    ⟨(sPwr [] fun x => { x with entry := some 1 }).chipTo
      (let c := (sPwr [] fun x => { x with entry := some 1 }).chip
       { c with dram := [(1, { dramReset with want := 1 })] }), { pwrReset with entry := some 1 }, by decide⟩,
    ⟨(sPwr [(Reg.DRAM_STAT 1, 4)] fun x => { x with entry := some 0 }).chipTo
      (let c := (sPwr [(Reg.DRAM_STAT 1, 4)] fun x => { x with entry := some 0 }).chip
       { c with dram := [(1, { dramReset with go := true })] }), { pwrReset with entry := some 0 }, by decide⟩,
    fun p h => ⟨sr [(Reg.CLKPWR_PSTAT, word p)], by revert p h; decide⟩,
    ⟨sPwr [] fun x => { x with entry := some 3 }, by decide⟩, ⟨State.reset, by decide⟩, ⟨sr [(Reg.SYS_TEMP_WARN, 1)], 1, by decide⟩⟩

set_option maxRecDepth 20000 in
theorem witness_FusesBootHostPortAndFlashProceed_2 :
    (∀ b : Bool, ∃ (s : State) (a : Word) (p : Nat), s.chip.en pgHOST = true ∧ p = s.chip.rdf Reg.HOST_CFG 7 0 * 2 ^ 32 + a.toNat ∧
      s.chip.mustWait 13 0 b [p] = true) ∧
    (∃ (s : State) (a : Word) (p : Nat), s.chip.en pgHOST = true ∧ p = s.chip.rdf Reg.HOST_CFG 7 0 * 2 ^ 32 + a.toNat ∧ p % 4 ≠ 0 ∧
      s.chip.mustWait 13 0 true [p] = false ∧ s.chip.mustWait 13 0 false [p] = false) ∧
    (∀ a ∈ [0x2000_0000, 0x6000_9040, 0x0C00_0000], ∃ (s : State) (p r : Nat) (w : Word) (d1 : Dev), s.chip.en pgHOST = true ∧
      p = s.chip.rdf Reg.HOST_CFG 7 0 * 2 ^ 32 + (word a).toNat ∧ p % 4 = 0 ∧ s.chip.mustWait 13 0 true [p] = false ∧
      (r, d1) = (fresh s.dev).busWrite 13 p 4 ((List.range 4).zip (wordBytes w))) ∧
    (∀ a ∈ [0x2000_0000, 0x6000_9040, 0x0C00_0000], ∃ (s : State) (p r : Nat) (l : List Byte) (d1 : Dev), s.chip.en pgHOST = true ∧
      p = s.chip.rdf Reg.HOST_CFG 7 0 * 2 ^ 32 + (word a).toNat ∧ p % 4 = 0 ∧ s.chip.mustWait 13 0 false [p] = false ∧
      (r, l, d1) = Dev.busRead 13 p 4 { s.dev with chip := { s.chip with rwords := [], stall := false } }) ∧
    (∃ (s : State) (a w : Word) (s1 : State), s.chip.en pgHOST = true ∧ s.chip.mustWait 13 0 true [a.toNat] = false ∧
      exec (.hostWriteWords a [w]) s = .next s1 ∧ s1.chip.en pgHOST = true) ∧
    (∃ (s : State) (k : BootChunk), s.chip.pwr.boot.waits = true ∧ s.chip.bootSel = 3 ∧ k.good = false) ∧
    (∃ s : State, s.chip.pwr.bootq = [] ∧ s.chip.rdb Reg.BOOTQ_XFER 9 = true ∧ s.chip.rdb Reg.BOOTQ_STAT 0 = true ∧
      0 < (s.chip.rdf Reg.BOOTQ_LEN 23 0 + 3) / 4) ∧
    (∀ f ∈ [2, 3], ∃ v : Word, bit v 16 = true ∧ fld v 11 10 = f) :=
  ⟨fun b => ⟨(sPwr [(Reg.CTRL pgHOST, 1)] fun x => { x with blk := [(pgTICK, 2)] }), 0x6000_9040, 0x6000_9040, by revert b; decide⟩,
    ⟨sr [(Reg.CTRL pgHOST, 1)], 1, 1, by decide⟩,
    fun a h => ⟨sr [(Reg.CTRL pgHOST, 1)], a, _, 7, _, by decide, by revert a h; decide, by revert a h; decide, by revert a h; decide, rfl⟩,
    fun a h => ⟨sr [(Reg.CTRL pgHOST, 1)], a, _, _, _, by decide, by revert a h; decide, by revert a h; decide, by revert a h; decide, rfl⟩,
    ⟨sr [(Reg.CTRL pgHOST, 1)], 0x2000_0000, 7, after (exec (.hostWriteWords 0x2000_0000 [7]) (sr [(Reg.CTRL pgHOST, 1)])), by decide, by decide,
      rfl, by decide⟩,
    ⟨sPwr [(Reg.SYS_BOOT, 3)] fun x => { x with boot := { bootReset with waits := true } }, { index := 0, bytes := [], good := false }, by decide⟩,
    ⟨sr [(Reg.BOOTQ_STAT, 1), (Reg.BOOTQ_LEN, 4), (Reg.BOOTQ_XFER, 0x200)], by decide⟩,
    fun f h => ⟨if f = 2 then 0x1_0800 else 0x1_0C00, by revert f h; decide⟩⟩

/-! Ill-formed operands, refused one by one, each beside a well-formed command of the same kind. -/

/-- A whole read of one 32-byte beat on port 0. -/
def txn0 : Txn := { master := 0, chan := 0, write := false, addr := 0x20, beatLog := 5, beats := 1, data := [], strobes := [] }

theorem wf_transaction : Instr.wellFormed (.transactionIssue txn0) = true := by decide
theorem wf_no_beats : Instr.wellFormed (.transactionIssue { txn0 with beats := 0 }) = false := by decide
theorem wf_too_many_beats : Instr.wellFormed (.transactionIssue { txn0 with beats := 17 }) = false := by decide
theorem wf_wider_than_its_port : Instr.wellFormed (.transactionIssue { txn0 with master := 13 }) = false := by decide
theorem wf_narrow_burst : Instr.wellFormed (.transactionIssue { txn0 with beatLog := 4, beats := 2 }) = false := by decide
theorem wf_unaligned : Instr.wellFormed (.transactionIssue { txn0 with addr := 0x21 }) = false := by decide
theorem wf_read_with_data : Instr.wellFormed (.transactionIssue { txn0 with data := [0] }) = false := by decide
theorem wf_write_without_its_bytes : Instr.wellFormed (.transactionIssue { txn0 with write := true }) = false := by decide
theorem wf_strobes_of_another_length :
    Instr.wellFormed (.transactionIssue { txn0 with write := true, beatLog := 0, data := [0], strobes := [true, true] }) = false := by decide
theorem wf_sap_slots :
    Instr.wellFormed (.sapFrameReceived 0 { words := List.replicate 33 0, bclks := 0, dIn := 0, slip := .none, start := 0 }) = false := by decide
theorem wf_aster_ref10 : Instr.wellFormed (.asterInterval { offsets := [(10, 0)], phErr := 0, ref := some 0 }) = false := by decide
theorem wf_aster_twice : Instr.wellFormed (.asterInterval { offsets := [(0, 0), (0, 1)], phErr := 0, ref := some 0 }) = false := by decide
theorem wf_cb0_backoff : Instr.wellFormed (.cb0Collision 0 1024) = false := by decide
theorem wf_stem_control : Instr.wellFormed (.stemFrameReceived 0 { stemF 0 0 false with control := [] }) = false := by decide
theorem wf_stem_payload : Instr.wellFormed (.stemFrameReceived 0 { stemF 0 0 false with payload := [1] }) = false := by decide
theorem wf_stem_blocks : Instr.wellFormed (.stemFrameReceived 0 { stemF 0 0 false with blocks := 0x1_0000 }) = false := by decide
theorem wf_diag_both : Instr.wellFormed (.diagPhase 0 ⟨true, true, false, false, 800⟩) = false := by decide
theorem wf_record_data : Instr.wellFormed (.recordReceived { recOf 0 0 with data := [1] }) = false := by decide
theorem wf_record_blocks : Instr.wellFormed (.recordReceived { recOf 0 0 with blocks := 0x100_0000 }) = false := by decide
theorem wf_chunk : Instr.wellFormed (.bootChunk { index := 0, bytes := [1], good := true }) = false := by decide
theorem wf_empty_frame : Instr.wellFormed (.ethFrameReceived 0 [] true 0) = false := by decide
theorem wf_empty_cb0_frame : Instr.wellFormed (.cb0FrameReceived [] true false 0) = false := by decide

/-! Worked examples of the spec. Each comment names the file of spec/ that gives the numbers. -/

-- 02, Example: forming addresses.
theorem test_register_address : 0x6000_0000 + Reg.TICK_CFG = 0x6000_9040 := by decide
theorem test_aperture : (sr [(Reg.MEC_APBASE 5, 0x1400)]).chip.corePhys 5 0x8123_4560 = 0x1_4123_4560 := by decide

-- 02, Example: two PPS edges before a claim.
theorem test_two_pps_edges :
    let s := (sr [(Reg.HUB_SRC_CFG 234, 0x9102), (Reg.CTRL pgHUB, 1)]).chipTo
      (let c := (sr [(Reg.HUB_SRC_CFG 234, 0x9102), (Reg.CTRL pgHUB, 1)]).chip
       { c with tb := { c.tb with short := 0x3B9A_C9F8 } })
    let s1 := after (execHubSourceAssert 234 s)
    let s2 := after (execHubSourceAssert 234 (s1.chipTo { s1.chip with tb := { s1.chip.tb with short := 0x7735_93F8 } }))
    let t := after (execHubClaim 1 s2)
    t.chip.rdata = 0x2_00EA ∧ t.chip.rd (Reg.HUB_CTIME 1) = 0x3B9A_C9F8 ∧ (t.chip.hubSrc 234).count = 0 ∧
      (t.chip.hubSrc 234).pend = false ∧ (t.chip.hubSrc 234).insvc = some 1 := by decide

-- 03, Example: claiming a slot in a shared flag word.
theorem test_shared_flag_word :
    (after (execAliasWrite true ⟨0, 0x10_0040⟩ 0x100 (after (execAliasWrite true ⟨0, 0x10_0040⟩ 0x20 State.reset)))).mem.word 0x2010_0040 = 0x120 := by
  decide

-- 05, Example: a block exponent.
theorem test_exp : expD 0x0012_3456 = 10 ∧ expD 0xFFF0_0000 = 11 ∧ expD 0x0008_0000 = 11 := by decide
theorem test_norm : norm 32 (-32) 31 true 0 (0x0012_3456 : Word) 10 = (0x48D1_5800, false) ∧
    norm 32 (-32) 31 true 0 (0xFFF0_0000 : Word) 10 = (0xC000_0000, false) ∧
    norm 32 (-32) 31 true 0 (0x0008_0000 : Word) 10 = (0x2000_0000, false) := by decide

-- 06, R191: the result of an overflow, clamped with S = 1 and wrapped with S = 0.
theorem test_abs_of_the_least : alu 0x04 true 0 0x8000_0000 0 = (0x7FFF_FFFF, some 2) ∧ (alu 0x04 false 0 0x8000_0000 0).1 = 0x8000_0000 := by
  decide

-- 06, Example: encoding a bundle. DOT.S A0 += D44:D45 × D46:D47; the pair loads of D32 from [P0] and D34 from [P8].
theorem test_mac_word : macOp 0x1802_CB80 = 1 ∧ bit (0x1802_CB80 : Word) 27 = true ∧ fld (0x1802_CB80 : Word) 17 12 = 44 ∧
    fld (0x1802_CB80 : Word) 11 6 = 46 ∧ fld (0x1802_CB80 : Word) 5 4 = 0 := by decide
theorem test_ls_word : lsAccesses 0x2C01_D8A3 = (some { st := false, pair := true, dreg := 32, p := 0, am := 3, m := 0, imm := 8 },
    some { st := false, pair := true, dreg := 34, p := 8, am := 3, m := 8, imm := 8 }) := by decide
theorem test_loopr_word : ctOp 0x74C0_101D = 0x1D := by decide

-- 10, Example: a DRAM delay line fed by a queue.
theorem test_ldptr : (after (exec (.courierLdptr 31) (sCur 0x8000_0001_0800_0000))).chip.curPtr 31 0 = 0x1_0800_0000 := by decide
theorem test_move_word : let m := (sCurIn 0x1220_0000_0000_0100 1 id).chip.moveOp 31
    m.sp = 1 ∧ m.dp = 0 ∧ m.sm = 2 ∧ m.dm = 0 ∧ m.len = 256 := by decide
theorem test_gather_word : let g := (sCurIn 0x2614_1000_0000_0040 1 id).chip.gatherOp 31
    g.tp = 3 ∧ g.bp = 0 ∧ g.xp = 2 ∧ g.xm = 2 ∧ g.ent = 2 ∧ g.esz = 4 ∧ g.wrap = true ∧ g.cnt = 64 := by decide
theorem test_addptr : (after (exec (.courierAddptr 31) (sCur 0x9100_0000_0000_0100 [(Reg.CUR_CH_PTR_LO 31 0, 0x0800_FF80),
    (Reg.CUR_CH_PTR_HI 31 0, 1), (Reg.CUR_CH_RBASE_LO 31, 0x0800_0000), (Reg.CUR_CH_RBASE_HI 31, 1), (Reg.CUR_CH_RLOG 31, 8)]))).chip.curPtr
      31 0 = 0x1_0800_0080 := by decide
theorem test_gather_index : let c := (sCurIn 0x2614_1000_0000_0040 1 id [(Reg.CUR_CH_PTR_LO 31 0, 0x0800_8000), (Reg.CUR_CH_PTR_HI 31 0, 1),
      (Reg.CUR_CH_RBASE_LO 31, 0x0800_0000), (Reg.CUR_CH_RBASE_HI 31, 1), (Reg.CUR_CH_RLOG 31, 8)]).chip
    c.gatherAddr 31 (c.gatherOp 31) 8707 = 0x1_0800_8000 - 30708 := by decide

-- 15, Example: a margin scan on a Stem lane.
theorem test_iris_entry :
    let c := (sr [(Reg.IRIS_PH, 0x3_1F20), (Reg.IRIS_V, 0x7_7888)]).chip
    c.irisPoints = 496 ∧ c.irisEntry (6 * 31 + 20) 3 = 0xE0A2_0003 := by decide

-- 18, Example: one default frame.
theorem test_stem_header : natBytes 7 (stemHeader false false true false 3 2 64 100000).toNat =
    [0xA0, 0x86, 0x01, 0x00, 0x40, 0x68, 0x02] := by decide

-- 19, Example: avoiding two stations.
theorem test_station_avoid : (sSpk 1 [(Reg.SPK_CFG 15, 0x1_01C2), (Reg.SPKC_SA_EN, 3), (Reg.SPKC_SA_F 0, 900), (Reg.SPKC_SA_F 1, 1348),
    (Reg.SPKC_SA_CFG, 0x64_0005)]).chip.spkFreq 15 = some 447 := by decide

-- 21, Example: the budget at the default setting.
theorem test_budget : State.reset.chip.recordLimit 1 2 = 26041 ∧ 8 * State.reset.chip.recordLimit 1 2 = 208328 := by decide

-- 23, Example: a signed flash image. Its words but for the CRCs.
theorem test_signed_image :
    let l := [0xAE72_4001, 0x0002_0101, 0x621, 0x0005_0080, 0, 0, 0, 0, 0x2000_0000, 0, 0x0004_0000, 0, 0x4000_0000, 0, 0x0001_0000, 0].flatMap
      (fun w : Word => wordBytes w)
    imgSegs l = 2 ∧ imgSigned l = true ∧ imgHeader l = 0x80 ∧ imgHeader l + imgBytes l 1 = 0x4_0080 ∧
      imgHeader l + imgBytes l 2 = imgWord l 0x0C := by decide

end Sys2Proof.Tests
end

section
/-! What a register write does to the device, one law for each branch of `Dev.regWrite` and `Dev.writeReg`. -/

namespace Sys2Proof.Machine

/-- A bit of a word that takes the bits of `v` where the mask `m` has ones. -/
theorem getLsbD_merge (w v m : Word) (i : Nat) :
    (w &&& ~~~m ||| v &&& m).getLsbD i = if m.getLsbD i then v.getLsbD i else w.getLsbD i := by
  by_cases hi : i < 32
  · rw [BitVec.getLsbD_or, BitVec.getLsbD_and, BitVec.getLsbD_and, BitVec.getLsbD_not, decide_eq_true hi]
    cases m.getLsbD i <;> simp
  · simp [BitVec.getLsbD_of_ge _ i (Nat.le_of_not_lt hi)]

/-- A field whose bits are all in the mask takes the written word's. -/
theorem fld_merge_of_mask (w v m : Word) (hi lo : Nat) (h : ∀ i, i < hi + 1 - lo → m.getLsbD (lo + i) = true) :
    fld (w &&& ~~~m ||| v &&& m) hi lo = fld v hi lo := by
  refine Nat.eq_of_testBit_eq fun i => ?_
  rw [testBit_fld, testBit_fld, getLsbD_merge]
  by_cases hi' : i < hi + 1 - lo
  · simp [h i hi']
  · simp [hi']

/-- A field with no bit in the mask stays. -/
theorem fld_merge_of_not_mask (w v m : Word) (hi lo : Nat) (h : ∀ i, i < hi + 1 - lo → m.getLsbD (lo + i) = false) :
    fld (w &&& ~~~m ||| v &&& m) hi lo = fld w hi lo := by
  refine Nat.eq_of_testBit_eq fun i => ?_
  rw [testBit_fld, testBit_fld, getLsbD_merge]
  by_cases hi' : i < hi + 1 - lo
  · simp [h i hi']
  · simp [hi']

/-- REGISTER_WRITE is the write that reaches the page of the address. -/
theorem exec_registerWrite (a : BitVec 20) (v : Word) (s : State) :
    exec (.registerWrite a v) s = .next (s.devTo (s.dev.regWrite a.toNat v)) := rfl

theorem Dev.regWrite_of_held (d : Dev) (k : Nat) (v : Word) (h : d.chip.blkPhase (k / 0x1000) = 2) :
    d.regWrite k v = d.chipOp (fun c => c.pwrDo (fun p => { p with blkHeld := p.blkHeld ++ [(k, v)] })) := if_pos h

theorem Dev.regWrite_of_not_held (d : Dev) (k : Nat) (v : Word) (h : d.chip.blkPhase (k / 0x1000) ≠ 2) :
    d.regWrite k v = d.writeReg k v := if_neg h

/-- R53. -/
theorem Dev.writeReg_unassigned (d : Dev) (k : Nat) (v : Word) (h : pageKind (k / 0x1000) = none) : d.writeReg k v = d := by
  simp only [Dev.writeReg, h]

/-- A write at or above 0x040 of an assigned page goes by the row of its offset (R8, R9). -/
theorem Dev.writeReg_block (d : Dev) {k i : Nat} (v : Word) {pk : PageKind} (h : pageKind (k / 0x1000) = some (pk, i))
    (ho : 0x40 ≤ k % 0x1000) :
    d.writeReg k v = (pageRow pk i (k % 0x1000)).elim d fun r =>
      if r.acc = .ro then d
      else d.blockWrite pk i k (k % 0x1000) v
        ((if pk = .strmP ∧ 0x080 ≤ k % 0x1000 then 0 else d.chip.rd k &&& ~~~r.mask) ||| (v &&& r.mask)) (Chip.plainWrite r k v) := by
  simp only [Dev.writeReg, h, if_neg (Nat.not_lt.mpr ho)]
  cases pageRow pk i (k % 0x1000) <;> rfl

/-- R9. -/
theorem Dev.writeReg_unnamed (d : Dev) {k i : Nat} (v : Word) {pk : PageKind} (h : pageKind (k / 0x1000) = some (pk, i))
    (ho : 0x40 ≤ k % 0x1000) (hr : pageRow pk i (k % 0x1000) = none) : d.writeReg k v = d := by
  rw [d.writeReg_block v h ho, hr, Option.elim_none]

/-- R8, access code RO. -/
theorem Dev.writeReg_readOnly (d : Dev) {k i : Nat} (v : Word) {pk : PageKind} {r : RegRow}
    (h : pageKind (k / 0x1000) = some (pk, i)) (ho : 0x40 ≤ k % 0x1000) (hr : pageRow pk i (k % 0x1000) = some r)
    (ha : r.acc = .ro) : d.writeReg k v = d := by
  rw [d.writeReg_block v h ho, hr, Option.elim_some, if_pos ha]

/-- R8, access code RW: what a register without a rule of its own takes from a write. -/
theorem Chip.plainWrite_of_rw (c : Chip) {r : RegRow} (k : Nat) (v : Word) (h : r.acc = .rw) :
    c.plainWrite r k v = c.wr k (c.rd k &&& ~~~r.mask ||| v &&& r.mask) := by
  simp only [Chip.plainWrite, h]

/-- The row of TICK_OFS0 in the register table of TICK: RW, with bits 19:0 writable. -/
def rowTickOfs0 : RegRow := ⟨0x074, 1, 4, .rw, 0x000FFFFF, 0x00000000⟩

theorem pageRow_tickOfs0 : pageRow .tickP 0 (Reg.TICK_OFS0 % 0x1000) = some rowTickOfs0 := by decide

/-- TICK_OFS0 has no rule of its own. -/
theorem Dev.writeReg_tickOfs0 (d : Dev) (v : Word) :
    d.writeReg Reg.TICK_OFS0 v =
      d.chipOp fun c => c.wr Reg.TICK_OFS0 (c.rd Reg.TICK_OFS0 &&& ~~~0x000FFFFF ||| v &&& 0x000FFFFF) := by
  rw [d.writeReg_block v (pk := .tickP) (i := 0) (by decide) (by decide), pageRow_tickOfs0]
  exact congrArg (fun c => { d with chip := c }) (d.chip.plainWrite_of_rw (r := rowTickOfs0) Reg.TICK_OFS0 v rfl)

end Sys2Proof.Machine
end

section
/-! The statements of 00_scope.md. -/

namespace Sys2Proof.Proofs

open Sys2Proof Sys2Proof.Machine Sys2Proof.Safety

/-- A write that the page ignores leaves the state as it was. -/
theorem exec_registerWrite_of_ignored {s : State} {a : BitVec 20} {v : Word}
    (hb : s.chip.blkPhase (a.toNat / 0x1000) ≠ 2) (h : s.dev.writeReg a.toNat v = s.dev) :
    exec (.registerWrite a v) s = .next s := by
  rw [exec_registerWrite, s.dev.regWrite_of_not_held _ v hb, h]
  rfl

/-- Settles O8: each branch of the write is one law above, and TICK_OFS0's mask holds bits 19:0 and no others. -/
theorem pagesIgnoreWhatTheyDoNotName : Obligations.PagesIgnoreWhatTheyDoNotName := by
  intro s a v
  refine ⟨fun hb => ⟨fun hp => ?unassigned, fun pk i hp ho => ⟨fun hr => ?unnamed, fun r hr ha => ?readOnly⟩⟩,
    fun hb => ?held, fun hb => ?tickOfs0⟩
  case unassigned => exact exec_registerWrite_of_ignored hb (s.dev.writeReg_unassigned _ v hp)
  case unnamed => exact exec_registerWrite_of_ignored hb (s.dev.writeReg_unnamed v hp ho hr)
  case readOnly => exact exec_registerWrite_of_ignored hb (s.dev.writeReg_readOnly v hp ho hr ha)
  case held =>
    rw [exec_registerWrite, s.dev.regWrite_of_held _ v hb]
    exact ⟨_, rfl, rfl, rfl⟩
  case tickOfs0 =>
    have hw : s.dev.regWrite (0x09074 : BitVec 20).toNat v = s.dev.writeReg Reg.TICK_OFS0 v :=
      s.dev.regWrite_of_not_held _ v hb
    rw [exec_registerWrite, hw, s.dev.writeReg_tickOfs0 v]
    refine ⟨_, rfl, rfl, ?written, ?kept, fun k hk => ?others⟩
    case written =>
      rw [Chip.rdf, Chip.rd_wr_same]
      exact fld_merge_of_mask _ v _ 19 0 (by decide)
    case kept =>
      rw [Chip.rdf, Chip.rd_wr_same]
      exact fld_merge_of_not_mask _ v _ 31 20 (by decide)
    case others => exact s.chip.rd_wr_ne _ (by simpa using hk)

end Sys2Proof.Proofs
end
